-- ==== Sys2Proof/Word.lean ====
section
/-! DEFINITION. The word types of the IZ-J880 (R2, R40, R44): 64-bit registers, bytes, instruction words. -/

namespace Sys2Proof

/-- A 64-bit scalar or control register (R44). -/
abbrev Word := BitVec 64

/-- One byte of memory (R2). -/
abbrev Byte := BitVec 8

end Sys2Proof
end

