-- ==== Sys2Proof/Machine/Bits.lean ====
section
/-! DEFINITION. Bit-field, sign-extension and byte-order helpers (R1, R2, R7), and the sparse maps the state is made of. -/

namespace Sys2Proof

/-- Bits [lo + n - 1 : lo] of a number (R2). -/
def fld (v lo n : Nat) : Nat := (v >>> lo) % 2 ^ n

/-- Bit `i` of a number. -/
def bitAt (v i : Nat) : Bool := (v >>> i) % 2 = 1

/-- SExt of the low `n` bits of `v` (R8). -/
def sextN (v n : Nat) : Int := if n = 0 then 0 else
  let x := v % 2 ^ n
  if x < 2 ^ (n - 1) then (x : Int) else (x : Int) - 2 ^ n

/-- The low `n` bits of the two's-complement form of `x` (R7). -/
def lowN (x : Int) (n : Nat) : Nat := (x % (2 ^ n : Int)).toNat

/-- The 64-bit register value of an unbounded integer (R7). -/
def toWord (x : Int) : Word := BitVec.ofInt 64 x

/-- A register value of a truth value. -/
def boolWord (b : Bool) : Word := if b then 1 else 0

/-- The little-endian value of a list of bytes (R2). -/
def leValue : List Byte → Nat
  | [] => 0
  | b :: bs => b.toNat + 256 * leValue bs

/-- The `n` little-endian bytes of a number (R2). -/
def leBytes (v : Nat) : Nat → List Byte
  | 0 => []
  | n + 1 => BitVec.ofNat 8 v :: leBytes (v / 256) n

/-- `ceil(a / b)`. -/
def ceilDiv (a b : Nat) : Nat := (a + b - 1) / b

/-- Saturating count of 64 bits (R130, R277). -/
def satInc (w : Word) : Word := if w = BitVec.allOnes 64 then w else w + 1

/-- A map from numbers held as a list in rising order of key. -/
abbrev SMap (α : Type) := List (Nat × α)

/-- The value held under a key, or `dflt`. -/
def SMap.get {α : Type} (m : SMap α) (k : Nat) (dflt : α) : α :=
  match m with
  | [] => dflt
  | (j, v) :: r => if j = k then v else SMap.get r k dflt

/-- The value held under a key, if any. -/
def SMap.find {α : Type} (m : SMap α) (k : Nat) : Option α :=
  match m with
  | [] => none
  | (j, v) :: r => if j = k then some v else SMap.find r k

/-- Writes a value under a key, keeping the rising order. -/
def SMap.put {α : Type} (m : SMap α) (k : Nat) (v : α) : SMap α :=
  match m with
  | [] => [(k, v)]
  | (j, w) :: r => if k < j then (k, v) :: (j, w) :: r else if k = j then (k, v) :: r else (j, w) :: SMap.put r k v

/-- Removes a key. -/
def SMap.del {α : Type} (m : SMap α) (k : Nat) : SMap α := m.filter (fun p => p.1 != k)

/-- Adds a number to a sorted list without repeats. -/
def insertSorted (x : Nat) : List Nat → List Nat
  | [] => [x]
  | y :: ys => if x < y then x :: y :: ys else if x = y then y :: ys else y :: insertSorted x ys

/-- The first element that passes a test, and its place. -/
def findIdx {α : Type} (p : α → Bool) : List α → Nat → Option Nat
  | [], _ => none
  | x :: xs, n => if p x then some n else findIdx p xs (n + 1)

end Sys2Proof
end

