-- ==== Sys2Proof/Machine/Flags.lean ====
section
/-! DEFINITION. Number formats and rounding (R147-R161, R164): exact values, Round and Convert with the FFLAGS bits they
raise, and the floating-point operations of R139 and R140. -/

namespace Sys2Proof.Machine

/-- NX, UF, OF, DZ and NV of FFLAGS (R156). -/
def flagNX : Nat := 1
def flagUF : Nat := 2
def flagOF : Nat := 4
def flagDZ : Nat := 8
def flagNV : Nat := 16

/-- An exact value: NaN (signalling or not), an infinity, a signed zero, or (-1)^neg x m x 2^e with m > 0. -/
inductive Num where
  | nan (sig : Bool)
  | inf (neg : Bool)
  | zero (neg : Bool)
  | fin (neg : Bool) (m : Nat) (e : Int)
  deriving DecidableEq, Repr, Inhabited

/-- Rounding modes 0 to 4 (R155): .rne, .rtz, .rup, .rdn, .rna. -/
abbrev RoundMode := Nat

/-- A floating format (R148-R150): width, precision, bias, whether it is signed, whether it is IEEE, whether it has
infinities, and the code of its largest finite magnitude. -/
structure FloatFmt where
  width : Nat
  prec : Nat
  bias : Nat
  signed : Bool
  ieee : Bool
  hasInf : Bool
  maxCode : Nat
  deriving DecidableEq, Repr, Inhabited

/-- The floating format of a format code, if it is one (R148-R150, R154). -/
def floatFmt (fc : Nat) : Option FloatFmt :=
  let b := fc % 32
  let i := 32 ≤ fc
  if b = 8 then some { width := 16, prec := 11, bias := 15, signed := true, ieee := true, hasInf := true, maxCode := 0x7BFF }
  else if b = 9 then some { width := 16, prec := 8, bias := 127, signed := true, ieee := true, hasInf := true, maxCode := 0x7F7F }
  else if b = 10 then some { width := 32, prec := 24, bias := 127, signed := true, ieee := true, hasInf := true, maxCode := 0x7F7F_FFFF }
  else if b = 11 then some { width := 4, prec := 2, bias := 2, signed := true, ieee := false, hasInf := false, maxCode := 7 }
  else if 16 ≤ b ∧ b ≤ 22 then
    some { width := 8, prec := b - 15, bias := 2 ^ (7 - (b - 15)), signed := true, ieee := false, hasInf := i,
           maxCode := if i then 0x7E else 0x7F }
  else if 24 ≤ b ∧ b ≤ 30 then
    some { width := 8, prec := b - 23, bias := 2 ^ (8 - (b - 23)), signed := false, ieee := false, hasInf := i,
           maxCode := if i then 0xFD else 0xFE }
  else none

/-- Whether an integer format code is signed (R147, R154). -/
def intSigned (fc : Nat) : Bool := fc % 2 = 0

/-- The least exponent of a format's unit in the last place. -/
def FloatFmt.lsb (f : FloatFmt) : Int := 1 - (f.bias : Int) - ((f.prec : Int) - 1)

/-- The value of a magnitude code (R149). -/
def FloatFmt.magnitude (f : FloatFmt) (neg : Bool) (c : Nat) : Num :=
  let e := c / 2 ^ (f.prec - 1)
  let t := c % 2 ^ (f.prec - 1)
  if e = 0 then (if t = 0 then .zero neg else .fin neg t f.lsb) else .fin neg (2 ^ (f.prec - 1) + t) (f.lsb + e - 1)

/-- Value(bits, fc) of a floating format (R148-R150). -/
def FloatFmt.decode (f : FloatFmt) (bits : Nat) : Num :=
  let neg := f.signed && bitAt bits (f.width - 1)
  let c := if f.signed then bits % 2 ^ (f.width - 1) else bits % 2 ^ f.width
  if f.ieee then
    let top := 2 ^ (f.width - 1) - 2 ^ (f.prec - 1)
    if top < c then .nan (!bitAt c (f.prec - 2)) else if c = top then .inf neg else f.magnitude neg c
  else if f.signed then
    if neg && c = 0 then .nan false
    else if f.hasInf && c = f.maxCode + 1 then .inf neg
    else f.magnitude neg c
  else if c = 0xFF then .nan false
  else if f.hasInf && c = 0xFE then .inf false
  else f.magnitude false c

/-- The exact value of an integer. -/
def intNum (x : Int) : Num := if x = 0 then .zero false else .fin (x < 0) x.natAbs 0

/-- Value(bits, fc) (R164). `w` is the width of the format. -/
def valueOf (bits fc w : Nat) : Num :=
  match floatFmt fc with
  | some f => f.decode bits
  | none => intNum (if intSigned fc then sextN bits w else (bits % 2 ^ w : Nat))

/-- The NaN code of a floating format: the canonical quiet NaN, or the only NaN (R148-R150). -/
def FloatFmt.nanCode (f : FloatFmt) : Nat :=
  if f.ieee then 2 ^ (f.width - 1) - 2 ^ (f.prec - 1) + 2 ^ (f.prec - 2)
  else if f.signed then 2 ^ (f.width - 1) else 0xFF

/-- The code of an infinity of a format that has them. -/
def FloatFmt.infCode (f : FloatFmt) (neg : Bool) : Nat := f.maxCode + 1 + (if neg then 2 ^ (f.width - 1) else 0)

/-- The code of the largest finite value of a sign. -/
def FloatFmt.maxOf (f : FloatFmt) (neg : Bool) : Nat := f.maxCode + (if neg then 2 ^ (f.width - 1) else 0)

/-- The code of a zero: narrow formats have one zero (R160). -/
def FloatFmt.zeroCode (f : FloatFmt) (neg : Bool) : Nat := if f.ieee && neg then 2 ^ (f.width - 1) else 0

/-- Number of significant bits of a number. -/
def bitLen (n : Nat) : Nat := if n = 0 then 0 else Nat.log2 n + 1

/-- Rounds m x 2^e to a multiple of 2^q (R157): the multiple and whether it is exact. `odd k` tells whether candidate k has
an odd code. -/
def roundAt (neg : Bool) (m : Nat) (e q : Int) (rm : RoundMode) (odd : Nat → Bool) : Nat × Bool :=
  if q ≤ e then (m * 2 ^ (e - q).toNat, true) else
  let s := (q - e).toNat
  let k := m / 2 ^ s
  let r := m % 2 ^ s
  let half := 2 ^ (s - 1)
  let up := match rm with
    | 0 => half < r || (r = half && odd k)
    | 1 => false
    | 2 => r != 0 && !neg
    | 3 => r != 0 && neg
    | _ => half ≤ r
  (if up then k + 1 else k, r = 0)

/-- Whether an overflow gives infinity under OV = 1 (R157). -/
def overflowsToInf (neg : Bool) (rm : RoundMode) : Bool :=
  match rm with
  | 0 => true
  | 1 => false
  | 2 => !neg
  | 3 => neg
  | _ => true

/-- The code parity that decides an RNE tie (R157): of candidate k at unit 2^q. -/
def FloatFmt.oddCode (f : FloatFmt) (q : Int) (k : Nat) : Bool :=
  if f.prec = 1 then (q - f.lsb + k) % 2 = 1 else k % 2 = 1

/-- Round of a finite nonzero value into a floating format (R157). -/
def FloatFmt.roundFin (f : FloatFmt) (neg : Bool) (m : Nat) (e : Int) (rm : RoundMode) (ov : Bool) : Nat × Nat :=
  let free := e + bitLen m - f.prec
  let q := max free f.lsb
  let (k, exact) := roundAt neg m e q rm (f.oddCode q)
  let code := (q - f.lsb).toNat * 2 ^ (f.prec - 1) + k
  if neg && !f.signed && k != 0 then (if ov then f.nanCode else 0, flagNV)
  else if f.maxCode < code then
    let r := if ov && overflowsToInf neg rm then (if f.hasInf then f.infCode neg else f.nanCode) else f.maxOf neg
    (r, flagOF + flagNX)
  else
    let (k2, _) := roundAt neg m e free rm (f.oddCode free)
    let tiny := free + bitLen k2 ≤ 1 - (f.bias : Int)
    let flags := if exact then 0 else if tiny then flagUF + flagNX else flagNX
    if code = 0 then (f.zeroCode neg, flags)
    else (code + (if neg then 2 ^ (f.width - 1) else 0), flags)

/-- Round(x, mode, fc) into a floating format (R157, R158). -/
def FloatFmt.round (f : FloatFmt) (x : Num) (rm : RoundMode) (ov : Bool) : Nat × Nat :=
  match x with
  | .nan sig => (f.nanCode, if sig then flagNV else 0)
  | .zero neg => (f.zeroCode neg, 0)
  | .inf neg =>
    if neg && !f.signed then (if ov then f.nanCode else 0, flagNV)
    else if f.hasInf then (f.infCode neg, 0)
    else if ov then (f.nanCode, flagNV) else (f.maxOf neg, flagNX)
  | .fin neg m e => f.roundFin neg m e rm ov

/-- The range of an integer format of `w` bits. -/
def intLow (fc w : Nat) : Int := if intSigned fc then -(2 ^ (w - 1) : Int) else 0

/-- The top of the range of an integer format of `w` bits. -/
def intHigh (fc w : Nat) : Int := if intSigned fc then 2 ^ (w - 1) - 1 else 2 ^ w - 1

/-- Clamps an integer. -/
def clampInt (lo hi x : Int) : Int := if x < lo then lo else if hi < x then hi else x

/-- A floating value to an integer format (R158, R159). -/
def toInteger (x : Num) (fc w : Nat) (rm : RoundMode) : Nat × Nat :=
  match x with
  | .nan _ => (0, flagNV)
  | .inf neg => (lowN (if neg then intLow fc w else intHigh fc w) w, flagNV)
  | .zero _ => (0, 0)
  | .fin neg m e =>
    let (k, exact) := roundAt neg m e 0 rm (fun k => k % 2 = 1)
    let v : Int := if neg then -(k : Int) else k
    if v < intLow fc w ∨ intHigh fc w < v then (lowN (clampInt (intLow fc w) (intHigh fc w) v) w, flagNV)
    else (lowN v w, if exact then 0 else flagNX)

/-- An integer to an integer format (R159): saturates, or keeps low bits when OV = 1. -/
def intToInt (v : Int) (fc w : Nat) (ov : Bool) : Nat :=
  if ov then lowN v w else lowN (clampInt (intLow fc w) (intHigh fc w) v) w

/-- The integer that an exact value of an integer format is. -/
def Num.toInt (x : Num) : Int :=
  match x with
  | .fin neg m _ => if neg then -(m : Int) else m
  | _ => 0

/-- Whether a format code is valid (R154). -/
def fcValid (fc : Nat) : Bool :=
  let b := fc % 32
  if fc < 32 then b ≤ 11 || (16 ≤ b && b ≤ 22) || (24 ≤ b && b ≤ 30)
  else fc < 64 && ((16 ≤ b && b ≤ 22) || (24 ≤ b && b ≤ 30))

/-- Width in bits of a format code (R117); 4 for f4p2. -/
def fcWidth (fc : Nat) : Nat :=
  let b := fc % 32
  if b = 11 then 4
  else if b = 2 ∨ b = 3 ∨ b = 8 ∨ b = 9 then 16
  else if b = 4 ∨ b = 5 ∨ b = 10 then 32
  else if b = 6 ∨ b = 7 then 64
  else 8

/-- Convert(x, FD, rm, OV) (R164): `fs` is the source's format code and `wd` the width of FD. Widening extends the source as
its signedness says and never saturates (R159). -/
def convert (x : Num) (fs fd wd : Nat) (rm : RoundMode) (ov : Bool) : Nat × Nat :=
  match floatFmt fd with
  | some f => f.round x rm ov
  | none => if (floatFmt fs).isSome then toInteger x fd wd rm else (intToInt x.toInt fd wd (ov || fcWidth fs < wd), 0)

/-! ### Exact arithmetic -/

/-- Whether a value is a NaN. -/
def Num.isNan (x : Num) : Bool :=
  match x with
  | .nan _ => true
  | _ => false

/-- Whether a value is a signalling NaN. -/
def Num.isSig (x : Num) : Bool := x = .nan true

/-- The sign of a value that is not a NaN. -/
def Num.neg? (x : Num) : Bool :=
  match x with
  | .nan _ => false
  | .inf n => n
  | .zero n => n
  | .fin n _ _ => n

/-- The value with the other sign. -/
def Num.negate (x : Num) : Num :=
  match x with
  | .nan s => .nan s
  | .inf n => .inf (!n)
  | .zero n => .zero (!n)
  | .fin n m e => .fin (!n) m e

/-- NV where an operand is a signalling NaN (R140). -/
def sigFlag (xs : List Num) : Nat := if xs.any Num.isSig then flagNV else 0

/-- The finite value of an integer multiple of 2^e; a zero takes the sign given. -/
def finOf (v : Int) (e : Int) (zeroNeg : Bool) : Num := if v = 0 then .zero zeroNeg else .fin (v < 0) v.natAbs e

/-- x + y exactly (R140), with the flag raised; a NaN result is quiet. -/
def addNum (x y : Num) (rm : RoundMode) : Num × Nat :=
  if x.isNan || y.isNan then (.nan false, sigFlag [x, y]) else
  match x, y with
  | .inf a, .inf b => if a = b then (.inf a, 0) else (.nan false, flagNV)
  | .inf a, _ => (.inf a, 0)
  | _, .inf b => (.inf b, 0)
  | .zero a, .zero b => (.zero (if a = b then a else rm = 3), 0)
  | .zero _, y => (y, 0)
  | x, .zero _ => (x, 0)
  | .fin a m e, .fin b n f =>
    let g := min e f
    let u : Int := (m * 2 ^ (e - g).toNat : Nat)
    let v : Int := (n * 2 ^ (f - g).toNat : Nat)
    (finOf ((if a then -u else u) + (if b then -v else v)) g (rm = 3), 0)
  | _, _ => (.nan false, 0)

/-- x x y exactly (R140). -/
def mulNum (x y : Num) : Num × Nat :=
  if x.isNan || y.isNan then (.nan false, sigFlag [x, y]) else
  let n := x.neg? != y.neg?
  match x, y with
  | .inf _, .zero _ => (.nan false, flagNV)
  | .zero _, .inf _ => (.nan false, flagNV)
  | .inf _, _ => (.inf n, 0)
  | _, .inf _ => (.inf n, 0)
  | .zero _, _ => (.zero n, 0)
  | _, .zero _ => (.zero n, 0)
  | .fin _ m e, .fin _ k f => (.fin n (m * k) (e + f), 0)
  | _, _ => (.nan false, 0)

/-- x / y to at least 64 bits beyond the point of rounding, with a last bit that keeps the remainder (R139, R140). -/
def divNum (x y : Num) : Num × Nat :=
  if x.isNan || y.isNan then (.nan false, sigFlag [x, y]) else
  let n := x.neg? != y.neg?
  match x, y with
  | .inf _, .inf _ => (.nan false, flagNV)
  | .zero _, .zero _ => (.nan false, flagNV)
  | .inf _, _ => (.inf n, 0)
  | _, .inf _ => (.zero n, 0)
  | .zero _, _ => (.zero n, 0)
  | .fin _ _ _, .zero _ => (.inf n, flagDZ)
  | .fin _ m e, .fin _ k f =>
    let sh := 64 + bitLen k
    let q := m * 2 ^ sh / k
    let r := m * 2 ^ sh % k
    (.fin n (2 * q + (if r = 0 then 0 else 1)) (e - f - sh - 1), 0)
  | _, _ => (.nan false, 0)

/-- The integer square root of a number below 2^(2n), bit by bit. -/
def isqrtBits (v : Nat) : Nat → Nat → Nat
  | 0, r => r
  | n + 1, r => if (r + 2 ^ n) * (r + 2 ^ n) ≤ v then isqrtBits v n (r + 2 ^ n) else isqrtBits v n r

/-- The integer square root. -/
def isqrt (v : Nat) : Nat := isqrtBits v (bitLen v / 2 + 1) 0

/-- An even exponent for a root: m x 2^e with e even. -/
def evenExp (m : Nat) (e : Int) : Nat × Int := if e % 2 = 0 then (m, e) else (2 * m, e - 1)

/-- sqrt(x) (R139, R140). -/
def sqrtNum (x : Num) : Num × Nat :=
  match x with
  | .nan s => (.nan false, if s then flagNV else 0)
  | .inf n => if n then (.nan false, flagNV) else (.inf false, 0)
  | .zero n => (.zero n, 0)
  | .fin true _ _ => (.nan false, flagNV)
  | .fin false m e =>
    let (m, e) := evenExp m e
    let v := m * 2 ^ 128
    let r := isqrt v
    (.fin false (2 * r + (if r * r = v then 0 else 1)) (e / 2 - 64 - 1), 0)

/-- 1 / sqrt(x) (R139, R140). -/
def rsqrtNum (x : Num) : Num × Nat :=
  match x with
  | .nan s => (.nan false, if s then flagNV else 0)
  | .inf n => if n then (.nan false, flagNV) else (.zero false, 0)
  | .zero n => (.inf n, flagDZ)
  | .fin true _ _ => (.nan false, flagNV)
  | .fin false m e =>
    let (m, e) := evenExp m e
    let k := 64 + bitLen m
    let r := isqrt (2 ^ (2 * k) / m)
    (.fin false (2 * r + (if r * r * m = 2 ^ (2 * k) then 0 else 1)) (-(e / 2) - k - 1), 0)

/-- Fraction bits of the constants of 2^x. -/
def exp2Bits : Nat := 320

/-- 2^(f / 2^n) to `exp2Bits` fraction bits: the product of the roots 2^(1/2), 2^(1/4), ... whose bits of f are set. -/
def exp2Frac (f : Nat) : Nat → Nat → Nat → Nat
  | 0, _, acc => acc
  | n + 1, c, acc =>
    let root := isqrt (c * 2 ^ exp2Bits)
    exp2Frac f n root (if bitAt f n then acc * root / 2 ^ exp2Bits else acc)

/-- 2^x (R139, R140): exact for integers, and otherwise to 320 bits with a last bit that keeps the result between codes. -/
def exp2Num (x : Num) : Num × Nat :=
  match x with
  | .nan s => (.nan false, if s then flagNV else 0)
  | .inf n => (if n then .zero false else .inf false, 0)
  | .zero _ => (.fin false 1 0, 0)
  | .fin neg m e =>
    if 13 ≤ e + bitLen m then (.fin false 1 (if neg then -4096 else 4096), 0)
    else if 0 ≤ e then
      let v : Int := (m * 2 ^ e.toNat : Nat)
      (.fin false 1 (if neg then -v else v), 0)
    else
      let n := (-e).toNat
      let whole := m / 2 ^ n
      let frac := m % 2 ^ n
      if frac = 0 then (.fin false 1 (if neg then -(whole : Int) else whole), 0)
      else
        let f := if neg then 2 ^ n - frac else frac
        let w : Int := if neg then -(whole : Int) - 1 else whole
        (.fin false (2 * exp2Frac f n (2 * 2 ^ exp2Bits) (2 ^ exp2Bits) + 1) (w - exp2Bits - 1), 0)

/-- Order of two values that are not NaN; zeros of either sign are equal. -/
def ltNum (x y : Num) : Bool :=
  match x, y with
  | .inf a, .inf b => a && !b
  | .inf a, _ => a
  | _, .inf b => !b
  | .zero _, .zero _ => false
  | .zero _, .fin b _ _ => !b
  | .fin a _ _, .zero _ => a
  | .fin a m e, .fin b n f =>
    let g := min e f
    let u : Int := (m * 2 ^ (e - g).toNat : Nat)
    let v : Int := (n * 2 ^ (f - g).toNat : Nat)
    (if a then -u else u) < (if b then -v else v)
  | _, _ => false

/-- Equality of two values that are not NaN. -/
def eqNum (x y : Num) : Bool := !x.isNan && !y.isNan && !ltNum x y && !ltNum y x

/-- The order of vfmin and vfmax, in which -0 is below +0 (R139). -/
def belowNum (x y : Num) : Bool :=
  match x, y with
  | .zero a, .zero b => a && !b
  | x, y => ltNum x y

/-- vfmin and vfmax of two operands given with their codes (R139, R140). -/
def FloatFmt.minMax (f : FloatFmt) (isMax : Bool) (a b : Nat) : Nat × Nat :=
  let x := f.decode a
  let y := f.decode b
  let fl := sigFlag [x, y]
  if x.isNan && y.isNan then (f.nanCode, fl)
  else if x.isNan then (b, fl)
  else if y.isNan then (a, fl)
  else if isMax then (if belowNum x y then b else a, fl)
  else (if belowNum y x then b else a, fl)

/-- The compares of R139: 0 equal, 1 less, 2 less or equal. -/
def compareNum (kind : Nat) (x y : Num) : Bool × Nat :=
  if x.isNan || y.isNan then (false, if kind = 0 then sigFlag [x, y] else flagNV)
  else match kind with
    | 0 => (eqNum x y, 0)
    | 1 => (ltNum x y, 0)
    | _ => (!ltNum y x, 0)

/-- vfclass (R140): the class bit. -/
def FloatFmt.classBit (f : FloatFmt) (x : Num) : Nat :=
  match x with
  | .nan s => if s then 8 else 9
  | .inf n => if n then 0 else 7
  | .zero n => if n then 3 else 4
  | .fin n m _ =>
    let sub := bitLen m < f.prec
    if n then (if sub then 2 else 1) else (if sub then 5 else 6)

/-- The flag bits that TE of FRM enables (R155). -/
def enabledFlags (frm : Word) : Nat := fld frm.toNat 8 5

/-- The highest-numbered flag of a set that TE enables (R161). -/
def trappingFlag (te flags : Nat) : Option Nat :=
  if bitAt te 4 && bitAt flags 4 then some 4
  else if bitAt te 3 && bitAt flags 3 then some 3
  else if bitAt te 2 && bitAt flags 2 then some 2
  else if bitAt te 1 && bitAt flags 1 then some 1
  else if bitAt te 0 && bitAt flags 0 then some 0
  else none

/-- The rounding mode an RM field selects, or `none` where FRM holds a reserved value (R138). -/
def roundingMode (rmField : Nat) (frm : Word) : Option RoundMode :=
  if rmField ≤ 4 then some rmField
  else if fld frm.toNat 0 3 ≤ 4 then some (fld frm.toNat 0 3) else none

end Sys2Proof.Machine
end

