-- ==== Sys2Proof/Config.lean ====
section
/-! DEFINITION. What an implementation fixes (flash configuration, R415-R418) and the free values the manual leaves open.
Every opaque constant has no body: no proof can see its value. -/

namespace Sys2Proof.Config

/-- Undefined contents of a row byte (R5): the value drawn at the `n`-th draw. Free value, log entry 8. -/
opaque freeByte : Nat → BitVec 8

/-- Undefined contents of a conflicting page (R33) at the `n`-th draw. Free value, log entry 8. -/
opaque conflictByte : Nat → Nat → BitVec 8

/-- Whether a scalar store has performed for the vector queue at a boundary (R72). Free value, log entry 8. -/
opaque storePerforms : Nat → Nat → Bool

/-- Whether a chunk of an address on another device is DEV memory there, as far as the copy engine knows (R410). Free value, log
entry 8. -/
opaque remoteDev : Nat → Nat → Nat → Bool

/-- The Efpo port a packet leaves by: the hash of DST, SRC and requester ID (R408). Free value, log entry 10. -/
opaque portHash : Nat → Nat → Nat → Nat

/-- The Efpo port a packet of another device arrives at, at the `n`-th draw (R408). Free value, log entry 10. -/
opaque arrivalPort : Nat → Nat

/-- Flits of a packet of TYPE 0 to 5, whose layout the manual does not give (R270, R407). Free value, log entry 10. -/
opaque packetFlits : Nat → Nat

/-- SLH-DSA-SHAKE-256s (R414): the signature that the holder of a public key's secret makes of a message without fresh
randomness. Free value, log entry 10: the manual names the scheme and does not give it. -/
opaque slhSign : BitVec 512 → List (BitVec 8) → BitVec (8 * 29792)

/-- Whether a public key verifies a signature other than that one (R414). Free value, log entry 10. -/
opaque slhAccepts : BitVec 512 → List (BitVec 8) → BitVec (8 * 29792) → Bool

/-- The bytes of an image header (R414): of its SVN, length, stage list and public key. Free value, log entry 10: the manual
gives what the header holds and not its layout. -/
opaque headerBytes : BitVec 64 → Nat → List Nat → BitVec 512 → List (BitVec 8)

/-- SLH-DSA-SHAKE-256s with the device key (R419): byte `i` of the signature of a message. Free value, log entry 10. -/
opaque attestSignature : List (BitVec 8) → Nat → BitVec 8

/-- The 64-byte device public key (R419). Free value, log entry 10. -/
opaque devicePublicKey : BitVec 512

/-- The measurement of the ROM's own version (R415 step 2). Free value, log entry 10. -/
opaque romVersion : List (BitVec 8)

/-- The stages that the flash holds in slot A (0) and slot B (1) as the module is delivered (R414). Free value, log entry 10. -/
opaque slotStages : Nat → List (List (BitVec 8))

/-- The public key that signs images, whose digest the fuses hold (R414). Free value, log entry 10. -/
opaque signingKey : BitVec 512

/-- What a load of a wait object without semaphores returns (R27): the manual gives it no contents. Free value, log
entry 8. -/
opaque waitObject : Nat → Nat → BitVec 64

/-- The TVAL of a trap whose TVAL the manual does not state. Free value, log entry 8. -/
opaque freeTval : Nat → BitVec 64

/-- Device ID in flash configuration (R415 step 7). DESIGN CHOICE, log entry 4. -/
def deviceId : Nat := 12

/-- MAC address in flash (R402). DESIGN CHOICE, log entry 4. -/
def macAddress : Nat := 0x0200_0000_0012

/-- The incarnation that the first start-up leaves (R273). DESIGN CHOICE, log entry 4. -/
def firstIncarnation : BitVec 16 := 1

/-- Security version of the images as delivered (R414). DESIGN CHOICE, log entry 4. -/
def svn : Nat := 1

/-- The fused SVN floor (R414). DESIGN CHOICE, log entry 4. -/
def svnFloor : Nat := 1

/-- Base of the version region, a multiple of 1 GiB (R417). DESIGN CHOICE, log entry 4. -/
def vregBase : Nat := 0x40_0000_0000

/-- Length of the version region (R417). DESIGN CHOICE, log entry 4. -/
def vregLen : Nat := 0x4000_0000

/-- Base of the version side table, one sixteenth of the region, row-aligned (R417). DESIGN CHOICE, log entry 4. -/
def vstBase : Nat := 0x40_4000_0000

/-- Length of the version side table (R417). -/
def vstLen : Nat := vregLen / 16

/-- Base of the resident region, a multiple of 2 MiB (R418). DESIGN CHOICE, log entry 4. -/
def residentBase : Nat := 0x4000_0000

/-- Number of 2 MiB pages of the resident region, at least four (R418). DESIGN CHOICE, log entry 4. -/
def residentPages : Nat := 4

/-- Entry of the resident program, above 0x20_0000 from the region's base (R418). DESIGN CHOICE, log entry 4. -/
def residentEntry : Nat := residentBase + 0x20_0000

/-- Trap entry named by the resident program's image header (R418). DESIGN CHOICE, log entry 4. -/
def residentTrapEntry : Nat := residentBase + 0x20_0100

/-- Address of the resident program's configuration (R418, start-up block bytes 24-31). DESIGN CHOICE, log entry 4. -/
def residentConfig : Nat := residentBase + 0x20_2000

/-- Entry of Cairn's firmware after start-up (R415). DESIGN CHOICE, log entry 4. -/
def firmwareEntry : Nat := 0x70_0000

/-- First of the translation tables that firmware builds in the resident region (R418). DESIGN CHOICE, log entry 4. -/
def tableBase : Nat := residentBase + 0x1_0000

/-- First device time after start-up, in ns. DESIGN CHOICE, log entry 5. -/
def startTime : Nat := 0

/-- FEAT0, the features the shipped device offers (R420). -/
def feat0 : BitVec 64 := 0x3F

end Sys2Proof.Config
end

