-- ==== Sys2Proof/Syntax.lean ====
section
/-! DEFINITION. The syntax of the IZ-J880: the fields of a full word and of a pair half (R42, R48), the packets that
events carry (R270, R407-R411), and `Instr`, one constructor per row of the opcode table. A word constructor carries the
fields of its word; an event constructor carries what the outside world or a device unit supplies. -/

namespace Sys2Proof

/-- The fields of a full instruction word below CLASS and OP (R42). -/
structure Fields where
  form : BitVec 2
  d : BitVec 6
  a : BitVec 6
  b : BitVec 6
  m : BitVec 3
  mz : Bool
  imm : BitVec 28
  deriving DecidableEq, Repr, Inhabited

/-- One 31-bit half of a pair word (R48). -/
structure Half where
  hop : BitVec 7
  d : BitVec 4
  a : BitVec 4
  imm : BitVec 16
  deriving DecidableEq, Repr, Inhabited

/-- A remote request packet (R270). `kind` is OP - 11, `src` the sending device. -/
structure RemoteRequest where
  src : Nat
  kind : Nat
  sz : Nat
  u : Bool
  reqid : Nat
  reply : Nat
  serial : BitVec 32
  floor : BitVec 32
  expinc : BitVec 16
  sent : Word
  job : Nat
  addr : BitVec 57
  opnd : Word
  exp : Word
  deriving DecidableEq, Repr, Inhabited

/-- A remote response packet (R270). `src` is the owner that sends it. -/
structure RemoteResponse where
  src : Nat
  reqid : Nat
  serial : BitVec 32
  incarn : BitVec 16
  status : Nat
  floorseen : BitVec 32
  cause : Nat
  result : Word
  deriving DecidableEq, Repr, Inhabited

/-- A floor beacon, beacon ack, incarnation probe or probe answer (R270): `floor` is FLOOR or FLOORSEEN. -/
structure FloorPacket where
  src : Nat
  reqid : Nat
  floor : BitVec 32
  incarn : BitVec 16
  sent : Word
  reply : Nat
  deriving DecidableEq, Repr, Inhabited

/-- A copy packet (R409): header bytes 8-27, the prefix and the chunk data. `poison` lists the 32-byte pieces that the
poison map marks. -/
structure CopyPacket where
  src : Nat
  reqid : Nat
  serial : BitVec 32
  chunk : Nat
  incarn : BitVec 16
  status : Nat
  cause : Nat
  sent : BitVec 32
  desc : List Byte
  job : Nat
  floor : BitVec 32
  poison : List Nat
  data : List Byte
  deriving DecidableEq, Repr, Inhabited

/-- A pace request, agreement or acknowledgement (R411). -/
structure PacePacket where
  src : Nat
  group : BitVec 16
  level : Nat
  number : BitVec 32
  stamp : Word
  sent : BitVec 32
  deriving DecidableEq, Repr, Inhabited

/-- A RoCEv2 packet as the host port sees it (R400-R405): the length of its frame in bytes, whether it is IPv6, its source and
destination addresses, queue pair, packet sequence number, place in its message, virtual address, region key and length (those of the
First, Only or Read Request), payload, and whether the packet is ECN-marked. -/
structure RocePacket where
  frame : Nat
  v6 : Bool
  src : BitVec 128
  dst : BitVec 128
  qp : Nat
  psn : BitVec 24
  first : Bool
  last : Bool
  va : Word
  rkey : BitVec 32
  len : Nat
  payload : List Byte
  ecn : Bool
  deriving DecidableEq, Repr, Inhabited

/-- The header facts of an Efpo packet that arrives (R407): DST, SRC, TYPE, HOPS, LEN, whether its CRC is right, and, of a time-sync
packet, DIR (R411). -/
structure Frame where
  dst : Nat
  src : Nat
  type : Nat
  hops : Nat
  len : Nat
  crcOk : Bool
  dir : Nat
  deriving DecidableEq, Repr, Inhabited

/-- What accompanies an event: the operands of the steps of the opcode table that no program issues. An event reads the
part it needs; an accessor reads 0 where that part is not there. -/
inductive EventInput where
  | nothing
  /-- Up to three unit numbers. -/
  | nums (a b c : Nat)
  /-- A register write: a unit or register number and the value written. -/
  | write (n : Nat) (w : Word)
  /-- A sample of a sensor or monitor. -/
  | sample (n : Nat) (x : Int)
  /-- A power estimate: the module's watts and each island's PWR. -/
  | estimate (watts : Nat) (pwr : List Nat)
  /-- A channel request: stack, physical address, tag, MASK and data. -/
  | block (stack pa tag : Nat) (mask : BitVec 64) (data : BitVec 512)
  /-- A switch's answer: port, SEQ, TA, TB. -/
  | answer (port seq ta tb : Nat)
  /-- A packet at a port, as its header gives it. -/
  | frame (port : Nat) (f : Frame)
  | request (p : RemoteRequest)
  | response (p : RemoteResponse)
  | floor (p : FloorPacket)
  | copy (p : CopyPacket)
  | pace (p : PacePacket)
  | roce (p : RocePacket)
  deriving DecidableEq, Repr, Inhabited

/-- First number of an event's operands. -/
def EventInput.n1 (x : EventInput) : Nat :=
  match x with
  | .nums a _ _ => a
  | .write n _ => n
  | .sample n _ => n
  | .estimate w _ => w
  | .block k _ _ _ _ => k
  | .answer p _ _ _ => p
  | .frame p _ => p
  | _ => 0

/-- Second number. -/
def EventInput.n2 (x : EventInput) : Nat :=
  match x with
  | .nums _ b _ => b
  | .block _ pa _ _ _ => pa
  | .answer _ q _ _ => q
  | _ => 0

/-- Third number. -/
def EventInput.n3 (x : EventInput) : Nat :=
  match x with
  | .nums _ _ c => c
  | .block _ _ t _ _ => t
  | .answer _ _ a _ => a
  | _ => 0

/-- The value written. -/
def EventInput.word (x : EventInput) : Word :=
  match x with
  | .write _ w => w
  | _ => 0

/-- The sample. -/
def EventInput.int (x : EventInput) : Int :=
  match x with
  | .sample _ v => v
  | _ => 0

/-- One constructor per row of spec/opcode_table.json. A full word carries its fields; a pair word and a word with no
instruction carry the word; an event reads its operands from the state's `input`. -/
inductive Instr where
  /-- PAIR_WORD (R50). -/
  | pairWord (w : Word)
  /-- ILLEGAL_INSTRUCTION (R54). -/
  | illegalInstruction (w : Word)
  /-- NOP (R76). -/
  | nop (f : Fields)
  /-- ADD (R76). -/
  | add (f : Fields)
  /-- SUB (R76). -/
  | sub (f : Fields)
  /-- AND (R76). -/
  | and (f : Fields)
  /-- OR (R76). -/
  | or (f : Fields)
  /-- XOR (R76). -/
  | xor (f : Fields)
  /-- SLL (R76). -/
  | sll (f : Fields)
  /-- SRL (R76). -/
  | srl (f : Fields)
  /-- SRA (R76). -/
  | sra (f : Fields)
  /-- SLT (R76). -/
  | slt (f : Fields)
  /-- SLTZ (R76). -/
  | sltz (f : Fields)
  /-- MUL (R76). -/
  | mul (f : Fields)
  /-- MULH (R76). -/
  | mulh (f : Fields)
  /-- MULHZ (R76). -/
  | mulhz (f : Fields)
  /-- DIV (R77). -/
  | div (f : Fields)
  /-- DIVZ (R77). -/
  | divz (f : Fields)
  /-- REM (R77). -/
  | rem (f : Fields)
  /-- REMZ (R77). -/
  | remz (f : Fields)
  /-- MIN (R76). -/
  | min (f : Fields)
  /-- MAX (R76). -/
  | max (f : Fields)
  /-- MINZ (R76). -/
  | minz (f : Fields)
  /-- MAXZ (R76). -/
  | maxz (f : Fields)
  /-- CLZ (R78). -/
  | clz (f : Fields)
  /-- CTZ (R78). -/
  | ctz (f : Fields)
  /-- POP (R78). -/
  | pop (f : Fields)
  /-- BEXT (R78). -/
  | bext (f : Fields)
  /-- BINS (R78). -/
  | bins (f : Fields)
  /-- LIH (R79). -/
  | lih (f : Fields)
  /-- LI (R79). -/
  | li (f : Fields)
  /-- SEL (R79). -/
  | sel (f : Fields)
  /-- ADR (R79). -/
  | adr (f : Fields)
  /-- CRR (R80). -/
  | crr (f : Fields)
  /-- CRW (R80). -/
  | crw (f : Fields)
  /-- CRS (R80). -/
  | crs (f : Fields)
  /-- CRC (R80). -/
  | crc (f : Fields)
  /-- LD (R82). -/
  | ld (f : Fields)
  /-- ST (R82). -/
  | st (f : Fields)
  /-- LDA (R83). -/
  | lda (f : Fields)
  /-- STL (R83). -/
  | stl (f : Fields)
  /-- PF (R84). -/
  | pf (f : Fields)
  /-- B_COND (R85). -/
  | bCond (f : Fields)
  /-- J (R85). -/
  | j (f : Fields)
  /-- JL (R85). -/
  | jl (f : Fields)
  /-- JR (R85). -/
  | jr (f : Fields)
  /-- SMB (R86). -/
  | smb (f : Fields)
  /-- BK (R87). -/
  | bk (f : Fields)
  /-- BT (R88). -/
  | bt (f : Fields)
  /-- ACT (R96). -/
  | act (f : Fields)
  /-- ACTN (R96). -/
  | actn (f : Fields)
  /-- WB (R98). -/
  | wb (f : Fields)
  /-- PRE (R98). -/
  | pre (f : Fields)
  /-- PREX (R98). -/
  | prex (f : Fields)
  /-- REF (R99). -/
  | ref (f : Fields)
  /-- REFA (R99). -/
  | refa (f : Fields)
  /-- RSTAT (R100). -/
  | rstat (f : Fields)
  /-- RPLACE (R101). -/
  | rplace (f : Fields)
  /-- SETVL (R119). -/
  | setvl (f : Fields)
  /-- SETCFG (R120). -/
  | setcfg (f : Fields)
  /-- VADD (R132). -/
  | vadd (f : Fields)
  /-- VSUB (R132). -/
  | vsub (f : Fields)
  /-- VRSUB (R132). -/
  | vrsub (f : Fields)
  /-- VMUL (R132). -/
  | vmul (f : Fields)
  /-- VMULH (R132). -/
  | vmulh (f : Fields)
  /-- VMACC (R132). -/
  | vmacc (f : Fields)
  /-- VADDS (R132). -/
  | vadds (f : Fields)
  /-- VADDSZ (R132). -/
  | vaddsz (f : Fields)
  /-- VSUBS (R132). -/
  | vsubs (f : Fields)
  /-- VSUBSZ (R132). -/
  | vsubsz (f : Fields)
  /-- VAVG (R132). -/
  | vavg (f : Fields)
  /-- VABSD (R132). -/
  | vabsd (f : Fields)
  /-- VMIN (R132). -/
  | vmin (f : Fields)
  /-- VMAX (R132). -/
  | vmax (f : Fields)
  /-- VMINZ (R132). -/
  | vminz (f : Fields)
  /-- VMAXZ (R132). -/
  | vmaxz (f : Fields)
  /-- VAND (R132). -/
  | vand (f : Fields)
  /-- VOR (R132). -/
  | vor (f : Fields)
  /-- VXOR (R132). -/
  | vxor (f : Fields)
  /-- VSLL (R132). -/
  | vsll (f : Fields)
  /-- VSRL (R132). -/
  | vsrl (f : Fields)
  /-- VSRA (R132). -/
  | vsra (f : Fields)
  /-- VNSRA (R133). -/
  | vnsra (f : Fields)
  /-- VWADD (R133). -/
  | vwadd (f : Fields)
  /-- VWMUL (R133). -/
  | vwmul (f : Fields)
  /-- VDOT4 (R133). -/
  | vdot4 (f : Fields)
  /-- VCMPEQ (R134). -/
  | vcmpeq (f : Fields)
  /-- VCMPNE (R134). -/
  | vcmpne (f : Fields)
  /-- VCMPLT (R134). -/
  | vcmplt (f : Fields)
  /-- VCMPLE (R134). -/
  | vcmple (f : Fields)
  /-- VCMPLTZ (R134). -/
  | vcmpltz (f : Fields)
  /-- VCMPLEZ (R134). -/
  | vcmplez (f : Fields)
  /-- VMERGE (R135). -/
  | vmerge (f : Fields)
  /-- VMOV (R135). -/
  | vmov (f : Fields)
  /-- VEXT (R135). -/
  | vext (f : Fields)
  /-- VINS (R135). -/
  | vins (f : Fields)
  /-- VREDSUM (R136). -/
  | vredsum (f : Fields)
  /-- VREDMIN (R136). -/
  | vredmin (f : Fields)
  /-- VREDMAX (R136). -/
  | vredmax (f : Fields)
  /-- VREDAND (R136). -/
  | vredand (f : Fields)
  /-- VREDOR (R136). -/
  | vredor (f : Fields)
  /-- VFADD (R139). -/
  | vfadd (f : Fields)
  /-- VFSUB (R139). -/
  | vfsub (f : Fields)
  /-- VFMUL (R139). -/
  | vfmul (f : Fields)
  /-- VFMA (R139). -/
  | vfma (f : Fields)
  /-- VFNMA (R139). -/
  | vfnma (f : Fields)
  /-- VFMIN (R139). -/
  | vfmin (f : Fields)
  /-- VFMAX (R139). -/
  | vfmax (f : Fields)
  /-- VFDIV (R139). -/
  | vfdiv (f : Fields)
  /-- VFSQRT (R139). -/
  | vfsqrt (f : Fields)
  /-- VFRCP (R139). -/
  | vfrcp (f : Fields)
  /-- VFRSQ (R139). -/
  | vfrsq (f : Fields)
  /-- VFEXP2 (R139). -/
  | vfexp2 (f : Fields)
  /-- VFCMPEQ (R139). -/
  | vfcmpeq (f : Fields)
  /-- VFCMPLT (R139). -/
  | vfcmplt (f : Fields)
  /-- VFCMPLE (R139). -/
  | vfcmple (f : Fields)
  /-- VFREDSUM (R137). -/
  | vfredsum (f : Fields)
  /-- VFREDMAX (R137). -/
  | vfredmax (f : Fields)
  /-- VFCLASS (R140). -/
  | vfclass (f : Fields)
  /-- VSLIDE (R141). -/
  | vslide (f : Fields)
  /-- VROT (R141). -/
  | vrot (f : Fields)
  /-- VPERM (R141). -/
  | vperm (f : Fields)
  /-- VCOMPRESS (R141). -/
  | vcompress (f : Fields)
  /-- VEXPAND (R141). -/
  | vexpand (f : Fields)
  /-- VIOTA (R141). -/
  | viota (f : Fields)
  /-- KAND (R142). -/
  | kand (f : Fields)
  /-- KOR (R142). -/
  | kor (f : Fields)
  /-- KXOR (R142). -/
  | kxor (f : Fields)
  /-- KNOT (R142). -/
  | knot (f : Fields)
  /-- KPOP (R142). -/
  | kpop (f : Fields)
  /-- KFIRST (R142). -/
  | kfirst (f : Fields)
  /-- KMOV (R142). -/
  | kmov (f : Fields)
  /-- KMOV_PM (R142). -/
  | kmovPm (f : Fields)
  /-- KMOV_ROW_TO_MASK (R142). -/
  | kmovRowToMask (f : Fields)
  /-- KMOV_MASK_TO_ROW (R142). -/
  | kmovMaskToRow (f : Fields)
  /-- VCKA (R143). -/
  | vcka (f : Fields)
  /-- CKCHK (R144). -/
  | ckchk (f : Fields)
  /-- PMCLR (R145). -/
  | pmclr (f : Fields)
  /-- VCVT (R164). -/
  | vcvt (f : Fields)
  /-- VCVTQ (R165). -/
  | vcvtq (f : Fields)
  /-- TCFG (R175). -/
  | tcfg (f : Fields)
  /-- TLD (R177). -/
  | tld (f : Fields)
  /-- TLD_EXPOSED (R177). -/
  | tldExposed (f : Fields)
  /-- MVM (R182). -/
  | mvm (f : Fields)
  /-- MVMZ (R182). -/
  | mvmz (f : Fields)
  /-- MVMW (R187). -/
  | mvmw (f : Fields)
  /-- ACRD (R189). -/
  | acrd (f : Fields)
  /-- ACLR (R190). -/
  | aclr (f : Fields)
  /-- ACKX (R191). -/
  | ackx (f : Fields)
  /-- TSTAT (R192). -/
  | tstat (f : Fields)
  /-- XPUT (R205). -/
  | xput (f : Fields)
  /-- XGET (R205). -/
  | xget (f : Fields)
  /-- XEXP (R203). -/
  | xexp (f : Fields)
  /-- XHIDE (R204). -/
  | xhide (f : Fields)
  /-- XTRW (R209). -/
  | xtrw (f : Fields)
  /-- XTRC (R209). -/
  | xtrc (f : Fields)
  /-- COPY (R213). -/
  | copy (f : Fields)
  /-- CTWAIT (R200). -/
  | ctwait (f : Fields)
  /-- CTFIND (R201). -/
  | ctfind (f : Fields)
  /-- VGLD (R218). -/
  | vgld (f : Fields)
  /-- VGST (R218). -/
  | vgst (f : Fields)
  /-- RADD (R263). -/
  | radd (f : Fields)
  /-- RSWAP (R263). -/
  | rswap (f : Fields)
  /-- RCAS (R263). -/
  | rcas (f : Fields)
  /-- RMAX (R263). -/
  | rmax (f : Fields)
  /-- RPUSH (R267). -/
  | rpush (f : Fields)
  /-- RGET (R263). -/
  | rget (f : Fields)
  /-- RPUT (R263). -/
  | rput (f : Fields)
  /-- RSYNC (R275). -/
  | rsync (f : Fields)
  /-- FENCE_FULL (R238). -/
  | fenceFull (f : Fields)
  /-- FENCE_ACQ (R238). -/
  | fenceAcq (f : Fields)
  /-- FENCE_REL (R238). -/
  | fenceRel (f : Fields)
  /-- FENCE_SV (R238). -/
  | fenceSv (f : Fields)
  /-- FENCE_VS (R238). -/
  | fenceVs (f : Fields)
  /-- FENCE_ROW (R238). -/
  | fenceRow (f : Fields)
  /-- AMO (R260). -/
  | amo (f : Fields)
  /-- SEMT (R281). -/
  | semt (f : Fields)
  /-- SEMC (R281). -/
  | semc (f : Fields)
  /-- SEMQ (R281). -/
  | semq (f : Fields)
  /-- BARA (R287). -/
  | bara (f : Fields)
  /-- BARW (R287). -/
  | barw (f : Fields)
  /-- BARAD (R287). -/
  | barad (f : Fields)
  /-- LKW (R289). -/
  | lkw (f : Fields)
  /-- WHOLD (R298). -/
  | whold (f : Fields)
  /-- WREL (R298). -/
  | wrel (f : Fields)
  /-- WREG (R298). -/
  | wreg (f : Fields)
  /-- WDONE (R298). -/
  | wdone (f : Fields)
  /-- QWAIT (R290). -/
  | qwait (f : Fields)
  /-- LDV (R249). -/
  | ldv (f : Fields)
  /-- VALID (R250). -/
  | valid (f : Fields)
  /-- CASV (R251). -/
  | casv (f : Fields)
  /-- LAUNCH (R306). -/
  | launch (f : Fields)
  /-- LWAIT (R308). -/
  | lwait (f : Fields)
  /-- LCANCEL (R309). -/
  | lcancel (f : Fields)
  /-- GPRED (R315). -/
  | gpred (f : Fields)
  /-- GJOIN (R315). -/
  | gjoin (f : Fields)
  /-- YIELD (R321). -/
  | yield (f : Fields)
  /-- NPRB (R346). -/
  | nprb (f : Fields)
  /-- NPRE (R346). -/
  | npre (f : Fields)
  /-- TRAP (R334). -/
  | trap (f : Fields)
  /-- RETT (R333). -/
  | rett (f : Fields)
  /-- TLBI_VA (R370). -/
  | tlbiVa (f : Fields)
  /-- TLBI_ASID (R370). -/
  | tlbiAsid (f : Fields)
  /-- TLBI_ALL (R370). -/
  | tlbiAll (f : Fields)
  /-- JRECV (R324). -/
  | jrecv (f : Fields)
  /-- HEXIT (R311). -/
  | hexit (f : Fields)
  /-- WFI (R335). -/
  | wfi (f : Fields)
  /-- TSTAMP (R336). -/
  | tstamp (f : Fields)
  /-- CTXSAVE (R350). -/
  | ctxsave (f : Fields)
  /-- CTXRST (R351). -/
  | ctxrst (f : Fields)
  /-- PENDING_TRAP_TAKEN (R328). -/
  | pendingTrapTaken
  /-- MANAGEMENT_INTERRUPT (R394). -/
  | managementInterrupt
  /-- CAIRN_RESET (R395). -/
  | cairnReset
  /-- POWER_ON (R415). -/
  | powerOn
  /-- MODULE_RESET (R415). -/
  | moduleReset
  /-- DEBT_INCREMENT (R108). -/
  | debtIncrement
  /-- FORCED_REFRESH (R110). -/
  | forcedRefresh
  /-- REFRESH_ENGINE_REFRESH (R107). -/
  | refreshEngineRefresh
  /-- BAND_FALL (R106). -/
  | bandFall
  /-- SCOREBOARD_ACTIVATION_GRANT (R104). -/
  | scoreboardActivationGrant
  /-- MC_GROUP_CLOSE (R31). -/
  | mcGroupClose
  /-- SLICE_BUS_RETIREMENT (R219). -/
  | sliceBusRetirement
  /-- CHANNEL_READ (R254). -/
  | channelRead
  /-- CHANNEL_MASKED_WRITE (R256). -/
  | channelMaskedWrite
  /-- CHANNEL_REFUSED_OPC (R254). -/
  | channelRefusedOpc
  /-- CHANNEL_REPLY (R255). -/
  | channelReply
  /-- TRANSFER_COMPLETE (R199). -/
  | transferComplete
  /-- TRANSFER_FAIL (R199). -/
  | transferFail
  /-- COPY_CHUNK_PERFORMED (R216). -/
  | copyChunkPerformed
  /-- REMOTE_REQUEST_RECEIVED (R272). -/
  | remoteRequestReceived
  /-- REMOTE_RESPONSE_RECEIVED (R271). -/
  | remoteResponseReceived
  /-- RETRANSMISSION_TIMER (R271). -/
  | retransmissionTimer
  /-- FLOOR_BEACON_TIMER (R274). -/
  | floorBeaconTimer
  /-- FLOOR_BEACON_RECEIVED (R272). -/
  | floorBeaconReceived
  /-- BEACON_ACK_RECEIVED (R274). -/
  | beaconAckReceived
  /-- INCARNATION_PROBE_RECEIVED (R272). -/
  | incarnationProbeReceived
  /-- PROBE_ANSWER_RECEIVED (R273). -/
  | probeAnswerReceived
  /-- TALUS_RECORD_EXPIRY (R272). -/
  | talusRecordExpiry
  /-- COPY_READ_REQUEST_RECEIVED (R410). -/
  | copyReadRequestReceived
  /-- COPY_DATA_AT_OWNER (R410). -/
  | copyDataAtOwner
  /-- COPY_DATA_AT_REQUESTER (R410). -/
  | copyDataAtRequester
  /-- COPY_ACKNOWLEDGEMENT_RECEIVED (R410). -/
  | copyAcknowledgementReceived
  /-- COPY_CHUNK_RETRANSMIT (R410). -/
  | copyChunkRetransmit
  /-- EFPO_PACKET_DROPPED (R407). -/
  | efpoPacketDropped
  /-- EFPO_LINK_CHANGE (R408). -/
  | efpoLinkChange
  /-- TIME_SYNC_EXCHANGE (R413). -/
  | timeSyncExchange
  /-- TIME_SYNC_ANSWER (R411). -/
  | timeSyncAnswer
  /-- TSYNC_LOSS (R413). -/
  | tsyncLoss
  /-- PACE_REQUEST (R390). -/
  | paceRequest
  /-- PACE_REQUEST_RECEIVED (R390). -/
  | paceRequestReceived
  /-- PACE_FALL_DWELL (R390). -/
  | paceFallDwell
  /-- PACE_AGREEMENT_RECEIVED (R390). -/
  | paceAgreementReceived
  /-- PACE_AGREEMENT_APPLY (R390). -/
  | paceAgreementApply
  /-- PACE_ACK_RECEIVED (R392). -/
  | paceAckReceived
  /-- PACE_AGREEMENT_RESEND (R392). -/
  | paceAgreementResend
  /-- PACE_MEMBER_SILENT (R392). -/
  | paceMemberSilent
  /-- PACE_COORDINATOR_SILENT (R392). -/
  | paceCoordinatorSilent
  /-- SENSOR_SAMPLE (R380). -/
  | sensorSample
  /-- OBSERVER_TICK (R384). -/
  | observerTick
  /-- POWER_ESTIMATE (R385). -/
  | powerEstimate
  /-- PEAK_CLAMP_END (R385). -/
  | peakClampEnd
  /-- GOV_RISE (R385). -/
  | govRise
  /-- GOV_FALL (R385). -/
  | govFall
  /-- PERMIT_BOUNDARY (R387). -/
  | permitBoundary
  /-- MONITOR_SAMPLE (R398). -/
  | monitorSample
  /-- LAUNCH_ADMISSION (R307). -/
  | launchAdmission
  /-- LAUNCH_PREDECESSOR_CANCEL (R307). -/
  | launchPredecessorCancel
  /-- CANCELLED_HART_STOP (R310). -/
  | cancelledHartStop
  /-- LAUNCH_REPLAY (R354). -/
  | launchReplay
  /-- CONTEXT_DISPATCH (R318). -/
  | contextDispatch
  /-- YIELD_REQUEST (R318). -/
  | yieldRequest
  /-- FORCED_SAVE (R339). -/
  | forcedSave
  /-- REGION_OVERRUN (R346). -/
  | regionOverrun
  /-- BARRIER_DESTROYED (R284). -/
  | barrierDestroyed
  /-- ROCE_SEND (R405). -/
  | roceSend
  /-- ROCE_RDMA_WRITE (R404). -/
  | roceRdmaWrite
  /-- ROCE_RDMA_READ (R406). -/
  | roceRdmaRead
  /-- ROCE_UNSUPPORTED (R401). -/
  | roceUnsupported
  /-- ROCE_ICRC_FAIL (R401). -/
  | roceIcrcFail
  /-- HOST_FRAME_OTHER (R400). -/
  | hostFrameOther
  /-- CNP_RECEIVED (R401). -/
  | cnpReceived
  /-- READ_RATE_RAISE (R401). -/
  | readRateRaise
  /-- PGFLUSH_WRITE (R226). -/
  | pgflushWrite
  /-- PGFLUSH_DONE (R226). -/
  | pgflushDone
  /-- PUBFORCE_CLEAR (R226). -/
  | pubforceClear
  /-- PREEMPT_REQUEST (R342). -/
  | preemptRequest
  /-- PREEMPT_MIGRATE (R393). -/
  | preemptMigrate
  /-- COUNTER_CLEAR (R277). -/
  | counterClear
  /-- ATTESTATION_REQUEST (R419). -/
  | attestationRequest
  /-- ATTESTATION_DONE (R419). -/
  | attestationDone
  /-- FEATLOCK_WRITE (R421). -/
  | featlockWrite
  /-- FACC_WRITE (R421). -/
  | faccWrite
  /-- EFDEVID_WRITE (R412). -/
  | efdevidWrite
  /-- SENSOR_READMIT (R380). -/
  | sensorReadmit
  /-- SENSOR_MARK_FAILED (R380). -/
  | sensorMarkFailed
  /-- ALARM_CLEAR (R380). -/
  | alarmClear
  /-- MIP_CLEAR (R394). -/
  | mipClear
  /-- LOGIDX_APPEND (R396). -/
  | logidxAppend
  /-- MONITOR_CLEAR (R397). -/
  | monitorClear
  /-- PERMCFG_DROP (R386). -/
  | permcfgDrop
  /-- ISLTHR_WRITE (R374). -/
  | islthrWrite
  /-- SEMBITS_WRITE (R279). -/
  | sembitsWrite
  /-- CTB_WRITE (R199). -/
  | ctbWrite
  /-- TCFG_WRITE (R174). -/
  | tcfgWrite
  /-- VCFG_WRITE (R117). -/
  | vcfgWrite
  /-- VL_WRITE (R58). -/
  | vlWrite
  /-- LCLASS_WRITE (R344). -/
  | lclassWrite
  /-- PRIO_WRITE (R322). -/
  | prioWrite
  /-- SERIAL_REGISTER_WRITE (R268). -/
  | serialRegisterWrite
  /-- REGISTER_WRITE (R80). -/
  | registerWrite
  /-- UNCORRECTABLE_STATE_ERROR (R356). -/
  | uncorrectableStateError
  /-- PAUSE_FRAME_RECEIVED (R400). -/
  | pauseFrameReceived
  /-- HOST_PORT_LINK_CHANGE (R402). -/
  | hostPortLinkChange
  deriving DecidableEq, Repr, Inhabited

end Sys2Proof
end

