-- ==== Sys2Proof/Machine/FieldRules.lean ====
section
/-! DEFINITION. The field rules of every full word (R43-R47 and each instruction's entry), the harts that may issue it
(R24, R25) and the feature that gates it (R420). The decoder's checks of R55 and R56 are made from these tables. -/

namespace Sys2Proof

/-- The kinds of front end that issue instructions (R14, R24, R25). -/
inductive HartKind where
  | tower
  | control
  | cairn
  deriving DecidableEq, Repr, Inhabited

/-- What a register field may name (R44, R45). `any` is a field that no check reads. -/
inductive FieldKind where
  | zero
  | scalar
  | row
  | mask
  | maskDst
  | acc
  | tile
  | tileOrAcc
  | any
  deriving DecidableEq, Repr

/-- Whether field value `v` is one the kind allows (R44). -/
def FieldKind.accepts (k : FieldKind) (v : BitVec 6) : Bool :=
  match k with
  | .zero => v = 0
  | .scalar => v.toNat < 32
  | .row => 32 ≤ v.toNat && v.toNat < 48
  | .mask => 48 ≤ v.toNat && v.toNat < 56
  | .maskDst => 48 < v.toNat && v.toNat < 56
  | .acc => 56 ≤ v.toNat && v.toNat < 60
  | .tile => 60 ≤ v.toNat
  | .tileOrAcc => 56 ≤ v.toNat
  | .any => true

/-- Whether the entry uses the field to name a register (R24). -/
def FieldKind.names (k : FieldKind) : Bool := k != .zero && k != .any

/-- The rule of one accepted FORM: what D, A and B may name, whether a mask and MZ are taken, whether the rest of the
entry's conditions on D, A and B hold, and whether IMM28 is legal. -/
structure Rule where
  d : FieldKind
  a : FieldKind
  b : FieldKind
  imm : Bool
  mask : Bool := false
  mz : Bool := false
  dOk : Bool := true
  aOk : Bool := true
  bOk : Bool := true
  deriving DecidableEq, Repr

/-- IMM28 as a number. -/
def Fields.immN (f : Fields) : Nat := f.imm.toNat

/-- IMM28 subfield of `n` bits from bit `lo`. -/
def Fields.sub (f : Fields) (lo n : Nat) : Nat := fld f.imm.toNat lo n

/-- All of IMM28 reserved (R47). -/
def Fields.immZero (f : Fields) : Bool := f.imm = 0

/-- Only the low `n` bits of IMM28 may be set. -/
def Fields.immBelow (f : Fields) (n : Nat) : Bool := f.immN < 2 ^ n

/-- RM in IMM28[2:0] of a rounding class 3 instruction (R138): 5 and 6 and a set bit above are refused. -/
def Fields.immRm (f : Fields) : Bool := f.immBelow 3 && f.immN != 5 && f.immN != 6

/-- The integer binary operations of class 0 (R75, R76). -/
def ruleBinary (f : Fields) (shift : Bool) : Option Rule :=
  match f.form.toNat with
  | 0 => some { d := .scalar, a := .scalar, b := .scalar, imm := f.immZero }
  | 2 => some { d := .scalar, a := .scalar, b := .zero, imm := !shift || f.immBelow 6 }
  | _ => none

/-- One accepted FORM with no mask. -/
def ruleOne (f : Fields) (form : Nat) (d a b : FieldKind) (imm : Bool) : Option Rule :=
  if f.form.toNat = form then some { d := d, a := a, b := b, imm := imm } else none

/-- The element-wise integer instructions and compares (R132, R134): `d` is a row or a mask destination. -/
def ruleElem (f : Fields) (d : FieldKind) (mz : Bool := true) : Option Rule :=
  match f.form.toNat with
  | 0 => some { d := d, a := .row, b := .row, imm := f.immZero, mask := true, mz := mz }
  | 1 => some { d := d, a := .row, b := .scalar, imm := f.immZero, mask := true, mz := mz }
  | 2 => some { d := d, a := .row, b := .zero, imm := true, mask := true, mz := mz }
  | _ => none

/-- FORM 0b00 and 0b01 with a mask: FP arithmetic (R138, R139), vdot4 and the reductions (R133, R136). -/
def ruleVV (f : Fields) (d : FieldKind) (imm : Bool) (mz : Bool := true) : Option Rule :=
  match f.form.toNat with
  | 0 => some { d := d, a := .row, b := .row, imm := imm, mask := true, mz := mz }
  | 1 => some { d := d, a := .row, b := .scalar, imm := imm, mask := true, mz := mz }
  | _ => none

/-- FORM 0b00 with B = 0 and a mask (R139, R141). -/
def ruleUnary (f : Fields) (a : FieldKind) (imm : Bool) : Option Rule :=
  if f.form.toNat = 0 then some { d := .row, a := a, b := .zero, imm := imm, mask := true, mz := true } else none

/-- Slides and rotates (R141). -/
def ruleSlide (f : Fields) : Option Rule :=
  match f.form.toNat with
  | 1 => some { d := .row, a := .row, b := .scalar, imm := f.immZero, mask := true, mz := true }
  | 2 => some { d := .row, a := .row, b := .zero, imm := true, mask := true, mz := true }
  | _ => none

/-- vext and vins (R135). -/
def ruleExt (f : Fields) (d a : FieldKind) : Option Rule :=
  match f.form.toNat with
  | 1 => some { d := d, a := a, b := .scalar, imm := f.immZero }
  | 2 => some { d := d, a := a, b := .zero, imm := f.immBelow 16 }
  | _ => none

/-- semt, semc and semq (R281). -/
def ruleSem (f : Fields) (d : FieldKind) : Option Rule :=
  match f.form.toNat with
  | 0 => some { d := d, a := .scalar, b := .zero, imm := f.immZero }
  | 2 => some { d := d, a := .zero, b := .zero, imm := f.immBelow 6 }
  | _ => none

/-- The decode checks on a barrier designator and CNT (R285). `wait` is barw. -/
def barImm (f : Fields) (wait : Bool) : Bool :=
  let cnt := f.sub 20 5
  let kind := f.sub 18 2
  f.sub 25 3 = 0 && cnt ≤ 16 && (!wait || cnt = 0) &&
    (if f.form.toNat = 0 then f.sub 0 20 = 0
     else kind ≤ 1 && (kind != 0 || f.sub 3 15 = 0) && (wait || (if kind = 0 then cnt != 0 else cnt = 0)))

/-- bara, barw and barad (R285). -/
def ruleBar (f : Fields) (d b : FieldKind) (wait : Bool) : Option Rule :=
  match f.form.toNat with
  | 0 => some { d := d, a := .scalar, b := b, imm := barImm f wait }
  | 2 => some { d := d, a := .zero, b := b, imm := barImm f wait }
  | _ => none

/-- The remote operations (R263). -/
def ruleRemote (f : Fields) (d b : FieldKind) (uOk push : Bool) : Option Rule :=
  ruleOne f 3 d .scalar b (f.sub 14 14 = 0 && (uOk || f.sub 13 1 = 0) && 2 ≤ f.sub 11 2 && (!push || f.sub 11 2 = 3))

/-- fence (R237). -/
def ruleFence (f : Fields) : Option Rule :=
  ruleOne f 3 .zero .zero .zero
    (f.sub 6 22 = 0 && f.sub 0 3 ≤ 5 && f.sub 3 3 ≤ 4 && (!(f.sub 0 3 = 3 || f.sub 0 3 = 4) || f.sub 3 3 = 0))

/-- tlbi (R369): which of A and B a KIND uses. -/
def ruleTlbi (f : Fields) : Option Rule :=
  match f.sub 0 2 with
  | 0 => ruleOne f 3 .zero .scalar .scalar (f.sub 2 26 = 0)
  | 1 => ruleOne f 3 .zero .zero .scalar (f.sub 2 26 = 0)
  | 2 => ruleOne f 3 .zero .zero .zero (f.sub 2 26 = 0)
  | _ => ruleOne f 3 .zero .any .any false

/-- kmov in all its forms (R142). -/
def ruleKmov (f : Fields) : Option Rule :=
  match f.form.toNat with
  | 0 => some { d := .maskDst, a := .mask, b := .zero, imm := f.immZero }
  | 3 =>
    match f.sub 0 2 with
    | 0 => some { d := .maskDst, a := .zero, b := .zero, imm := f.immBelow 2 }
    | 1 => some { d := .maskDst, a := .row, b := .zero, imm := f.immBelow 2 }
    | 2 => some { d := .row, a := .mask, b := .zero, imm := f.immBelow 2 }
    | _ => some { d := .any, a := .any, b := .zero, imm := false }
  | _ => none

/-- tld in both forms (R177). -/
def ruleTld (f : Fields) : Option Rule :=
  match f.form.toNat with
  | 0 => some { d := .tile, a := .row, b := .zero, imm := f.immZero }
  | 3 => some { d := .tile, a := .zero, b := .zero, imm := f.immBelow 16 }
  | _ => none

/-- SZ and SX of a load or store (R81). -/
def memImm (f : Fields) (store : Bool) : Bool := f.sub 25 1 = 0 || (!store && f.sub 26 2 != 3)

/-- The rule of an instruction under its FORM: `none` is a FORM the entry does not accept (R43), or no full word. -/
def ruleOf (i : Instr) : Option Rule :=
  match i with
  | .nop f => ruleOne f 0 .zero .zero .zero f.immZero
  | .add f => ruleBinary f false
  | .sub f => ruleBinary f false
  | .and f => ruleBinary f false
  | .or f => ruleBinary f false
  | .xor f => ruleBinary f false
  | .slt f => ruleBinary f false
  | .sltz f => ruleBinary f false
  | .mul f => ruleBinary f false
  | .mulh f => ruleBinary f false
  | .mulhz f => ruleBinary f false
  | .div f => ruleBinary f false
  | .divz f => ruleBinary f false
  | .rem f => ruleBinary f false
  | .remz f => ruleBinary f false
  | .min f => ruleBinary f false
  | .max f => ruleBinary f false
  | .minz f => ruleBinary f false
  | .maxz f => ruleBinary f false
  | .sel f => ruleBinary f false
  | .sll f => ruleBinary f true
  | .srl f => ruleBinary f true
  | .sra f => ruleBinary f true
  | .clz f => ruleOne f 0 .scalar .scalar .zero f.immZero
  | .ctz f => ruleOne f 0 .scalar .scalar .zero f.immZero
  | .pop f => ruleOne f 0 .scalar .scalar .zero f.immZero
  | .bext f => if f.form.toNat = 2 then ruleOne f 2 .scalar .scalar .zero (f.immBelow 14) else ruleOne f 0 .scalar .scalar .scalar f.immZero
  | .bins f => if f.form.toNat = 2 then ruleOne f 2 .scalar .scalar .zero (f.immBelow 13) else ruleOne f 0 .scalar .scalar .scalar f.immZero
  | .lih f => ruleOne f 2 .scalar .scalar .zero true
  | .li f => ruleOne f 2 .scalar .zero .zero true
  | .adr f => ruleOne f 2 .scalar .zero .zero true
  | .crr f => ruleOne f 2 .scalar .zero .zero (f.immBelow 12)
  | .crw f => ruleOne f 2 .scalar .scalar .zero (f.immBelow 12)
  | .crs f => ruleOne f 2 .scalar .scalar .zero (f.immBelow 12)
  | .crc f => ruleOne f 2 .scalar .scalar .zero (f.immBelow 12)
  | .ld f => ruleOne f 2 .scalar .scalar .zero (memImm f false)
  | .st f => ruleOne f 2 .scalar .scalar .zero (memImm f true)
  | .lda f => ruleOne f 2 .scalar .scalar .zero (memImm f false && f.sub 22 3 ≤ 4)
  | .stl f => ruleOne f 2 .scalar .scalar .zero (memImm f true && f.sub 22 3 ≤ 4)
  | .pf f => ruleOne f 2 .zero .scalar .zero (f.sub 25 1 = 0)
  | .bCond f => ruleOne f 3 .zero .scalar (if f.sub 24 4 < 6 then .scalar else if f.sub 24 4 < 8 then .zero else .any) (f.sub 24 4 < 8)
  | .j f => ruleOne f 2 .zero .zero .zero true
  | .jl f => ruleOne f 2 .scalar .zero .zero true
  | .jr f => ruleOne f 2 .scalar .scalar .zero true
  | .smb f => (ruleOne f 3 .scalar .scalar .zero (f.sub 24 2 = 0)).map (fun r => { r with
      dOk := !(f.a.toNat ≤ f.d.toNat && f.d.toNat ≤ f.a.toNat + f.sub 26 2), aOk := f.a != 0 && f.a.toNat + f.sub 26 2 ≤ 31 })
  | .bk f => ruleOne f 3 .zero .mask .zero (f.sub 24 2 = 0 && f.sub 26 2 != 3)
  | .bt f => ruleOne f 3 .zero .zero .zero true
  | .act f => ruleOne f 2 .row .scalar .zero true
  | .actn f => ruleOne f 2 .row .scalar .zero true
  | .wb f => ruleOne f 0 .row .zero .zero f.immZero
  | .pre f => ruleOne f 0 .row .zero .zero f.immZero
  | .prex f => ruleOne f 0 .row .zero .zero f.immZero
  | .ref f => ruleOne f 0 .row .zero .zero f.immZero
  | .refa f => ruleOne f 0 .zero .zero .zero f.immZero
  | .rstat f => ruleOne f 0 .scalar .row .zero f.immZero
  | .rplace f => ruleOne f 0 .scalar .row .zero f.immZero
  | .setvl f => if f.form.toNat = 2 then ruleOne f 2 .scalar .zero .zero true else ruleOne f 0 .scalar .scalar .zero f.immZero
  | .setcfg f => if f.form.toNat = 2 then ruleOne f 2 .scalar .zero .zero (f.immBelow 12) else ruleOne f 0 .scalar .scalar .zero f.immZero
  | .vadd f => ruleElem f .row
  | .vsub f => ruleElem f .row
  | .vrsub f => ruleElem f .row
  | .vmul f => ruleElem f .row
  | .vmulh f => ruleElem f .row
  | .vmacc f => ruleElem f .row
  | .vadds f => ruleElem f .row
  | .vaddsz f => ruleElem f .row
  | .vsubs f => ruleElem f .row
  | .vsubsz f => ruleElem f .row
  | .vavg f => ruleElem f .row
  | .vabsd f => ruleElem f .row
  | .vmin f => ruleElem f .row
  | .vmax f => ruleElem f .row
  | .vminz f => ruleElem f .row
  | .vmaxz f => ruleElem f .row
  | .vand f => ruleElem f .row
  | .vor f => ruleElem f .row
  | .vxor f => ruleElem f .row
  | .vsll f => ruleElem f .row
  | .vsrl f => ruleElem f .row
  | .vsra f => ruleElem f .row
  | .vnsra f => ruleElem f .row
  | .vwadd f => ruleElem f .row
  | .vwmul f => ruleElem f .row
  | .vdot4 f => ruleVV f .row f.immZero
  | .vcmpeq f => ruleElem f .maskDst
  | .vcmpne f => ruleElem f .maskDst
  | .vcmplt f => ruleElem f .maskDst
  | .vcmple f => ruleElem f .maskDst
  | .vcmpltz f => ruleElem f .maskDst
  | .vcmplez f => ruleElem f .maskDst
  | .vmerge f => ruleElem f .row false
  | .vmov f => match f.form.toNat with
    | 0 => some { d := .row, a := .row, b := .zero, imm := f.immZero, mask := true, mz := true }
    | 1 => some { d := .row, a := .zero, b := .scalar, imm := f.immZero, mask := true, mz := true }
    | 2 => some { d := .row, a := .zero, b := .zero, imm := true, mask := true, mz := true }
    | _ => none
  | .vext f => ruleExt f .scalar .row
  | .vins f => ruleExt f .row .scalar
  | .vredsum f => ruleVV f .row f.immZero false
  | .vredmin f => ruleVV f .row f.immZero false
  | .vredmax f => ruleVV f .row f.immZero false
  | .vredand f => ruleVV f .row f.immZero false
  | .vredor f => ruleVV f .row f.immZero false
  | .vfredmax f => ruleVV f .row f.immZero false
  | .vfredsum f => ruleVV f .row f.immRm false
  | .vfadd f => ruleVV f .row f.immRm
  | .vfsub f => ruleVV f .row f.immRm
  | .vfmul f => ruleVV f .row f.immRm
  | .vfma f => ruleVV f .row f.immRm
  | .vfnma f => ruleVV f .row f.immRm
  | .vfdiv f => ruleVV f .row f.immRm
  | .vfmin f => ruleVV f .row f.immZero
  | .vfmax f => ruleVV f .row f.immZero
  | .vfsqrt f => ruleUnary f .row f.immRm
  | .vfrcp f => ruleUnary f .row f.immRm
  | .vfrsq f => ruleUnary f .row f.immRm
  | .vfexp2 f => ruleUnary f .row f.immRm
  | .vfcmpeq f => ruleVV f .maskDst f.immZero
  | .vfcmplt f => ruleVV f .maskDst f.immZero
  | .vfcmple f => ruleVV f .maskDst f.immZero
  | .vfclass f => ruleUnary f .row f.immZero
  | .vcompress f => ruleUnary f .row f.immZero
  | .vexpand f => ruleUnary f .row f.immZero
  | .vslide f => ruleSlide f
  | .vrot f => ruleSlide f
  | .vperm f => if f.form.toNat = 0 then some { d := .row, a := .row, b := .row, imm := f.immZero, mask := true, mz := true } else none
  | .viota f => ruleUnary f .mask f.immZero
  | .kand f => ruleOne f 0 .maskDst .mask .mask f.immZero
  | .kor f => ruleOne f 0 .maskDst .mask .mask f.immZero
  | .kxor f => ruleOne f 0 .maskDst .mask .mask f.immZero
  | .knot f => ruleOne f 0 .maskDst .mask .zero f.immZero
  | .kpop f => ruleOne f 0 .scalar .mask .zero f.immZero
  | .kfirst f => ruleOne f 0 .scalar .mask .zero f.immZero
  | .kmov f => ruleKmov f
  | .kmovPm f => ruleKmov f
  | .kmovRowToMask f => ruleKmov f
  | .kmovMaskToRow f => ruleKmov f
  | .vcka f => if f.form.toNat = 0 then some { d := .zero, a := .row, b := .zero, imm := f.immBelow 3, mask := true } else none
  | .ckchk f => ruleOne f 3 .scalar .zero .zero (f.immBelow 6)
  | .pmclr f => ruleOne f 0 .zero .mask .zero f.immZero
  | .vcvt f => if f.form.toNat = 3 then some { d := .row, a := .row, b := .zero, imm := f.immBelow 16 && f.sub 12 3 != 5 && f.sub 12 3 != 6, mask := true, mz := true } else none
  | .vcvtq f => if f.form.toNat = 1 then some { d := .row, a := .row, b := .scalar, imm := f.immBelow 16 && f.sub 12 3 != 5 && f.sub 12 3 != 6 && f.sub 0 6 = 0, mask := true, mz := true } else none
  | .tcfg f => ruleOne f 0 .tile .scalar .zero f.immZero
  | .tld f => ruleTld f
  | .tldExposed f => ruleTld f
  | .mvm f => ruleOne f 0 .acc .row .tile true
  | .mvmz f => ruleOne f 0 .acc .row .tile true
  | .mvmw f => ruleOne f 3 .acc .row .tile (f.immBelow 10)
  | .acrd f => ruleOne f 3 .row .acc .zero (f.immBelow 24 && f.sub 6 3 != 5 && f.sub 6 3 != 6)
  | .aclr f => ruleOne f 0 .acc .zero .zero f.immZero
  | .ackx f => ruleOne f 0 .zero .acc .zero (f.immBelow 3)
  | .tstat f => ruleOne f 0 .scalar .tileOrAcc .zero f.immZero
  | .xput f => ruleOne f 3 .zero .row .scalar (f.immBelow 25 && f.sub 22 3 ≤ 4)
  | .xget f => ruleOne f 3 .row .zero .scalar (f.immBelow 25 && f.sub 22 3 ≤ 4)
  | .xexp f => ruleOne f 3 .zero .row .zero (f.immBelow 18 && f.sub 16 2 != 0)
  | .xhide f => ruleOne f 3 .zero .zero .zero (f.immBelow 16)
  | .xtrw f => ruleOne f 3 .zero .row .zero (f.immBelow 1)
  | .xtrc f => ruleOne f 3 .row .zero .zero (f.immBelow 4)
  | .copy f => ruleOne f 3 .scalar .scalar .scalar (f.immBelow 13 && f.sub 6 3 ≤ 4 && (if f.sub 9 1 = 0 then f.sub 10 3 = 0 else f.sub 10 3 != 0))
  | .ctwait f => ruleOne f 3 .scalar .scalar .zero (f.immBelow 2)
  | .ctfind f => ruleOne f 3 .scalar .scalar .zero (f.immBelow 2 && f.sub 0 1 = 0)
  | .vgld f => if f.form.toNat = 1 then some { d := .row, a := .row, b := .scalar, imm := f.immBelow 1, mask := true, mz := true } else none
  | .vgst f => if f.form.toNat = 1 then some { d := .row, a := .row, b := .scalar, imm := f.immBelow 1, mask := true } else none
  | .radd f => ruleRemote f .scalar .scalar false false
  | .rswap f => ruleRemote f .scalar .scalar false false
  | .rcas f => ruleRemote f .scalar .scalar false false
  | .rmax f => ruleRemote f .scalar .scalar true false
  | .rpush f => ruleRemote f .scalar .scalar false true
  | .rget f => ruleRemote f .scalar .zero false false
  | .rput f => ruleRemote f .zero .scalar false false
  | .rsync f => ruleOne f 3 .zero .zero .zero f.immZero
  | .fenceFull f => ruleFence f
  | .fenceAcq f => ruleFence f
  | .fenceRel f => ruleFence f
  | .fenceSv f => ruleFence f
  | .fenceVs f => ruleFence f
  | .fenceRow f => ruleFence f
  | .amo f => ruleOne f 3 .scalar .scalar .scalar (f.sub 27 1 = 0 && f.sub 23 4 ≤ 9 && 2 ≤ f.sub 21 2 && f.sub 18 3 ≤ 4)
  | .semt f => ruleSem f .zero
  | .semc f => ruleSem f .zero
  | .semq f => ruleSem f .scalar
  | .bara f => ruleBar f .scalar .zero false
  | .barad f => ruleBar f .scalar .zero false
  | .barw f => ruleBar f .zero .scalar true
  | .lkw f => ruleOne f 3 .zero .scalar .zero (f.immBelow 22)
  | .whold f => ruleOne f 3 .zero .scalar .zero (f.immBelow 4 && f.sub 0 4 ≤ 6)
  | .wrel f => ruleOne f 3 .zero .scalar .zero (f.immBelow 4 && f.sub 0 4 ≤ 6)
  | .wreg f => ruleOne f 3 .zero .scalar .zero (f.immBelow 4 && f.sub 0 4 ≤ 6)
  | .wdone f => ruleOne f 3 .zero .zero .zero f.immZero
  | .qwait f => ruleOne f 3 .scalar .scalar .zero (f.immBelow 23)
  | .ldv f => (ruleOne f 3 .scalar .scalar .scalar (f.sub 22 5 = 0)).map (fun r => { r with
      aOk := f.a != 0, bOk := f.d != f.b || f.d = 0 })
  | .valid f => ruleOne f 0 .scalar .zero .zero f.immZero
  | .casv f => (ruleOne f 3 .scalar .scalar .scalar (f.immBelow 22)).map (fun r => { r with aOk := f.a != 0 })
  | .launch f => ruleOne f 0 .scalar .scalar .zero f.immZero
  | .lwait f => ruleOne f 3 .scalar .scalar .zero (f.immBelow 2)
  | .lcancel f => ruleOne f 3 .scalar .scalar .zero (f.immBelow 2)
  | .gpred f => ruleOne f 3 .zero .scalar .zero f.immZero
  | .hexit f => ruleOne f 3 .zero .scalar .zero f.immZero
  | .gjoin f => ruleOne f 3 .zero .zero .zero f.immZero
  | .yield f => ruleOne f 3 .zero .zero .zero f.immZero
  | .nprb f => ruleOne f 3 .zero .zero .zero f.immZero
  | .npre f => ruleOne f 3 .zero .zero .zero f.immZero
  | .rett f => ruleOne f 3 .zero .zero .zero f.immZero
  | .wfi f => ruleOne f 3 .zero .zero .zero f.immZero
  | .trap f => ruleOne f 2 .zero .scalar .zero (f.immBelow 4)
  | .tlbiVa f => ruleTlbi f
  | .tlbiAsid f => ruleTlbi f
  | .tlbiAll f => ruleTlbi f
  | .jrecv f => ruleOne f 3 .scalar .scalar .zero (f.immBelow 1)
  | .tstamp f => ruleOne f 3 .scalar .zero .zero f.immZero
  | .ctxsave f => ruleOne f 3 .zero .zero .zero (f.immBelow 1)
  | .ctxrst f => ruleOne f 0 .scalar .scalar .scalar f.immZero
  | .pairWord _ => none
  | .illegalInstruction _ => none
  | .pendingTrapTaken => none
  | .managementInterrupt => none
  | .cairnReset => none
  | .powerOn => none
  | .moduleReset => none
  | .debtIncrement => none
  | .forcedRefresh => none
  | .refreshEngineRefresh => none
  | .bandFall => none
  | .scoreboardActivationGrant => none
  | .mcGroupClose => none
  | .sliceBusRetirement => none
  | .channelRead => none
  | .channelMaskedWrite => none
  | .channelRefusedOpc => none
  | .channelReply => none
  | .transferComplete => none
  | .transferFail => none
  | .copyChunkPerformed => none
  | .remoteRequestReceived => none
  | .remoteResponseReceived => none
  | .retransmissionTimer => none
  | .floorBeaconTimer => none
  | .floorBeaconReceived => none
  | .beaconAckReceived => none
  | .incarnationProbeReceived => none
  | .probeAnswerReceived => none
  | .talusRecordExpiry => none
  | .copyReadRequestReceived => none
  | .copyDataAtOwner => none
  | .copyDataAtRequester => none
  | .copyAcknowledgementReceived => none
  | .copyChunkRetransmit => none
  | .efpoPacketDropped => none
  | .efpoLinkChange => none
  | .timeSyncExchange => none
  | .timeSyncAnswer => none
  | .tsyncLoss => none
  | .paceRequest => none
  | .paceRequestReceived => none
  | .paceFallDwell => none
  | .paceAgreementReceived => none
  | .paceAgreementApply => none
  | .paceAckReceived => none
  | .paceAgreementResend => none
  | .paceMemberSilent => none
  | .paceCoordinatorSilent => none
  | .sensorSample => none
  | .observerTick => none
  | .powerEstimate => none
  | .peakClampEnd => none
  | .govRise => none
  | .govFall => none
  | .permitBoundary => none
  | .monitorSample => none
  | .launchAdmission => none
  | .launchPredecessorCancel => none
  | .cancelledHartStop => none
  | .launchReplay => none
  | .contextDispatch => none
  | .yieldRequest => none
  | .forcedSave => none
  | .regionOverrun => none
  | .barrierDestroyed => none
  | .roceSend => none
  | .roceRdmaWrite => none
  | .roceRdmaRead => none
  | .roceUnsupported => none
  | .roceIcrcFail => none
  | .hostFrameOther => none
  | .cnpReceived => none
  | .readRateRaise => none
  | .pgflushWrite => none
  | .pgflushDone => none
  | .pubforceClear => none
  | .preemptRequest => none
  | .preemptMigrate => none
  | .counterClear => none
  | .attestationRequest => none
  | .attestationDone => none
  | .featlockWrite => none
  | .faccWrite => none
  | .efdevidWrite => none
  | .sensorReadmit => none
  | .sensorMarkFailed => none
  | .alarmClear => none
  | .mipClear => none
  | .logidxAppend => none
  | .monitorClear => none
  | .permcfgDrop => none
  | .islthrWrite => none
  | .sembitsWrite => none
  | .ctbWrite => none
  | .tcfgWrite => none
  | .vcfgWrite => none
  | .vlWrite => none
  | .lclassWrite => none
  | .prioWrite => none
  | .serialRegisterWrite => none
  | .registerWrite => none
  | .uncorrectableStateError => none
  | .pauseFrameReceived => none
  | .hostPortLinkChange => none

/-- CLASS, OP and the fields of a full word (R42, R54); `none` for a pair, an illegal word and an event. -/
def opcodeOf (i : Instr) : Option (Nat × Nat × Fields) :=
  match i with
  | .nop f => some (0, 0, f)
  | .add f => some (0, 1, f)
  | .sub f => some (0, 2, f)
  | .and f => some (0, 3, f)
  | .or f => some (0, 4, f)
  | .xor f => some (0, 5, f)
  | .sll f => some (0, 6, f)
  | .srl f => some (0, 7, f)
  | .sra f => some (0, 8, f)
  | .slt f => some (0, 9, f)
  | .sltz f => some (0, 10, f)
  | .mul f => some (0, 11, f)
  | .mulh f => some (0, 12, f)
  | .mulhz f => some (0, 13, f)
  | .div f => some (0, 14, f)
  | .divz f => some (0, 15, f)
  | .rem f => some (0, 16, f)
  | .remz f => some (0, 17, f)
  | .min f => some (0, 18, f)
  | .max f => some (0, 19, f)
  | .minz f => some (0, 20, f)
  | .maxz f => some (0, 21, f)
  | .clz f => some (0, 22, f)
  | .ctz f => some (0, 23, f)
  | .pop f => some (0, 24, f)
  | .bext f => some (0, 25, f)
  | .bins f => some (0, 26, f)
  | .lih f => some (0, 27, f)
  | .li f => some (0, 28, f)
  | .sel f => some (0, 29, f)
  | .adr f => some (0, 30, f)
  | .crr f => some (0, 31, f)
  | .crw f => some (0, 32, f)
  | .crs f => some (0, 33, f)
  | .crc f => some (0, 34, f)
  | .ld f => some (1, 0, f)
  | .st f => some (1, 1, f)
  | .lda f => some (1, 2, f)
  | .stl f => some (1, 3, f)
  | .pf f => some (1, 4, f)
  | .bCond f => some (1, 5, f)
  | .j f => some (1, 6, f)
  | .jl f => some (1, 7, f)
  | .jr f => some (1, 8, f)
  | .smb f => some (1, 9, f)
  | .bk f => some (1, 10, f)
  | .bt f => some (1, 11, f)
  | .act f => some (2, 0, f)
  | .actn f => some (2, 1, f)
  | .wb f => some (2, 2, f)
  | .pre f => some (2, 3, f)
  | .prex f => some (2, 4, f)
  | .ref f => some (2, 5, f)
  | .refa f => some (2, 6, f)
  | .rstat f => some (2, 7, f)
  | .rplace f => some (2, 8, f)
  | .setvl f => some (3, 0, f)
  | .setcfg f => some (3, 1, f)
  | .vadd f => some (3, 2, f)
  | .vsub f => some (3, 3, f)
  | .vrsub f => some (3, 4, f)
  | .vmul f => some (3, 5, f)
  | .vmulh f => some (3, 6, f)
  | .vmacc f => some (3, 7, f)
  | .vadds f => some (3, 8, f)
  | .vaddsz f => some (3, 9, f)
  | .vsubs f => some (3, 10, f)
  | .vsubsz f => some (3, 11, f)
  | .vavg f => some (3, 12, f)
  | .vabsd f => some (3, 13, f)
  | .vmin f => some (3, 14, f)
  | .vmax f => some (3, 15, f)
  | .vminz f => some (3, 16, f)
  | .vmaxz f => some (3, 17, f)
  | .vand f => some (3, 18, f)
  | .vor f => some (3, 19, f)
  | .vxor f => some (3, 20, f)
  | .vsll f => some (3, 21, f)
  | .vsrl f => some (3, 22, f)
  | .vsra f => some (3, 23, f)
  | .vnsra f => some (3, 24, f)
  | .vwadd f => some (3, 25, f)
  | .vwmul f => some (3, 26, f)
  | .vdot4 f => some (3, 27, f)
  | .vcmpeq f => some (3, 28, f)
  | .vcmpne f => some (3, 29, f)
  | .vcmplt f => some (3, 30, f)
  | .vcmple f => some (3, 31, f)
  | .vcmpltz f => some (3, 32, f)
  | .vcmplez f => some (3, 33, f)
  | .vmerge f => some (3, 34, f)
  | .vmov f => some (3, 35, f)
  | .vext f => some (3, 36, f)
  | .vins f => some (3, 37, f)
  | .vredsum f => some (3, 38, f)
  | .vredmin f => some (3, 39, f)
  | .vredmax f => some (3, 40, f)
  | .vredand f => some (3, 41, f)
  | .vredor f => some (3, 42, f)
  | .vfadd f => some (3, 43, f)
  | .vfsub f => some (3, 44, f)
  | .vfmul f => some (3, 45, f)
  | .vfma f => some (3, 46, f)
  | .vfnma f => some (3, 47, f)
  | .vfmin f => some (3, 48, f)
  | .vfmax f => some (3, 49, f)
  | .vfdiv f => some (3, 50, f)
  | .vfsqrt f => some (3, 51, f)
  | .vfrcp f => some (3, 52, f)
  | .vfrsq f => some (3, 53, f)
  | .vfexp2 f => some (3, 54, f)
  | .vfcmpeq f => some (3, 55, f)
  | .vfcmplt f => some (3, 56, f)
  | .vfcmple f => some (3, 57, f)
  | .vfredsum f => some (3, 58, f)
  | .vfredmax f => some (3, 59, f)
  | .vfclass f => some (3, 60, f)
  | .vslide f => some (3, 61, f)
  | .vrot f => some (3, 62, f)
  | .vperm f => some (3, 63, f)
  | .vcompress f => some (3, 64, f)
  | .vexpand f => some (3, 65, f)
  | .viota f => some (3, 66, f)
  | .kand f => some (3, 67, f)
  | .kor f => some (3, 68, f)
  | .kxor f => some (3, 69, f)
  | .knot f => some (3, 70, f)
  | .kpop f => some (3, 71, f)
  | .kfirst f => some (3, 72, f)
  | .kmov f => some (3, 73, f)
  | .kmovPm f => some (3, 73, f)
  | .kmovRowToMask f => some (3, 73, f)
  | .kmovMaskToRow f => some (3, 73, f)
  | .vcka f => some (3, 74, f)
  | .ckchk f => some (3, 75, f)
  | .pmclr f => some (3, 76, f)
  | .vcvt f => some (4, 0, f)
  | .vcvtq f => some (4, 1, f)
  | .tcfg f => some (4, 2, f)
  | .tld f => some (4, 3, f)
  | .tldExposed f => some (4, 3, f)
  | .mvm f => some (4, 4, f)
  | .mvmz f => some (4, 5, f)
  | .mvmw f => some (4, 6, f)
  | .acrd f => some (4, 7, f)
  | .aclr f => some (4, 8, f)
  | .ackx f => some (4, 9, f)
  | .tstat f => some (4, 10, f)
  | .xput f => some (5, 0, f)
  | .xget f => some (5, 1, f)
  | .xexp f => some (5, 2, f)
  | .xhide f => some (5, 3, f)
  | .xtrw f => some (5, 4, f)
  | .xtrc f => some (5, 5, f)
  | .copy f => some (5, 6, f)
  | .ctwait f => some (5, 7, f)
  | .ctfind f => some (5, 8, f)
  | .vgld f => some (5, 9, f)
  | .vgst f => some (5, 10, f)
  | .radd f => some (5, 11, f)
  | .rswap f => some (5, 12, f)
  | .rcas f => some (5, 13, f)
  | .rmax f => some (5, 14, f)
  | .rpush f => some (5, 15, f)
  | .rget f => some (5, 16, f)
  | .rput f => some (5, 17, f)
  | .rsync f => some (5, 18, f)
  | .fenceFull f => some (6, 0, f)
  | .fenceAcq f => some (6, 0, f)
  | .fenceRel f => some (6, 0, f)
  | .fenceSv f => some (6, 0, f)
  | .fenceVs f => some (6, 0, f)
  | .fenceRow f => some (6, 0, f)
  | .amo f => some (6, 1, f)
  | .semt f => some (6, 2, f)
  | .semc f => some (6, 3, f)
  | .semq f => some (6, 4, f)
  | .bara f => some (6, 5, f)
  | .barw f => some (6, 6, f)
  | .barad f => some (6, 7, f)
  | .lkw f => some (6, 8, f)
  | .whold f => some (6, 9, f)
  | .wrel f => some (6, 10, f)
  | .wreg f => some (6, 11, f)
  | .wdone f => some (6, 12, f)
  | .qwait f => some (6, 13, f)
  | .ldv f => some (6, 14, f)
  | .valid f => some (6, 15, f)
  | .casv f => some (6, 16, f)
  | .launch f => some (7, 0, f)
  | .lwait f => some (7, 1, f)
  | .lcancel f => some (7, 2, f)
  | .gpred f => some (7, 3, f)
  | .gjoin f => some (7, 4, f)
  | .yield f => some (7, 5, f)
  | .nprb f => some (7, 6, f)
  | .npre f => some (7, 7, f)
  | .trap f => some (7, 8, f)
  | .rett f => some (7, 9, f)
  | .tlbiVa f => some (7, 10, f)
  | .tlbiAsid f => some (7, 10, f)
  | .tlbiAll f => some (7, 10, f)
  | .jrecv f => some (7, 11, f)
  | .hexit f => some (7, 12, f)
  | .wfi f => some (7, 13, f)
  | .tstamp f => some (7, 14, f)
  | .ctxsave f => some (7, 15, f)
  | .ctxrst f => some (7, 16, f)
  | .pairWord _ => none
  | .illegalInstruction _ => none
  | .pendingTrapTaken => none
  | .managementInterrupt => none
  | .cairnReset => none
  | .powerOn => none
  | .moduleReset => none
  | .debtIncrement => none
  | .forcedRefresh => none
  | .refreshEngineRefresh => none
  | .bandFall => none
  | .scoreboardActivationGrant => none
  | .mcGroupClose => none
  | .sliceBusRetirement => none
  | .channelRead => none
  | .channelMaskedWrite => none
  | .channelRefusedOpc => none
  | .channelReply => none
  | .transferComplete => none
  | .transferFail => none
  | .copyChunkPerformed => none
  | .remoteRequestReceived => none
  | .remoteResponseReceived => none
  | .retransmissionTimer => none
  | .floorBeaconTimer => none
  | .floorBeaconReceived => none
  | .beaconAckReceived => none
  | .incarnationProbeReceived => none
  | .probeAnswerReceived => none
  | .talusRecordExpiry => none
  | .copyReadRequestReceived => none
  | .copyDataAtOwner => none
  | .copyDataAtRequester => none
  | .copyAcknowledgementReceived => none
  | .copyChunkRetransmit => none
  | .efpoPacketDropped => none
  | .efpoLinkChange => none
  | .timeSyncExchange => none
  | .timeSyncAnswer => none
  | .tsyncLoss => none
  | .paceRequest => none
  | .paceRequestReceived => none
  | .paceFallDwell => none
  | .paceAgreementReceived => none
  | .paceAgreementApply => none
  | .paceAckReceived => none
  | .paceAgreementResend => none
  | .paceMemberSilent => none
  | .paceCoordinatorSilent => none
  | .sensorSample => none
  | .observerTick => none
  | .powerEstimate => none
  | .peakClampEnd => none
  | .govRise => none
  | .govFall => none
  | .permitBoundary => none
  | .monitorSample => none
  | .launchAdmission => none
  | .launchPredecessorCancel => none
  | .cancelledHartStop => none
  | .launchReplay => none
  | .contextDispatch => none
  | .yieldRequest => none
  | .forcedSave => none
  | .regionOverrun => none
  | .barrierDestroyed => none
  | .roceSend => none
  | .roceRdmaWrite => none
  | .roceRdmaRead => none
  | .roceUnsupported => none
  | .roceIcrcFail => none
  | .hostFrameOther => none
  | .cnpReceived => none
  | .readRateRaise => none
  | .pgflushWrite => none
  | .pgflushDone => none
  | .pubforceClear => none
  | .preemptRequest => none
  | .preemptMigrate => none
  | .counterClear => none
  | .attestationRequest => none
  | .attestationDone => none
  | .featlockWrite => none
  | .faccWrite => none
  | .efdevidWrite => none
  | .sensorReadmit => none
  | .sensorMarkFailed => none
  | .alarmClear => none
  | .mipClear => none
  | .logidxAppend => none
  | .monitorClear => none
  | .permcfgDrop => none
  | .islthrWrite => none
  | .sembitsWrite => none
  | .ctbWrite => none
  | .tcfgWrite => none
  | .vcfgWrite => none
  | .vlWrite => none
  | .lclassWrite => none
  | .prioWrite => none
  | .serialRegisterWrite => none
  | .registerWrite => none
  | .uncorrectableStateError => none
  | .pauseFrameReceived => none
  | .hostPortLinkChange => none

/-- The fields of a full word; of any other step, the fields of the all-zero word. -/
def fieldsOf (i : Instr) : Fields :=
  match opcodeOf i with
  | some (_, _, f) => f
  | none => default

/-- Whether R24 or R25 keeps CLASS `c`, OP `o` from the hart: subcode 13. -/
def classExcluded (k : HartKind) (c o : Nat) : Bool :=
  match k with
  | .tower => false
  | .control => c = 2 || c = 3 || c = 4 || (c = 5 && (o ≤ 5 || o = 9 || o = 10))
  | .cairn => !(c ≤ 1 || (c = 6 && o ≤ 1) || (c = 7 && (o = 8 || o = 9 || o = 10 || o = 13 || o = 14)))

/-- Whether a copy names a chunk mask (R212), which a control hart may not (R24). -/
def namesChunkMask (i : Instr) : Bool :=
  match i with
  | .copy f => f.sub 9 1 = 1
  | _ => false

/-- The FEAT0 bit that gates CLASS `c`, OP `o` (R420). -/
def featureOf (c o : Nat) : Option Nat :=
  if c = 4 && 2 ≤ o then some 0
  else if c = 4 && o = 1 then some 1
  else if c = 5 && 11 ≤ o then some 2
  else if c = 6 && 14 ≤ o then some 3
  else if c = 7 && (o = 3 || o = 4) then some 4
  else if c = 5 && o ≤ 5 then some 5
  else none

/-- Whether a register field is legal on the hart: off a tower only scalars may be named (R24, R75). -/
def namesOffHart (k : HartKind) (fk : FieldKind) (v : BitVec 6) : Bool :=
  k != .tower && fk.names && 32 ≤ v.toNat

/-- The static part of the decode checks, subcodes 3 to 8 in the order of R56. -/
def ruleFault (r : Rule) (f : Fields) : Option Nat :=
  if !(r.d.accepts f.d && r.dOk) then some 3
  else if !(r.a.accepts f.a && r.aOk) then some 4
  else if !(r.b.accepts f.b && r.bOk) then some 5
  else if !r.mask && f.m != 0 then some 6
  else if f.mz && (!r.mask || !r.mz || f.m = 0) then some 7
  else if !r.imm then some 8
  else none

/-- Whether D, A or B names a register that the hart lacks, in a field that a rule uses to name one (R24). -/
def Rule.offHart (r : Rule) (k : HartKind) (f : Fields) : Bool :=
  namesOffHart k r.d f.d || namesOffHart k r.a f.a || namesOffHart k r.b f.b

/-- The first failing decode check of a full word on a hart of kind `k` whose accepted features are `facc` (R56):
subcodes 13, 12, 2, 3, 4, 5, 6, 7, 8. Of a word whose FORM the entry does not accept, `others` are the rules of the accepted ones, which
tell the fields that the entry uses to name a register. -/
def decodeFault (i : Instr) (others : List Rule) (k : HartKind) (facc : Word) : Option Nat :=
  match opcodeOf i with
  | none => none
  | some (c, o, f) =>
    let r := ruleOf i
    if classExcluded k c o then some 13
    else if (match r with
             | some r => r.offHart k f
             | none => others.any (fun r => r.offHart k f)) || (k != .tower && namesChunkMask i) then some 13
    else if (match featureOf c o with
             | some b => !bitAt facc.toNat b
             | none => false) then some 12
    else match r with
      | none => some 2
      | some r => ruleFault r f

end Sys2Proof
end

