-- ==== Sys2Proof/WellFormed.lean ====
section
/-! DEFINITION. Well-formed instructions: the words that pass every check the word alone decides (R45-R47, R51, R55). -/

namespace Sys2Proof

/-- The constructor that FORM, KIND or SEL chooses where one OP covers several rows of the opcode table: fence (R237),
tlbi (R369), kmov (R142), tld (R177). Every other instruction stands. -/
def formOf (i : Instr) : Instr :=
  match i with
  | .fenceFull f =>
    match f.sub 0 3 with
    | 1 => .fenceAcq f
    | 2 => .fenceRel f
    | 3 => .fenceSv f
    | 4 => .fenceVs f
    | 5 => .fenceRow f
    | _ => .fenceFull f
  | .tlbiVa f =>
    match f.sub 0 2 with
    | 0 => .tlbiVa f
    | 1 => .tlbiAsid f
    | _ => .tlbiAll f
  | .kmov f =>
    if f.form.toNat = 3 then
      match f.sub 0 2 with
      | 0 => .kmovPm f
      | 1 => .kmovRowToMask f
      | 2 => .kmovMaskToRow f
      | _ => .kmov f
    else .kmov f
  | .tld f => if f.form.toNat = 3 then .tldExposed f else .tld f
  | _ => i

/-- Whether the constructor of a full word is the one its FORM, KIND or SEL chooses. -/
def formAgrees (i : Instr) : Bool :=
  match i with
  | .fenceFull f => f.sub 0 3 = 0 || 6 ≤ f.sub 0 3
  | .fenceAcq f => f.sub 0 3 = 1
  | .fenceRel f => f.sub 0 3 = 2
  | .fenceSv f => f.sub 0 3 = 3
  | .fenceVs f => f.sub 0 3 = 4
  | .fenceRow f => f.sub 0 3 = 5
  | .tlbiVa f => f.sub 0 2 = 0
  | .tlbiAsid f => f.sub 0 2 = 1
  | .tlbiAll f => 2 ≤ f.sub 0 2
  | .kmov f => f.form.toNat != 3 || f.sub 0 2 = 3
  | .kmovPm f => f.form.toNat = 3 && f.sub 0 2 = 0
  | .kmovRowToMask f => f.form.toNat = 3 && f.sub 0 2 = 1
  | .kmovMaskToRow f => f.form.toNat = 3 && f.sub 0 2 = 2
  | .tld f => f.form.toNat != 3
  | .tldExposed f => f.form.toNat = 3
  | _ => true

/-- Whether every field of a full word passes the decode checks that the word alone decides. -/
def fieldsOk (i : Instr) : Bool :=
  match ruleOf i with
  | some r => ruleFault r (fieldsOf i) = none
  | none => false

/-- The equivalent of a pair half and the bank rules of R49 and R53: whether a half alone is legal. `second` is H1. -/
def halfOk (h : Half) (second : Bool) : Bool :=
  let n := h.hop.toNat
  let rowD := h.d.toNat < 8
  let rowA := h.a.toNat < 8
  if n = 0 then h.d = 0 && h.a = 0 && h.imm = 0
  else if n = 1 || n = 3 || n = 4 || n = 6 || n = 7 || n = 12 || n = 27 then h.imm = 0
  else if n = 2 || n = 5 || n = 13 || n = 14 then true
  else if 8 ≤ n && n ≤ 10 then h.imm.toNat < 64
  else if n = 11 then h.a = 0
  else if n = 15 then h.a = 0 && second
  else if n = 16 then rowD
  else if n = 17 || n = 18 then rowD && h.a = 0 && h.imm = 0
  else if 19 ≤ n && n ≤ 25 then rowD && rowA && h.imm = 0
  else if n = 26 then rowD && rowA
  else if n = 28 then second && h.a != h.d
  else false

/-- Half 0 or half 1 of a pair word (R48). -/
def Half.ofWord (w : Word) (second : Bool) : Half :=
  let h : BitVec 31 := if second then w.extractLsb' 0 31 else w.extractLsb' 31 31
  { hop := h.extractLsb' 24 7, d := h.extractLsb' 20 4, a := h.extractLsb' 16 4, imm := h.extractLsb' 0 16 }

/-- Rules 1 and 3 of R51, which bind the two halves. -/
def pairOk (h0 h1 : Half) : Bool :=
  let mem := fun (n : Nat) => n = 13 || n = 14
  let vec := fun (n : Nat) => (19 ≤ n && n ≤ 26) || n = 28
  let a := h0.hop.toNat
  let b := h1.hop.toNat
  !(mem a && mem b) && !(a = 27 && (vec b || b = 27)) && !(b = 27 && vec a)

/-- How many OPs a class list holds (R54). -/
def opCount (c : Nat) : Nat :=
  match c with
  | 0 => 35
  | 1 => 12
  | 2 => 9
  | 3 => 77
  | 4 => 11
  | 5 => 19
  | 6 => 17
  | 7 => 17
  | _ => 0

/-- Well-formedness, as a test. -/
def Instr.wf (i : Instr) : Bool :=
  match i with
  | .pairWord w => w.getLsbD 63 && !w.getLsbD 62 && halfOk (Half.ofWord w false) false && halfOk (Half.ofWord w true) true &&
      pairOk (Half.ofWord w false) (Half.ofWord w true)
  | .illegalInstruction w =>
    if w.getLsbD 63 then w.getLsbD 62 else opCount (w.extractLsb' 60 3).toNat ≤ (w.extractLsb' 52 8).toNat
  | _ => match opcodeOf i with
    | some _ => formAgrees i && fieldsOk i
    | none => true

end Sys2Proof
end

