-- ==== Sys2Proof/Decode.lean ====
section
/-! DEFINITION. Instruction words (R40-R42, R48, R54): the decoder, total on every list of bytes, and the encoder. A word
whose fields break a rule of its entry still decodes, to the instruction that traps class 0; a word with no instruction
decodes to ILLEGAL_INSTRUCTION. -/

namespace Sys2Proof

/-- Why bytes hold no instruction word. -/
inductive DecodeError where
  /-- Fewer than 8 bytes are left (R40). -/
  | truncated
  deriving DecidableEq, Repr

/-- The class 0 list in order of OP (R54). -/
def classList0 : List (Fields → Instr) :=
  [.nop, .add, .sub, .and, .or, .xor, .sll, .srl, .sra, .slt, .sltz, .mul, .mulh, .mulhz, .div, .divz, .rem,
   .remz, .min, .max, .minz, .maxz, .clz, .ctz, .pop, .bext, .bins, .lih, .li, .sel, .adr, .crr, .crw, .crs,
   .crc]

/-- The class 1 list in order of OP (R54). -/
def classList1 : List (Fields → Instr) :=
  [.ld, .st, .lda, .stl, .pf, .bCond, .j, .jl, .jr, .smb, .bk, .bt]

/-- The class 2 list in order of OP (R54). -/
def classList2 : List (Fields → Instr) :=
  [.act, .actn, .wb, .pre, .prex, .ref, .refa, .rstat, .rplace]

/-- The class 3 list, OPs 0 to 39 (R54). -/
def classList3a : List (Fields → Instr) :=
  [.setvl, .setcfg, .vadd, .vsub, .vrsub, .vmul, .vmulh, .vmacc, .vadds, .vaddsz, .vsubs, .vsubsz, .vavg,
   .vabsd, .vmin, .vmax, .vminz, .vmaxz, .vand, .vor, .vxor, .vsll, .vsrl, .vsra, .vnsra, .vwadd, .vwmul,
   .vdot4, .vcmpeq, .vcmpne, .vcmplt, .vcmple, .vcmpltz, .vcmplez, .vmerge, .vmov, .vext, .vins, .vredsum,
   .vredmin]

/-- The class 3 list, OPs 40 up (R54). -/
def classList3b : List (Fields → Instr) :=
  [.vredmax, .vredand, .vredor, .vfadd, .vfsub, .vfmul, .vfma, .vfnma, .vfmin, .vfmax, .vfdiv, .vfsqrt, .vfrcp,
   .vfrsq, .vfexp2, .vfcmpeq, .vfcmplt, .vfcmple, .vfredsum, .vfredmax, .vfclass, .vslide, .vrot, .vperm,
   .vcompress, .vexpand, .viota, .kand, .kor, .kxor, .knot, .kpop, .kfirst, .kmov, .vcka, .ckchk, .pmclr]

/-- The class 3 list in order of OP (R54). -/
def classList3 : List (Fields → Instr) := classList3a ++ classList3b

/-- The class 4 list in order of OP (R54). -/
def classList4 : List (Fields → Instr) :=
  [.vcvt, .vcvtq, .tcfg, .tld, .mvm, .mvmz, .mvmw, .acrd, .aclr, .ackx, .tstat]

/-- The class 5 list in order of OP (R54). -/
def classList5 : List (Fields → Instr) :=
  [.xput, .xget, .xexp, .xhide, .xtrw, .xtrc, .copy, .ctwait, .ctfind, .vgld, .vgst, .radd, .rswap, .rcas,
   .rmax, .rpush, .rget, .rput, .rsync]

/-- The class 6 list in order of OP (R54). -/
def classList6 : List (Fields → Instr) :=
  [.fenceFull, .amo, .semt, .semc, .semq, .bara, .barw, .barad, .lkw, .whold, .wrel, .wreg, .wdone, .qwait,
   .ldv, .valid, .casv]

/-- The class 7 list in order of OP (R54). -/
def classList7 : List (Fields → Instr) :=
  [.launch, .lwait, .lcancel, .gpred, .gjoin, .yield, .nprb, .npre, .trap, .rett, .tlbiVa, .jrecv, .hexit,
   .wfi, .tstamp, .ctxsave, .ctxrst]

/-- The class lists (R54). -/
def classList (c : Nat) : List (Fields → Instr) :=
  match c with
  | 0 => classList0
  | 1 => classList1
  | 2 => classList2
  | 3 => classList3
  | 4 => classList4
  | 5 => classList5
  | 6 => classList6
  | 7 => classList7
  | _ => []

/-- The fields of a full word below CLASS and OP (R42). -/
def Fields.ofWord (w : Word) : Fields :=
  { form := w.extractLsb' 50 2, d := w.extractLsb' 44 6, a := w.extractLsb' 38 6, b := w.extractLsb' 32 6,
    m := w.extractLsb' 29 3, mz := w.getLsbD 28, imm := w.extractLsb' 0 28 }

/-- A full word from CLASS, OP and its fields (R42). -/
def wordOf (c o : Nat) (f : Fields) : Word :=
  (0#1 ++ BitVec.ofNat 3 c ++ BitVec.ofNat 8 o ++ f.form ++ f.d ++ f.a ++ f.b ++ f.m ++ BitVec.ofBool f.mz ++ f.imm).cast (by rfl)

/-- The instruction in a word: P and bit 62 (R41), then the class lists (R54). -/
def decodeWord (w : Word) : Instr :=
  if w.getLsbD 63 then (if w.getLsbD 62 then .illegalInstruction w else .pairWord w)
  else match (classList (w.extractLsb' 60 3).toNat)[(w.extractLsb' 52 8).toNat]? with
    | none => .illegalInstruction w
    | some mk => formOf (mk (Fields.ofWord w))

/-- The instruction at the head of a list of bytes, and the bytes after it. -/
def decode (bs : List Byte) : Except DecodeError (Instr × List Byte) :=
  match bs with
  | b0 :: b1 :: b2 :: b3 :: b4 :: b5 :: b6 :: b7 :: rest =>
    .ok (decodeWord (b7 ++ b6 ++ b5 ++ b4 ++ b3 ++ b2 ++ b1 ++ b0), rest)
  | _ => .error .truncated

/-- The word of an instruction; an event has none. -/
def encode (i : Instr) : Option Word :=
  match i with
  | .pairWord w => some w
  | .illegalInstruction w => some w
  | _ => (opcodeOf i).map (fun p => wordOf p.1 p.2.1 p.2.2)

/-- The word an instruction stands for in TVAL of a class 0 trap (R55). -/
def wordOfInstr (i : Instr) : Word := (encode i).getD 0

/-- The instruction the decoder reads from a table row's bits, in the table's numbering; bits above are zero. -/
def decodeTableWord (nbits w : Nat) : Option Instr :=
  match decode (leBytes (w % 2 ^ Nat.min nbits 64) 8) with
  | .ok (i, _) => some i
  | .error _ => none

end Sys2Proof
end

