-- ==== Sys2Proof/Machine/Hash.lean ====
section
/-! DEFINITION. SHAKE256, the function that R414 and R416 name, as FIPS 202 gives it (PRESUMED, log entry 10): the sponge over
Keccak-f[1600] with a rate of 136 bytes, and at most one block of output. -/

namespace Sys2Proof.Machine

/-- The 25 lanes of Keccak-f[1600]: lane (x, y) at 5 y + x. -/
abbrev Lanes := List (BitVec 64)

/-- Lane (x, y), both modulo 5. -/
def laneAt (a : Lanes) (x y : Nat) : BitVec 64 := (a[5 * (y % 5) + x % 5]?).getD 0

/-- The rotation of each lane, by its index. -/
def laneRotations : List Nat :=
  [0, 1, 62, 28, 27, 36, 44, 6, 55, 20, 3, 10, 43, 25, 39, 41, 45, 15, 21, 8, 18, 2, 61, 56, 14]

/-- The constant of each of the 24 rounds. -/
def roundConstants : List (BitVec 64) :=
  [0x1, 0x8082, 0x800000000000808A, 0x8000000080008000, 0x808B, 0x80000001, 0x8000000080008081, 0x8000000000008009,
   0x8A, 0x88, 0x80008009, 0x8000000A, 0x8000808B, 0x800000000000008B, 0x8000000000008089, 0x8000000000008003,
   0x8000000000008002, 0x8000000000000080, 0x800A, 0x800000008000000A, 0x8000000080008081, 0x8000000000008080,
   0x80000001, 0x8000000080008008]

/-- The five column parities. -/
def laneParities (a : Lanes) : Lanes :=
  (List.range 5).map (fun x => laneAt a x 0 ^^^ laneAt a x 1 ^^^ laneAt a x 2 ^^^ laneAt a x 3 ^^^ laneAt a x 4)

/-- The step that adds to every lane the parities of the columns beside it. -/
def mixColumns (a : Lanes) : Lanes :=
  let c := laneParities a
  (List.range 25).map (fun i => laneAt a (i % 5) (i / 5) ^^^ laneAt c (i % 5 + 4) 0 ^^^ (laneAt c (i % 5 + 1) 0).rotateLeft 1)

/-- The steps that rotate every lane and move it to its new place. -/
def moveLanes (a : Lanes) : Lanes :=
  (List.range 25).map (fun i =>
    let x := (i % 5 + 3 * (i / 5)) % 5
    (laneAt a x (i % 5)).rotateLeft ((laneRotations[5 * (i % 5) + x]?).getD 0))

/-- The one step that is not linear, along each row. -/
def mixRows (a : Lanes) : Lanes :=
  (List.range 25).map (fun i => laneAt a i (i / 5) ^^^ (~~~(laneAt a (i + 1) (i / 5)) &&& laneAt a (i + 2) (i / 5)))

/-- One round with its constant. -/
def keccakRound (a : Lanes) (rc : BitVec 64) : Lanes :=
  match mixRows (moveLanes (mixColumns a)) with
  | l :: ls => (l ^^^ rc) :: ls
  | [] => []

/-- Keccak-f[1600]. -/
def keccak (a : Lanes) : Lanes := roundConstants.foldl keccakRound a

/-- Up to eight bytes as a lane, the first the least significant. -/
def laneOf : List Byte → BitVec 64
  | [] => 0
  | b :: bs => b.setWidth 64 ||| laneOf bs <<< 8

/-- The bytes of a lane. -/
def laneBytes (w : BitVec 64) : List Byte := (List.range 8).map (fun i => w.extractLsb' (8 * i) 8)

/-- One block of 136 bytes enters the sponge. -/
def absorb (a : Lanes) (block : List Byte) : Lanes :=
  keccak ((List.range 25).map (fun i => laneAt a i (i / 5) ^^^ (if i < 17 then laneOf ((block.drop (8 * i)).take 8) else 0)))

/-- A message with the padding of SHAKE256 to a whole number of blocks. -/
def shakePad (m : List Byte) : List Byte :=
  let n := 135 - m.length % 136
  if n = 0 then m ++ [0x9F] else m ++ [0x1F] ++ List.replicate (n - 1) 0 ++ [0x80]

/-- The sponge after `n` blocks. -/
def absorbAll : Nat → List Byte → Lanes → Lanes
  | 0, _, a => a
  | n + 1, m, a => absorbAll n (m.drop 136) (absorb a (m.take 136))

/-- The first `n` bytes of SHAKE256 of a message, up to 136. -/
def shake256Bytes (m : List Byte) (n : Nat) : List Byte :=
  ((absorbAll (m.length / 136 + 1) (shakePad m) (List.replicate 25 0)).flatMap laneBytes).take n

/-- Bytes as one number, the first the least significant (R40). -/
def bytesWord (w : Nat) (bs : List Byte) : BitVec w := bs.foldr (fun b acc => b.setWidth w ||| acc <<< 8) 0

/-- SHAKE256(d, 512) (R416). -/
def shake512 (m : List Byte) : BitVec 512 := bytesWord 512 (shake256Bytes m 64)

/-- The 256-bit SHAKE256 digest (R414). -/
def shakeDigest (m : List Byte) : BitVec 256 := bytesWord 256 (shake256Bytes m 32)

end Sys2Proof.Machine
end

