-- ==== Sys2Proof/Machine/State.lean ====
section
/-! DEFINITION. The state of one IZ-J880 as plain data (R14-R34 and the chapters that own each unit), the reasons a step
can stop, and the state after start-up. -/

namespace Sys2Proof.Machine

/-- Why the machine stops. -/
inductive Fault where
  /-- R415 step 1: neither image slot passes, start-up stops and nothing runs. Raised by every step while the failure code
  stands. Safe: the hardware stops there too. -/
  | startUpStopped
  deriving DecidableEq, Repr

/-- Why an instruction has no meaning. -/
inductive Refusal where
  /-- An instruction not modelled yet, by its mnemonic; raised by Dispatch arms only. Safe. -/
  | notModelled (mnemonic : String)
  deriving DecidableEq, Repr

/-! ### Hart contexts -/

/-- Where a context is in its life (R22, R291, R318, R341, R350). -/
inductive RunState where
  /-- In a partition of its tower, on its control hart, or Cairn. -/
  | running
  /-- Resident and waiting for a partition. -/
  | ready
  /-- Saved and resident (R342 bit 2). -/
  | saved
  /-- Saved with HELD: out of its slot until ctxrst (R342, R350). -/
  | held
  /-- Ended; its slot is free. -/
  | ended
  deriving DecidableEq, Repr, Inhabited

/-- Kinds of wait-for-table entries (R295). -/
inductive WaitKind where
  | semt
  | barw
  | barad
  | lkw
  | qwait
  | jrecv
  | wreg
  deriving DecidableEq, Repr, Inhabited

/-- An object of Cirque: class 0-6 and key (R292). -/
structure ObjKey where
  cls : Nat
  key : Nat
  deriving DecidableEq, Repr, Inhabited

/-- A context's wait entry (R291, R292). `tracked` is false when the table had no room (R296); `since` is its
place in the order of registrations; `woken` is set by a watched write, a delivered message or the end of a generation. -/
structure WaitEntry where
  kind : WaitKind
  obj : ObjKey
  tracked : Bool
  since : Nat
  woken : Bool
  gen : BitVec 32
  deriving DecidableEq, Repr, Inhabited

/-- A pending asynchronous trap (R328): its code, TVAL and bytes 72-79 of its record (R331). -/
structure Pending where
  code : Nat
  tval : Word
  extra : Word
  deriving DecidableEq, Repr, Inhabited

/-- A weight tile (R169, R176): the row it was loaded from masked to ROWS and COLS, and the latched fields. -/
structure Tile where
  wt : BitVec 65536
  loaded : Bool
  fc : Nat
  rows : Nat
  cols : Nat
  scale : BitVec 32
  pcol : BitVec 64
  deriving DecidableEq, Repr, Inhabited

/-- The kind of an accumulator element (R179). -/
inductive AccKind where
  | finite
  | posInf
  | negInf
  | nan
  deriving DecidableEq, Repr, Inhabited

/-- One accumulator element: the 96-bit integer V, its kind and its poison bit (R179). -/
structure AccElem where
  v : Int
  kind : AccKind
  poison : Bool
  deriving DecidableEq, Repr, Inhabited

/-- An accumulator (R179): 64 elements, EMPTY, SAT, Q and the combined scale TS x 2^SX. -/
structure Acc where
  elems : Vector AccElem 64
  empty : Bool
  sat : Bool
  q : Int
  ts : BitVec 32
  sx : Int
  deriving DecidableEq, Repr, Inhabited

/-- A run of rows named by a move: tower, bank, first group, length (R205). -/
structure RowRun where
  tower : Nat
  bank : Nat
  group : Nat
  len : Nat
  deriving DecidableEq, Repr, Inhabited

/-- What a busy tag moves (R198, R205, R212, R263). -/
inductive Work where
  /-- xput or xget: `put`, the hart's own run, the target tower and the exposure tag. -/
  | traverse (put : Bool) (own : RowRun) (tower etag : Nat)
  /-- copy: the descriptors (source, destination) as read at queue entry, SIDE, the remote device, the chunk mask. -/
  | copy (src dst : List Byte) (side : Nat) (dev : Nat) (km : Option Nat)
  /-- A remote operation: OP - 11, SZ, U, owner, address, operand, expected value, destination scalar. -/
  | remote (kind sz : Nat) (u : Bool) (owner : Nat) (addr opnd exp : Word) (d : Nat)
  deriving DecidableEq, Repr, Inhabited

/-- A request, or a chunk of a remote copy, sent and not answered (R271, R410): sends made, time (ps) of the next, the interval
that ends there, the status of the last answer, and for a chunk sent (SIDE 2) its bytes and poisoned pieces. A remote operation
is its own chunk 0. -/
structure Flight where
  chunk : Nat
  sends : Nat
  next : Nat
  interval : Nat
  status : Nat
  bytes : List Byte
  pois : List Nat
  deriving DecidableEq, Repr, Inhabited

/-- A transfer or remote operation outstanding under a busy tag (R198, R265, R269). `done` lists the chunks performed, taken or
acknowledged; `flights` runs the schedule of R271, and holds the chunks that a copy within the device has read before their turn
(R214). `failing` is the subcode, chunk and cause of a copy that fails once no chunk of it is under way (R215). -/
structure Transfer where
  tag : Nat
  work : Work
  scope : Nat
  ptroot : Word
  serial : BitVec 32
  chunks : Nat
  done : List Nat
  failed : Bool
  expinc : Option (BitVec 16)
  flights : List Flight
  failing : Option (Nat × Nat × Nat)
  deriving DecidableEq, Repr, Inhabited

/-- A member's place in a gang (R313, R315). `done` is the address of a word that this member has completed while another
member of its gang has not; `kept` is that of the word that a gang trap interrupted, while its handler runs (R316). -/
structure Gang where
  index : Nat
  count : Nat
  active : Bool
  stack : List Bool
  done : Option Word
  kept : Option Word
  deriving DecidableEq, Repr, Inhabited

/-- One logged input of a replayable launch (R353): kind 0 message, 1 qwait value, 2 queue load, 3 HEAD store (R354). -/
structure LogEntry where
  kind : Nat
  addr : Nat
  value : List Byte
  deriving DecidableEq, Repr, Inhabited

/-- A context that is ending (R310, R311, R332): the CAUSE and exit code its launch records, FAILED, CANCELLED, and
whether its release at .y is still due (hexit). -/
structure Ending where
  cause : Nat
  exit : Nat
  failed : Bool
  cancel : Bool
  replay : Bool
  deriving DecidableEq, Repr, Inhabited

/-- A barad record (R288): the address of a barad whose arrival is counted, whether it was run at trap level, the generation, and
the barrier where it is known. -/
structure Arrival where
  pc : Word
  tl : Bool
  gen : BitVec 32
  bar : Option ObjKey
  deriving DecidableEq, Repr, Inhabited

/-- A hart context: everything that runs, is saved and is restored with it (R22, R169, R268, R348). -/
structure Ctx where
  /-- Front end: tower, control hart or Cairn (R14). -/
  kind : HartKind
  /-- Global tower (R15), or control hart number. -/
  place : Nat
  /-- Partition index while running (R21). -/
  part : Nat
  /-- Home bank (R21). -/
  home : Nat
  run : RunState
  /-- Requester ID (R268). -/
  reqid : Nat
  /-- Its entry of the requester table (R268, R342). -/
  entry : Nat
  /-- LAUNCHID (R302), rank, N and tower index (R305, R322). -/
  launch : Word
  rank : Nat
  count : Nat
  index : Nat
  gang : Option Gang
  /-- s0-s31 (R44). -/
  regs : Vector Word 32
  pc : Word
  /-- Mode: supervisor (R329). -/
  sup : Bool
  vl : Word
  vcfg : Word
  estart : Word
  ctb : Word
  fflags : Word
  frm : Word
  /-- CK0-CK3, 128 bits each (R143). -/
  ck : Vector (BitVec 128) 4
  pmcnt : Word
  tcfg : Vector Word 4
  /-- MOWN.EN (R170); the other bits are derived. -/
  mownEn : Bool
  /-- Validation set: virtual line, physical line, version (R249). -/
  vset : List (Word × Nat × Nat)
  /-- The reply-to device of its requester entry: where the context runs now (R268). -/
  reply : Nat
  /-- Requester entry views (R268): SNEXT; SFLOOR when written by a supervisor is derived otherwise. -/
  snext : BitVec 32
  sfloor : BitVec 32
  /-- PREQ.REQ, PREQ.NE and PDEADLN (R330). -/
  preq : Bool
  preqNe : Bool
  pdeadln : Nat
  /-- The part of the current cycle of PDEADLN that has passed, in 1/10,000 cycles (R4, R337). -/
  pdeadFrac : Nat
  /-- TSTAT fields (R330). -/
  pm : Bool
  tl : Bool
  half : Bool
  hv : Bool
  hdone : BitVec 2
  async : Bool
  /-- Halves of the word at PC that rett or a resume leaves done (R333, R349). -/
  skip : BitVec 2
  /-- Device time (ps) at which the non-preemptible region began, when inside one (R346). -/
  npr : Option Nat
  tcause : Word
  tpc : Word
  tval : Word
  tvec : Word
  trec : Word
  tscratch : Word
  ptroot : Word
  ctxsave : Word
  lclass : Nat
  prio : Nat
  strict : Bool
  facc : Vector Word 4
  /-- UNTRACKED of WFTSTAT (R299). -/
  untracked : Nat
  /-- k0-k7 (R44); k0 is held and never read as such (R142). -/
  masks : Vector (BitVec 8192) 8
  /-- pm (R44, R130). -/
  poisonMask : BitVec 8192
  tiles : Vector Tile 4
  accs : Vector Acc 4
  /-- Pending asynchronous traps, oldest first (R328). -/
  pend : List Pending
  /-- The CTB bits that a completion set and nothing has cleared since (R199). -/
  ctbDone : Word
  /-- Busy tags (R198). -/
  transfers : List Transfer
  /-- Wait entry (R291) and whether the context is blocked in a wait. -/
  wait : Option WaitEntry
  blocked : Bool
  /-- The semaphore bit handed over to the context, until its semt completes (R281). -/
  handed : Option ObjKey
  /-- A device barrier that was destroyed while the context was blocked on it: its wait traps when it runs on (R287). -/
  gone : Option Nat
  /-- The barad records (R288). -/
  barad : List Arrival
  /-- Publication list: line and the tag whose acquire it awaits, 64 for none (R243, R244). -/
  pubs : List (Nat × Nat)
  /-- Beacon set: owner and serial (R269). -/
  beacons : List (Nat × BitVec 32)
  cancelled : Bool
  ending : Option Ending
  /-- Owners that rsync or the end of the context still waits for: owner, sends, next send (ps), interval (ps) (R275). -/
  drain : List (Nat × Nat × Nat × Nat)
  /-- The lwait that the hart waits in (R308): the level, the entity, and its status word once it has completed. -/
  lwait : Option (Nat × Word × Option Word)
  /-- The job whose status it is has been freed by another hart's lwait (R303). -/
  lwaitFreed : Bool
  /-- HELD asked by PREEMPT (R342) and migration target (R393). -/
  wantHeld : Bool
  migrate : Option Nat
  /-- Its migration, waiting for a region, holds its island at level 7 until it is saved (R393). -/
  regionHold : Bool
  /-- Device time (ps) since ready, and since running (R318); the place in the order in which contexts became ready. -/
  readySince : Nat
  readyOrder : Nat
  runSince : Nat
  /-- The open-row table that the next dispatch reopens after ctxrst (R349, R351). -/
  reopen : List Nat
  /-- Headers the hart has waited on and the inputs recorded, and the log being replayed (R353, R354). -/
  queues : List Nat
  recorded : List LogEntry
  replay : List LogEntry
  /-- Scalar stores that need not have performed for the vector queue (R72, R102): address and the bytes from before, oldest
  first. -/
  unfenced : List (Nat × List Byte)
  deriving DecidableEq, Repr, Inhabited

/-! ### Towers -/

/-- A tower barrier (R283). -/
structure TowerBarrier where
  count : Nat
  arr : Nat
  gen : BitVec 32
  deriving DecidableEq, Repr, Inhabited

/-- An exposed run (R203). -/
structure Exposure where
  etag : Nat
  owner : Nat
  acc : Nat
  rows : RowRun
  deriving DecidableEq, Repr, Inhabited

/-- A TLB entry (R367): ASID, virtual base, size in bits of 12, 16, 21 or 30, and for each page its leaf entry and the
address of that entry. -/
structure TlbEntry where
  asid : Nat
  va : Nat
  bits : Nat
  leaves : List (Nat × Nat)
  deriving DecidableEq, Repr, Inhabited

/-- A walk-cache entry (R367): ASID, level, the index bits above it, and the next table. -/
structure WalkEntry where
  asid : Nat
  level : Nat
  idx : Nat
  table : Nat
  deriving DecidableEq, Repr, Inhabited

/-- Shared tower resources (R15, R23): partition mode 0-3, SEMBITS and holders, COMD, barriers, exposures, the transpose
tile, VBHEALTH, the amo contention predictor and counters, and the activation history of R103. -/
structure Tower where
  mode : Nat
  sem : Word
  holders : SMap Nat
  comd : Vector Word 16
  bars : Vector TowerBarrier 8
  exposures : List Exposure
  tpHolder : Option Nat
  tpData : List Byte
  tpPoison : List Nat
  vbHealth : Word
  predictor : SMap Nat
  amoLocal : Word
  amoHub : Word
  /-- Starts of activations, newest first: time (ps), bank, group. -/
  acts : List (Nat × Nat × Nat)
  /-- Partition whose hart started the last activation (R104). -/
  granted : Nat
  /-- When (ps) each bank last stopped being the home bank of a running hart (R107). -/
  left : SMap Nat
  /-- Errors corrected in beats of the tower (R112). -/
  corrected : Word
  /-- Times (ps) of the last 16 corrections of each wire, by bus x 2^16 + wire, newest first, and the buses due to be
  retired (R219). -/
  wires : SMap (List Nat)
  failing : List Nat
  /-- The buses retired, newest first, as they are reported to Cairn (R219). -/
  retired : List Nat
  deriving DecidableEq, Repr, Inhabited

/-- A subarray group (R91, R99, R103, R108). Times in ps: the instants at which the intervals of R103 begin. -/
structure Group where
  row : Option Nat
  dirty : Bool
  writable : Bool
  /-- Both leaves are known to have D set (R96, R365). -/
  dset : Bool
  va : Word
  forced : Bool
  /-- A forced close whose refreshes are still due (R110). -/
  forcing : Bool
  mc : Option Nat
  debt : Int
  rptr : Nat
  opened : Nat
  /-- The last close or refresh, and the interval that runs from it: tRP or tRFCg. -/
  free : Nat
  freeFor : Nat
  /-- The last commit point (tWR). -/
  commit : Nat
  nextInc : Nat
  lastInc : Nat
  deriving DecidableEq, Repr, Inhabited

/-- A refresh band of one stack layer (R106): the band, and since when samples have stood at or below the fall bound. -/
structure Band where
  band : Nat
  low : Option Nat
  deriving DecidableEq, Repr, Inhabited

/-! ### Hub -/

/-- A work-table entity above a launch: level 1 graph, 2 phase, 3 job (R303, R304). -/
structure Entity where
  level : Nat
  /-- The fields of LAUNCHID at its level, the others zero. -/
  key : Word
  closed : Bool
  done : Bool
  bits : Nat
  cause : Nat
  exit : Nat
  /-- The places of CAUSE and EXIT in the hub's order of codes recorded. -/
  causeAt : Nat
  exitAt : Nat
  /-- A job's PTROOT (R306). -/
  ptroot : Word
  deriving DecidableEq, Repr, Inhabited

/-- A launch (R303, R305-R307). -/
structure Launch where
  id : Word
  record : List Byte
  /-- 0 accepted, 1 admitted, 2 complete. -/
  phase : Nat
  /-- FAILED 4, CANCELLED 2, REPLAYED 8. -/
  bits : Nat
  cause : Nat
  exit : Nat
  /-- The places of CAUSE and EXIT in the hub's order of codes recorded (R304). -/
  causeAt : Nat
  exitAt : Nat
  harts : Nat
  ended : Nat
  replays : Nat
  replaying : Bool
  lostLog : Bool
  /-- The recorder's log of each hart, by rank (R353). -/
  logs : SMap (List LogEntry)
  tvec : Word
  tscratch : Word
  strict : Bool
  facc : Vector Word 4
  deriving DecidableEq, Repr, Inhabited

/-- A device barrier object (R284). -/
structure DeviceBarrier where
  id : Nat
  scope : Nat
  stack : Nat
  count : BitVec 32
  arr : BitVec 32
  gen : BitVec 32
  job : Nat
  creator : Word
  deriving DecidableEq, Repr, Inhabited

/-- A queued job message (R323). -/
structure Message where
  job : Nat
  seq : BitVec 32
  arrival : Word
  payload : List Byte
  deriving DecidableEq, Repr, Inhabited

/-- An object entry of Cirque: the holders recorded, and those of them that whold declared, whose holds only wrel ends (R292). -/
structure Hold where
  obj : ObjKey
  holders : List Nat
  declared : List Nat
  deriving DecidableEq, Repr, Inhabited

/-- A Talus result entry (R272). -/
structure TalusResult where
  reqid : Nat
  serial : BitVec 32
  status : Nat
  cause : Nat
  result : Word
  deriving DecidableEq, Repr, Inhabited

/-- A Talus requester record (R272): floor and time (ps) of the last packet. -/
structure TalusRecord where
  reqid : Nat
  floor : BitVec 32
  last : Nat
  deriving DecidableEq, Repr, Inhabited

/-- A Talus window entry (R410) with the copy buffer it holds, if any: chunk, bytes and poison map. -/
structure TalusWindow where
  reqid : Nat
  serial : BitVec 32
  low : Nat
  map : BitVec 64
  buffer : Option (Nat × List Byte × List Nat)
  deriving DecidableEq, Repr, Inhabited

/-- A request waiting for its reply on a hub-to-base-die channel (R254): the reply is fixed when the request takes
effect. -/
structure ChannelRequest where
  stack : Nat
  channel : Nat
  tag : Nat
  read : Bool
  status : Nat
  pois : Nat
  data : List Byte
  deriving DecidableEq, Repr, Inhabited

/-- Packets that leave over Efpo (R270, R407-R411); the first number is the destination. -/
inductive Packet where
  | request (dst : Nat) (p : RemoteRequest)
  | response (dst : Nat) (p : RemoteResponse)
  | beacon (dst : Nat) (p : FloorPacket)
  | beaconAck (dst : Nat) (p : FloorPacket)
  | probe (dst : Nat) (p : FloorPacket)
  | probeAnswer (dst : Nat) (p : FloorPacket)
  | copyRead (dst : Nat) (p : CopyPacket)
  | copyData (dst : Nat) (p : CopyPacket)
  | copyAck (dst : Nat) (p : CopyPacket)
  | paceRequest (dst : Nat) (p : PacePacket)
  | paceAgreement (dst : Nat) (p : PacePacket)
  | paceAck (dst : Nat) (p : PacePacket)
  | timeSync (port seq : Nat) (ta : Nat)
  deriving DecidableEq, Repr, Inhabited

/-- What the host port sends (R401, R405, R406); an RNR NAK with its timer in ps. -/
inductive HostPacket where
  | ack (qp : Nat) (psn : BitVec 24)
  | nakSequence (qp : Nat) (psn : BitVec 24)
  | nakInvalid (qp : Nat) (psn : BitVec 24)
  | nakAccess (qp : Nat) (psn : BitVec 24)
  | rnr (qp : Nat) (psn : BitVec 24) (timer : Nat)
  | readResponse (qp : Nat) (psn : BitVec 24) (data : List Byte)
  | cnp (qp : Nat)
  deriving DecidableEq, Repr, Inhabited

/-- The remote end of a queue pair (R403): whether its address is IPv6, the address, and its queue pair. -/
structure HostPeer where
  v6 : Bool
  ip : BitVec 128
  qpn : BitVec 24
  deriving DecidableEq, Repr, Inhabited

/-- A packet sent to a remote end. -/
structure HostSent where
  peer : HostPeer
  packet : HostPacket
  deriving DecidableEq, Repr, Inhabited

/-- What the hub keeps of a queue pair beside its entry (R401, R404, R405): the rate of READ responses in units of
2^-32 of line rate and when it last changed, the time of the last congestion notification sent, the payload of a SEND in
progress, and of an RDMA WRITE in progress the key, the next address and the bytes still to come. -/
structure QueuePair where
  rate : Nat
  rateAt : Nat
  lastCnp : Option Nat
  send : List Byte
  writeKey : BitVec 32
  writeVa : Word
  writeLeft : Nat
  deriving DecidableEq, Repr, Inhabited

/-- The host port (R400-R406). -/
structure HostPort where
  en : Bool
  link : Bool
  qptBase : Word
  rgtBase : Word
  ip4 : BitVec 32
  ip6 : BitVec 128
  cnt : Vector Word 10
  qps : SMap QueuePair
  /-- Time (ps) until which a pause frame holds transmission (R400), what waits for it, and what has been sent. -/
  pausedUntil : Nat
  waiting : List HostSent
  out : List HostSent
  deriving DecidableEq, Repr, Inhabited

/-- Efpo (R407-R413): device ID, LOCK, links, TSYNC, counters (port x 8 + i), packets sent, packets that loop back through this hub
(R263), oldest first, exchanges under way (port,
sequence, T1), slew still to make (ps) and the time of the last completed exchange. -/
structure Efpo where
  devid : BitVec 13
  lock : Bool
  links : BitVec 16
  tsync : Bool
  cnt : SMap Word
  out : List Packet
  loop : List Packet
  exchanges : List (Nat × Nat × Nat)
  nextSeq : Nat
  slew : Int
  lastSync : Nat
  deriving DecidableEq, Repr, Inhabited

/-- An island (R373-R378, R395): the firmware level and claim, step, power, capping, HOLD7, chaining and gating.
`floor` is set by Cairn's reset and ends with the first write of ISLTHR after it. -/
structure Island where
  level : Nat
  claim : Nat
  step : Nat
  pwr : Nat
  gate : Bool
  chain : BitVec 8
  hold7 : Bool
  hold7Region : Bool
  cap : Bool
  floor : Bool
  /-- Device time (ps) of the last change of the clock (R4). -/
  changedAt : Nat
  deriving DecidableEq, Repr, Inhabited

/-- A sensor (R380-R383). `seen` tells that it has been sampled; `same` counts samples without change, `base` is the island
power when that run began. -/
structure Sensor where
  raw : Int
  seen : Bool
  failed : Bool
  stuck : Bool
  range : Bool
  neigh : Bool
  alarm : Bool
  armed : Bool
  critArmed : Bool
  alert : Int
  pred : Int
  est : Int
  tracking : Bool
  same : Nat
  base : Nat
  moved : Bool
  deriving DecidableEq, Repr, Inhabited

/-- A capture monitor (R397). -/
structure Monitor where
  source : Nat
  index : Nat
  shift : Nat
  en : Bool
  thresh : BitVec 32
  mn : Word
  mx : Word
  bins : Vector Word 16
  deriving DecidableEq, Repr, Inhabited

/-- A pace agreement on its way (R390, R392): level, number and stamp, the devices that have not acknowledged it, and the
time (ps) of its last sending. A member that waits for the stamp holds it with nobody missing. -/
structure Agreement where
  level : Nat
  number : BitVec 32
  stamp : Word
  missing : List Nat
  sentAt : Nat
  deriving DecidableEq, Repr, Inhabited

/-- The pace unit (R388-R392). Times in ps. `next`, `pending`, `stamp` and `number` are those of the agreement that applies
next, `later` those that follow it in number order, `applied` the number applied last. -/
structure Pace where
  level : Nat
  group : BitVec 16
  en : Bool
  cur : Nat
  next : Nat
  pending : Bool
  stamp : Word
  number : BitVec 32
  later : List Agreement
  applied : BitVec 32
  /-- The member: the request last sent and when, when it joined and last heard the coordinator, and whether it holds
  level 7 on its own. -/
  sentLevel : Nat
  sentAt : Option Nat
  joined : Nat
  coordHeard : Nat
  degraded : Bool
  /-- The coordinator: the agreed level A and the last number, the members' requests and when each was last heard, the
  agreements not yet acknowledged by all, since when every request stands below A, and the time of the last agreement. -/
  agreed : Nat
  agreedNo : BitVec 32
  requests : SMap Nat
  heard : SMap Nat
  agreements : List Agreement
  belowSince : Option Nat
  lastAgreement : Nat
  deriving DecidableEq, Repr, Inhabited

/-- Power, permits and the governor (R385-R387). -/
structure Power where
  gov : Nat
  govMoved : Nat
  estimates : List Nat
  peakUntil : Option Nat
  pool : Nat
  idle : Nat
  start : Nat
  /-- The boundary served last, in intervals of 10 us from the counter's origin. -/
  boundary : Nat
  /-- The observer tick served last, in milliseconds from the counter's origin. -/
  ticked : Nat
  boostEn : Bool
  dropPending : Bool
  deriving DecidableEq, Repr, Inhabited

/-- Cairn's own registers (R376-R397). -/
structure Management where
  ie : Bool
  pie : Bool
  ml : Bool
  mcause : Word
  mepc : Word
  mvec : Word
  mie : BitVec 11
  mip : BitVec 11
  /-- INFO of each edge interrupt, subcodes 0-10. -/
  info : Vector Word 11
  sensel : Nat
  islsel : Nat
  monsel : Nat
  logbase : Word
  logidx : Word
  deriving DecidableEq, Repr, Inhabited

/-- One image slot of the flash (R414): the header's SVN and public key of 64 bytes, the stages, and the SLH-DSA signature of 29,792
bytes; the header's length and stage list are those of the stages. -/
structure Slot where
  svn : Word
  stages : List (List Byte)
  key : BitVec 512
  signature : BitVec (8 * 29792)
  deriving DecidableEq, Repr, Inhabited

/-- The remaining hub structures. -/
structure Hub where
  entities : List Entity
  launches : List Launch
  barriers : List DeviceBarrier
  mailbox : List Message
  seqs : SMap (BitVec 32)
  holds : List Hold
  /-- Codes recorded in the work table so far: the hub's order of R304. -/
  codes : Nat
  incarnations : SMap (BitVec 16)
  /-- Probes under way: owner, sends, next send (ps), interval (ps), requester ID. -/
  probes : List (Nat × Nat × Nat × Nat × Nat)
  /-- The 100 us interval of device time whose floor beacons were sent last (R274). -/
  beaconed : Nat
  results : List TalusResult
  records : List TalusRecord
  windows : List TalusWindow
  talusRefuse : Word
  remDrop : Word
  incarnation : BitVec 16
  channels : List ChannelRequest
  /-- Publication table: line and requester (R243). -/
  published : List (Nat × Nat)
  pgflush : Option Nat
  pubforce : SMap Word
  recBase : Word
  recLen : Word
  recLost : Word
  recUsed : Nat
  paceMem : SMap Word
  /-- Attestation (R416, R419). -/
  measure : BitVec 512
  attLog : List (BitVec 16 × BitVec 512)
  attReq : Word
  attBusy : Bool
  attDone : Bool
  attErr : Bool
  featLock : Bool
  /-- STARTSTAT (R415 step 1): 0 when an image was loaded, 1 when start-up stopped, 2 when a reset of Cairn did. -/
  startStat : Nat
  /-- Image slots A and B of the flash (R414), and which of them (0, 1) was loaded last (R415 step 1). -/
  slots : Slot × Slot
  booted : Nat
  deriving DecidableEq, Repr, Inhabited

/-! ### The machine -/

/-- One element of the agenda: what the outside world or an autonomous unit does before the next instruction of the
current hart (log entry 1). -/
inductive Turn where
  /-- The hart of this requester ID has the next turn. -/
  | run (reqid : Nat)
  /-- A step of the opcode table that no program issues. -/
  | event (i : Instr) (x : EventInput)
  /-- Time passes: ps of device time (R19). -/
  | pass (ps : Nat)
  /-- A TLB or walk cache drops everything it holds (R367): 0-511 tower, 512-519 stack, 520-535 control hart, 536 hub. -/
  | dropTlb (unit : Nat)
  /-- A tower data cache gives a line up (R262). -/
  | evictLine (tower line : Nat)
  /-- A packet arrives at an Efpo port (R407): its header, and the step of the opcode table that it is with its operands. -/
  | packet (port : Nat) (f : Frame) (i : Instr) (x : EventInput)
  /-- The oldest packet that loops back reaches the owner or requester side of this hub (R263). -/
  | loopBack
  /-- A packet that waits for a group (R31), by its place, is tried again. -/
  | retry (n : Nat)
  /-- A frame with a wrong check sequence arrives at the host port (R402). -/
  | badFrame
  /-- System software has installed a context that is held here on another device (R268, R276). -/
  | movedAway (reqid dev : Nat)
  /-- A context that runs on another device has ended there (R268). -/
  | endedAway (reqid : Nat)
  /-- A release of a context of another device reaches those of the lines it has left unpublished here that it covers (R244). -/
  | foreignRelease (reqid : Nat) (lines : List Nat)
  /-- A granule is found uncorrectable (R113). -/
  | poison (granule : Nat)
  /-- A beat of an open or held row is corrected (R112): group key, slice bus, wire (R219). -/
  | corrected (key bus wire : Nat)
  /-- A granule is miscorrected (R112): what is delivered and written back. -/
  | miscorrected (granule : Nat) (bs : List Byte)
  /-- A wire of a slice bus is detected as stuck (R219). -/
  | stuck (tower bus : Nat)
  /-- The hart of the turn takes its next instruction boundary. -/
  | boundary
  /-- The hart of the turn executes its next word; while an element-wise instruction performs, with the elements below `n` done,
  `ps` of time pass and the event comes (R126, R340). -/
  | midway (n ps : Nat) (i : Instr) (x : EventInput)
  deriving DecidableEq, Repr, Inhabited

/-- An access to a row that waits for a group which holds another row (R31): the waiter as requester ID x 128 + copy tag, 64 for the
hart itself, or the number of another unit, and the address of the instruction that waits. -/
structure RowWait where
  group : Nat
  row : Nat
  who : Nat
  pc : Word
  deriving DecidableEq, Repr, Inhabited

/-- The whole device. -/
structure State where
  /-- The context of the hart whose turn it is. -/
  cur : Ctx
  /-- Every other context, and every requester-table entry (R268). -/
  others : List Ctx
  /-- Physical DRAM: address, byte; what no entry lists reads as `background` (R26, R415). -/
  mem : List Host.Cell
  /-- Poisoned 32-byte granules, rising (R113, R242). -/
  poison : List Nat
  /-- Versions of 128-byte lines that are not 0 (R247). -/
  versions : SMap Nat
  /-- 4 KiB pages touched as CACHED since their last flush, and pages in conflict (R33). -/
  cachedUse : List Nat
  conflict : List Nat
  /-- The tower data cache that owns a line, and the tower data caches that hold it (R262). -/
  lineOwner : SMap Nat
  lineHolders : SMap (List Nat)
  towers : SMap Tower
  /-- Groups by tower x 256 + bank x 16 + group (R16). -/
  groups : SMap Group
  /-- Accesses waiting for a group that holds another row, in order of arrival (R31). -/
  rowQueue : List RowWait
  /-- Packets that have arrived and wait for such a group, in order of arrival: the step of the opcode table and its operands. -/
  waitingIn : List (Instr × EventInput)
  /-- Bands by stack x 16 + layer (R105). -/
  bands : SMap Band
  tlbs : SMap (List TlbEntry)
  walks : SMap (List WalkEntry)
  hub : Hub
  host : HostPort
  efpo : Efpo
  mgmt : Management
  islands : Vector Island 32
  /-- Island 32, the hub: LEVEL (R373), GATE and PWR (R376). -/
  hubLevel : Nat
  hubGate : Bool
  hubPwr : Nat
  sensors : SMap Sensor
  monitors : SMap Monitor
  pace : Pace
  power : Power
  /-- Device time in ps since the counter's origin; TIME is its quotient by 1000 (R19). -/
  clk : Nat
  /-- Device time in ps of the last device reset, from which the refresh schedule of R108 runs. -/
  resetAt : Nat
  /-- What happens before the current hart's next instruction (log entry 1). -/
  agenda : List Turn
  /-- The operands of the event being performed (log entry 1). -/
  input : EventInput
  /-- The model's own counter of free values drawn (log entry 8). -/
  fresh : Nat
  /-- The element at which the next element-wise instruction stops (R126), set for the length of one turn (log entry 1). -/
  stopAt : Option Nat
  /-- The Efpo port by which the packet being taken arrived (R412), set for the length of one step. -/
  inPort : Option Nat
  deriving DecidableEq, Repr, Inhabited

/-! ### Defaults and reset -/

/-- An empty tile (R173, R192). -/
def Tile.blank : Tile := { wt := 0, loaded := false, fc := 0, rows := 0, cols := 0, scale := 0, pcol := 0 }

/-- A cleared accumulator (R179). -/
def Acc.blank : Acc :=
  { elems := Vector.replicate 64 { v := 0, kind := .finite, poison := false }, empty := true, sat := false, q := 0, ts := 0, sx := 0 }

/-- A context with every register at the values of R307. -/
def Ctx.blank : Ctx :=
  { kind := .tower, place := 0, part := 0, home := 0, run := .ended, reqid := 0, entry := 0, launch := 0, rank := 0, count := 1,
    index := 0, gang := none, regs := Vector.replicate 32 0, pc := 0, sup := false, vl := 0, vcfg := 0, estart := 0,
    ctb := 0, fflags := 0, frm := 0, ck := Vector.replicate 4 0, pmcnt := 0, tcfg := Vector.replicate 4 0,
    mownEn := false, vset := [], reply := Config.deviceId, snext := 0, sfloor := 0, preq := false, preqNe := false, pdeadln := 0, pdeadFrac := 0, pm := false,
    tl := false, half := false, hv := false, hdone := 0, async := false, skip := 0, npr := none, tcause := 0, tpc := 0, tval := 0,
    tvec := 0, trec := 0, tscratch := 0, ptroot := 0, ctxsave := 0, lclass := 0, prio := 0, strict := false,
    facc := Vector.replicate 4 0, untracked := 0, masks := Vector.replicate 8 0, poisonMask := 0,
    tiles := Vector.replicate 4 Tile.blank, accs := Vector.replicate 4 Acc.blank, pend := [], ctbDone := 0, transfers := [],
    wait := none, blocked := false, handed := none, gone := none, barad := [], pubs := [], beacons := [],
    cancelled := false, ending := none, drain := [], lwait := none, lwaitFreed := false, wantHeld := false, migrate := none, regionHold := false, readySince := 0, readyOrder := 0, runSince := 0, reopen := [], queues := [], recorded := [],
    replay := [], unfenced := [] }

/-- A tower at reset (R279, R280, R283, R262, R221). -/
def Tower.blank : Tower :=
  { mode := 0, sem := 0, holders := [], comd := Vector.replicate 16 0,
    bars := Vector.replicate 8 { count := 0, arr := 0, gen := 0 }, exposures := [], tpHolder := none, tpData := [],
    tpPoison := [], vbHealth := 0, predictor := [], amoLocal := 0, amoHub := 0, acts := [], granted := 0, left := [], corrected := 0, wires := [],
    failing := [], retired := [] }

/-- Group `g` of a bank at a device reset at `t`: closed, debt 0, first increment staggered as R108 gives. A band that changes
before that increment counts from one tREFIg of band 0 before it (DESIGN CHOICE, log entry 16). No rule gives RPTR a reset value:
0 is the model's (DESIGN CHOICE, log entry 5). -/
def Group.blank (t g : Nat) : Group :=
  { row := none, dirty := false, writable := false, dset := false, va := 0, forced := false, forcing := false, mc := none, debt := 0,
    rptr := 0, opened := 0, free := 0, freeFor := 0, commit := 0, nextInc := t + 31250000 + g * 1953125, lastInc := t + g * 1953125 }

/-- A bank layer at reset: band 0 (R105). -/
def Band.blank : Band := { band := 0, low := none }

/-- An island at reset (R376, R378, R415 step 8). -/
def Island.blank : Island :=
  { level := 0, claim := 0, step := 0, pwr := 0, gate := true, chain := 0, hold7 := false, hold7Region := false,
    cap := false, floor := false, changedAt := 0 }

/-- A sensor at reset: EST, PRED and ALERT 85 degrees (R380). -/
def Sensor.blank : Sensor :=
  { raw := 1360, seen := false, failed := false, stuck := false, range := false, neigh := false, alarm := false, armed := true,
    critArmed := true, alert := 1360, pred := 1360, est := 1360, tracking := true, same := 0, base := 0, moved := false }

/-- A monitor at reset: no source, cleared (R397). -/
def Monitor.blank : Monitor :=
  { source := 0, index := 0, shift := 0, en := false, thresh := 0, mn := BitVec.allOnes 64, mx := 0,
    bins := Vector.replicate 16 0 }

/-- A queue pair with no progress (R403). -/
def QueuePair.blank : QueuePair := 
  { rate := 2 ^ 32, rateAt := 0, lastCnp := none, send := [], writeKey := 0, writeVa := 0, writeLeft := 0 }

/-- The requester ID under which the agenda names Cairn, which has none (R268). -/
def cairnId : Nat := 2 ^ 28

/-- PTROOT of job 0: ASID 0 and the level-5 table of R418. -/
def residentRoot : Word := BitVec.ofNat 64 Config.tableBase

/-- Control hart `n` as start-up leaves it (R418). -/
def Ctx.resident (n : Nat) : Ctx :=
  { Ctx.blank with
    kind := .control, place := n, run := .running, reqid := Config.deviceId * 2 ^ 15 + n, entry := n, rank := n, count := 16,
    regs := ((Vector.replicate 32 0).set 1 (BitVec.ofNat 64 Config.residentBase)).set 2 (BitVec.ofNat 64 n), pc := BitVec.ofNat 64 Config.residentEntry,
    sup := true, prio := 7, lclass := 3, ptroot := residentRoot, tvec := BitVec.ofNat 64 Config.residentTrapEntry,
    trec := BitVec.ofNat 64 (Config.residentBase + 0x1000 + 256 * n),
    ctxsave := BitVec.ofNat 64 (Config.residentBase + 0x10_0000 + 65536 * n) }

/-- Cairn as start-up leaves it, in its firmware. -/
def Ctx.cairn : Ctx :=
  { Ctx.blank with
    kind := .cairn, run := .running, reqid := cairnId, sup := true, pc := BitVec.ofNat 64 Config.firmwareEntry }

/-- Job 0 and its phase 0 and graph 0, open for ever (R418). -/
def Entity.resident (level : Nat) : Entity :=
  { level := level, key := 0, closed := false, done := false, bits := 0, cause := 0, exit := 0, causeAt := 0, exitAt := 0, ptroot := residentRoot }

/-- The launch of job 0 that starts the resident program (R418): PRIO 7, LCLASS D, LP, control harts 0 to 15. -/
def Launch.resident : Launch :=
  { id := 0
    record := leBytes (Config.residentEntry + Config.residentBase * 2 ^ 64 + 0x3F00 * 2 ^ 128 + 0xFFFF * 2 ^ 320 +
      (Config.residentBase + 0x1000) * 2 ^ 384 + (Config.residentBase + 0x10_0000) * 2 ^ 448) 64
    phase := 1, bits := 0, cause := 0, exit := 0, causeAt := 0, exitAt := 0, harts := 16, ended := 0, replays := 0, replaying := false, lostLog := false
    logs := [], tvec := BitVec.ofNat 64 Config.residentTrapEntry, tscratch := 0, strict := false, facc := Vector.replicate 4 0 }

/-- One extension of a measurement (R416): MEAS and the attestation log of at most 256 entries. -/
def extend (m : BitVec 512 × List (BitVec 16 × BitVec 512)) (stage : BitVec 16) (d : List Byte) :
    BitVec 512 × List (BitVec 16 × BitVec 512) :=
  let digest := shake512 d
  (shake512 (leBytes m.1.toNat 64 ++ leBytes digest.toNat 64),
    if m.2.length < 256 then m.2 ++ [(stage, digest)] else m.2)

/-- The image header of a slot (R414): its length is that of the stages, its stage list gives theirs. -/
def Slot.header (x : Slot) : List Byte :=
  Config.headerBytes x.svn x.stages.flatten.length (x.stages.map List.length) x.key

/-- The slot as the module is delivered (R414): signed with the key that the fuses name. -/
def Slot.shipped (n : Nat) : Slot :=
  let x : Slot := { svn := BitVec.ofNat 64 Config.svn, stages := Config.slotStages n, key := Config.signingKey, signature := 0 }
  { x with signature := Config.slhSign x.key (x.header ++ x.stages.flatten) }

/-- Whether a slot's signature over its header and stages verifies under its key (R414, R415 step 1). -/
def Slot.verifies (x : Slot) : Bool :=
  let m := x.header ++ x.stages.flatten
  x.signature == Config.slhSign x.key m || Config.slhAccepts x.key m x.signature

/-- The digest of the signing public key that the fuses hold (R414). -/
def fusedDigest : BitVec 256 := shakeDigest (leBytes Config.signingKey.toNat 64)

/-- The checks of R415 step 1: the key's digest, the signature, and SVN against the fused floor. -/
def Slot.passes (x : Slot) : Bool :=
  shakeDigest (leBytes x.key.toNat 64) == fusedDigest && x.verifies && decide (Config.svnFloor ≤ x.svn.toNat)

/-- Steps 2 and 3 of start-up (R415): the ROM's version, the image header, then every stage before it runs. Log entry 30
names the stage numbers of the log. -/
def Slot.measure (x : Slot) (m : BitVec 512 × List (BitVec 16 × BitVec 512)) : BitVec 512 × List (BitVec 16 × BitVec 512) :=
  ((Config.romVersion :: x.header :: x.stages).foldl (fun e d => (extend e.1 (BitVec.ofNat 16 e.2) d, e.2 + 1)) (m, 0)).1

/-- The slot that start-up loads (R415 step 1): A, and then B where A fails. -/
def Hub.bootSlot (h : Hub) : Option Nat :=
  if h.slots.1.passes then some 0 else if h.slots.2.passes then some 1 else none

/-- A slot by its number. -/
def Hub.slot (h : Hub) (n : Nat) : Slot := if n = 0 then h.slots.1 else h.slots.2

/-- The hub after start-up. -/
def Hub.blank : Hub :=
  { entities := [Entity.resident 3, Entity.resident 2, Entity.resident 1], launches := [Launch.resident], barriers := [], mailbox := [], seqs := [], holds := [], codes := 0, incarnations := [],
    probes := [], beaconed := 0, results := [], records := [], windows := [], talusRefuse := 0, remDrop := 0,
    incarnation := Config.firstIncarnation, channels := [], published := [], pgflush := none, pubforce := [],
    recBase := 0, recLen := 0, recLost := 0, recUsed := 0, paceMem := [], measure := ((Slot.shipped 0).measure (0, [])).1, attLog := ((Slot.shipped 0).measure (0, [])).2, attReq := 0,
    attBusy := false, attDone := false, attErr := false, featLock := false, startStat := 0, slots := (Slot.shipped 0, Slot.shipped 1), booted := 0 }

/-- The host port after start-up (R402). -/
def HostPort.blank : HostPort :=
  { en := false, link := false, qptBase := 0, rgtBase := 0, ip4 := 0, ip6 := 0, cnt := Vector.replicate 10 0, qps := [],
    pausedUntil := 0, waiting := [], out := [] }

/-- Efpo after start-up: device ID written and LOCK set (R415 step 7). -/
def Efpo.blank : Efpo :=
  { devid := BitVec.ofNat 13 Config.deviceId, lock := true, links := 0, tsync := false, cnt := [], out := [], loop := [],
    exchanges := [], nextSeq := 0, slew := 0, lastSync := 0 }

/-- Cairn's registers at reset (R394, R380). -/
def Management.blank : Management :=
  { ie := false, pie := false, ml := false, mcause := 0, mepc := 0, mvec := 0, mie := 0, mip := 0,
    info := Vector.replicate 11 0, sensel := 0, islsel := 0, monsel := 0, logbase := 0, logidx := 0 }

/-- The pace unit at reset: no member (R388). -/
def Pace.blank : Pace :=
  { level := 0, group := 0, en := false, cur := 0, next := 0, pending := false, stamp := 0, number := 0, later := [],
    applied := 0, sentLevel := 0, sentAt := none, joined := 0, coordHeard := 0, degraded := false,
    agreed := 0, agreedNo := 0, requests := [], heard := [], agreements := [], belowSince := none, lastAgreement := 0 }

/-- Permits and governor at reset: POOL 64, START 0 (R386, R387). -/
def Power.blank : Power :=
  { gov := 0, govMoved := 0, estimates := [], peakUntil := none, pool := 64, idle := 0, start := 0, boundary := 0, ticked := 0, boostEn := false,
    dropPending := false }

/-- The machine when start-up completes (R415-R418): sixteen control harts at the resident program's entry, Cairn in its
firmware, every row zero and closed. Values the manual leaves open are those of log entries 2 to 5. -/
def State.reset : State :=
  { cur := Ctx.resident 0,
    others := [Ctx.resident 1, Ctx.resident 2, Ctx.resident 3, Ctx.resident 4, Ctx.resident 5, Ctx.resident 6,
      Ctx.resident 7, Ctx.resident 8, Ctx.resident 9, Ctx.resident 10, Ctx.resident 11, Ctx.resident 12,
      Ctx.resident 13, Ctx.resident 14, Ctx.resident 15, Ctx.cairn],
    mem := [], poison := [], versions := [], cachedUse := [], conflict := [], lineOwner := [], lineHolders := [], towers := [], groups := [], rowQueue := [], waitingIn := [],
    bands := [], tlbs := [], walks := [], hub := Hub.blank, host := HostPort.blank, efpo := Efpo.blank,
    mgmt := Management.blank, islands := Vector.replicate 32 Island.blank, hubLevel := 0, hubGate := true, hubPwr := 0, sensors := [],
    monitors := [], pace := Pace.blank, power := Power.blank, clk := Config.startTime * 1000, resetAt := Config.startTime * 1000, agenda := [], input := .nothing, fresh := 0, stopAt := none, inPort := none }

end Sys2Proof.Machine
end

