-- ==== Sys2Proof/Machine/Mem.lean ====
section
/-! DEFINITION. DRAM as bytes (R26, R415 step 4, R418): what an unlisted address reads as, reading, writing in canonical
form, poison granules (R113, R242) and versions (R247, R248). -/

namespace Sys2Proof.Machine

/-- Memory in canonical form: addresses strictly rising, no entry equal to what an unlisted address reads as. -/
abbrev Memory := List Host.Cell

/-- End of DRAM (R26). -/
def dramEnd : Nat := 2 ^ 40

/-- Start of device-class space (R27). -/
def deviceBase : Nat := 0xF000_0000_0000

/-- The start-up block at the resident region's base (R418), as a number. -/
def startUpBlock : Nat :=
  Config.deviceId + Config.firstIncarnation.toNat * 2 ^ 16 + Config.vregBase * 2 ^ 64 + Config.vregLen * 2 ^ 128 +
    Config.residentConfig * 2 ^ 192 + Config.feat0.toNat * 2 ^ 256

/-- The 8-byte entry that firmware's translation tables hold at an address of the resident region (R418, R361): level 5 at
tableBase, level 4, 3 and 2 in the next pages, and 32 level-3 tables of 1 GiB device leaves. -/
def tableEntry (a : Nat) : Nat :=
  let t := Config.tableBase
  let dev := Config.residentBase + 0x2_0000
  if a = t then t + 0x1001
  else if a = t + 0x1000 then t + 0x2001
  else if t + 0x1F00 ≤ a ∧ a < t + 0x2000 then dev + ((a - (t + 0x1F00)) / 8) * 0x1000 + 1
  else if a = t + 0x2008 then t + 0x3001
  else if t + 0x3000 ≤ a ∧ a < t + 0x3000 + 8 * Config.residentPages then
    Config.residentBase + ((a - (t + 0x3000)) / 8) * 2 ^ 21 + 0x5F
  else if dev ≤ a ∧ a < dev + 0x2_0000 then deviceBase + ((a - dev) / 8) * 2 ^ 30 + 0x97
  else 0

/-- What a byte of DRAM that nothing has written reads as: zero (R415 step 4), but for the start-up block and the tables
that firmware leaves in the resident region (R418). Log entry 3. -/
def background (a : Nat) : Byte :=
  let r := Config.residentBase
  if a < r ∨ r + 0x4_0000 ≤ a then 0
  else if a < r + 64 then BitVec.ofNat 8 (startUpBlock >>> (8 * (a - r)))
  else if a < Config.tableBase then 0
  else BitVec.ofNat 8 (tableEntry (a / 8 * 8) >>> (8 * (a % 8)))

/-- One byte. -/
def Memory.read (m : Memory) (a : Nat) : Byte :=
  match m with
  | [] => background a
  | (k, v) :: r => if k = a then v else Memory.read r a

/-- Reads `n` bytes from `a` out of the entries at and above `a`. -/
def Memory.readFrom (m : Memory) (a : Nat) : Nat → List Byte
  | 0 => []
  | n + 1 =>
    match m with
    | (k, v) :: r => if k = a then v :: Memory.readFrom r (a + 1) n else background a :: Memory.readFrom m (a + 1) n
    | [] => background a :: Memory.readFrom [] (a + 1) n

/-- `n` bytes from `a`. -/
def Memory.readN (m : Memory) (a n : Nat) : List Byte := Memory.readFrom (m.dropWhile (fun c => c.1 < a)) a n

/-- The entries that hold `bs` at `a`: none where the byte is what an unlisted address reads as. -/
def cellsOf (a : Nat) : List Byte → Memory
  | [] => []
  | b :: bs => if b = background a then cellsOf (a + 1) bs else (a, b) :: cellsOf (a + 1) bs

/-- Writes `bs` at `a`. -/
def Memory.writeN (m : Memory) (a : Nat) (bs : List Byte) : Memory :=
  m.takeWhile (fun c => c.1 < a) ++ cellsOf a bs ++ (m.dropWhile (fun c => c.1 < a + bs.length))

/-- The canonical form: strictly rising, and no entry equal to the background. -/
def Memory.wf (m : Memory) : Bool :=
  match m with
  | [] => true
  | (k, v) :: r => v != background k && (match r with
    | [] => true
    | (k', _) :: _ => k < k') && Memory.wf r

/-- The little-endian value of `n` bytes at `a` (R2). -/
def Memory.value (m : Memory) (a n : Nat) : Nat := leValue (Memory.readN m a n)

/-- One byte of DRAM. -/
def State.byte (s : State) (a : Nat) : Byte := Memory.read s.mem a

/-- `n` bytes of DRAM. -/
def State.bytes (s : State) (a n : Nat) : List Byte := Memory.readN s.mem a n

/-- A little-endian number of `n` bytes of DRAM. -/
def State.num (s : State) (a n : Nat) : Nat := Memory.value s.mem a n

/-- Writes bytes of DRAM. -/
def State.poke (s : State) (a : Nat) (bs : List Byte) : State := { s with mem := Memory.writeN s.mem a bs }

/-- Whether a byte range touches a poisoned granule (R242). -/
def poisoned (p : List Nat) (a n : Nat) : Bool := p.any (fun g => a / 32 ≤ g && g * 32 < a + n)

/-- Poison after a write of `n` bytes at `a` of sound data: granules wholly covered are cleared (R113). -/
def clearPoison (p : List Nat) (a n : Nat) : List Nat := p.filter (fun g => !(a ≤ g * 32 && g * 32 + 32 ≤ a + n))

/-- Marks every granule of a byte range poisoned. -/
def setPoison (p : List Nat) (a n : Nat) : List Nat :=
  if n = 0 then p else (List.range ((a + n - 1) / 32 + 1 - a / 32)).foldl (fun q i => insertSorted (a / 32 + i) q) p

/-- The version of a 128-byte line (R247). -/
def versionOf (v : SMap Nat) (line : Nat) : Nat := v.get line 0

/-- One increment of a line's version modulo 2^48 (R248). -/
def bumpVersion (v : SMap Nat) (line : Nat) : SMap Nat :=
  let n := (versionOf v line + 1) % 2 ^ 48
  if n = 0 then v.del line else v.put line n

end Sys2Proof.Machine
end

