-- ==== Sys2Proof/Machine/Base.lean ====
section
/-! DEFINITION. Reading and updating the parts of the state: registers, contexts, towers, groups; how an instruction ends;
the clock (R3, R4, R19) and the activation windows of R103. -/

namespace Sys2Proof.Machine

/-- How a body stops before its end: a trap, the deadlock trap of R295 with the triples of its record, or a wait; the state
kept, or none where nothing has changed. Of a state in which an access waits for a group (R31) only the arrival is kept: a wait
changes nothing else (R5). -/
inductive Stop where
  | trap (code : Nat) (tval : Word) (keep : Option State)
  | cycle (len : Nat) (triples : List Byte) (keep : Option State)
  | hold (keep : Option State)
  | arrive (t : State)

/-- The body of an instruction: a state transformer that may stop. -/
abbrev M (α : Type) := StateT State (Except Stop) α

/-- Trap(class x 16 + subcode) with TVAL; the instruction leaves the state unchanged. -/
def trapM {α : Type} (cls sub : Nat) (tval : Word) : M α := fun _ => .error (.trap (cls * 16 + sub) tval none)

/-- The same by cause code. -/
def trapCode {α : Type} (code : Nat) (tval : Word) : M α := fun _ => .error (.trap code tval none)

/-- A trap that keeps the progress made so far (R5 traps, R161). -/
def trapKeep {α : Type} (cls sub : Nat) (tval : Word) : M α := fun s => .error (.trap (cls * 16 + sub) tval (some s))

/-- StallUntil a condition that does not hold now: nothing changes (R5, R8). -/
def holdM {α : Type} : M α := fun _ => .error (.hold none)

/-- A wait that keeps what it has registered (R291). -/
def holdKeep {α : Type} : M α := fun s => .error (.hold (some s))

/-- Traps when a check fails. -/
def checkM (ok : Bool) (cls sub : Nat) (tval : Word) : M Unit := if ok then pure () else trapM cls sub tval

/-- Waits until a condition holds. -/
def waitUntil (ok : Bool) : M Unit := if ok then pure () else holdM

/-! ### Registers -/

/-- The scalar a field names; s0 reads as zero (R44). -/
def Ctx.reg (c : Ctx) (v : BitVec 6) : Word :=
  if v = 0 then 0 else c.regs[v.toNat % 32]'(Nat.mod_lt _ (by decide))

/-- Writes a scalar; s0 ignores writes (R44). -/
def Ctx.setReg (c : Ctx) (v : BitVec 6) (w : Word) : Ctx :=
  if v = 0 then c else { c with regs := c.regs.set (v.toNat % 32) w (Nat.mod_lt _ (by decide)) }

/-- Changes the current context. -/
def State.setCur (s : State) (f : Ctx → Ctx) : State := { s with cur := f s.cur }

/-- The current hart's scalar. -/
def State.reg (s : State) (v : BitVec 6) : Word := s.cur.reg v

/-- Writes the current hart's scalar. -/
def State.setReg (s : State) (v : BitVec 6) (w : Word) : State := { s with cur := s.cur.setReg v w }

/-- A mask register; k0 reads as all ones (R142). -/
def Ctx.mask (c : Ctx) (n : Nat) : BitVec 8192 :=
  if n = 0 then BitVec.allOnes 8192 else c.masks[n % 8]'(Nat.mod_lt _ (by decide))

/-- Writes mask register `n`. -/
def Ctx.setMask (c : Ctx) (n : Nat) (v : BitVec 8192) : Ctx :=
  { c with masks := c.masks.set (n % 8) v (Nat.mod_lt _ (by decide)) }

/-- Tile `n`. -/
def Ctx.tile (c : Ctx) (n : Nat) : Tile := c.tiles[n % 4]'(Nat.mod_lt _ (by decide))

/-- Replaces tile `n`. -/
def Ctx.setTile (c : Ctx) (n : Nat) (t : Tile) : Ctx := { c with tiles := c.tiles.set (n % 4) t (Nat.mod_lt _ (by decide)) }

/-- Accumulator `n`. -/
def Ctx.acc (c : Ctx) (n : Nat) : Acc := c.accs[n % 4]'(Nat.mod_lt _ (by decide))

/-- Replaces accumulator `n`. -/
def Ctx.setAcc (c : Ctx) (n : Nat) (a : Acc) : Ctx := { c with accs := c.accs.set (n % 4) a (Nat.mod_lt _ (by decide)) }

/-- CKn. -/
def Ctx.ckN (c : Ctx) (n : Nat) : BitVec 128 := c.ck[n % 4]'(Nat.mod_lt _ (by decide))

/-- Replaces CKn. -/
def Ctx.setCk (c : Ctx) (n : Nat) (v : BitVec 128) : Ctx := { c with ck := c.ck.set (n % 4) v (Nat.mod_lt _ (by decide)) }

/-- TCFGn. -/
def Ctx.tcfgN (c : Ctx) (n : Nat) : Word := c.tcfg[n % 4]'(Nat.mod_lt _ (by decide))

/-- Entry `n` of a vector of words, 0 past its end. -/
def vget {n : Nat} (v : Vector Word n) (i : Nat) : Word := if h : i < n then v[i] else 0

/-- Replaces entry `i` of a vector. -/
def vput {n : Nat} (v : Vector Word n) (i : Nat) (w : Word) : Vector Word n := v.setIfInBounds i w

/-! ### Contexts -/

/-- The context with a requester ID, among those that have not ended. -/
def State.ctx? (s : State) (id : Nat) : Option Ctx :=
  if s.cur.reqid = id ∧ s.cur.run ≠ .ended then some s.cur
  else s.others.find? (fun c => c.reqid == id && c.run != .ended)

/-- Changes the context with a requester ID. -/
def State.mapCtx (s : State) (id : Nat) (f : Ctx → Ctx) : State :=
  if s.cur.reqid = id ∧ s.cur.run ≠ .ended then { s with cur := f s.cur }
  else { s with others := s.others.map (fun c => if c.reqid == id && c.run != .ended then f c else c) }

/-- Changes every context. -/
def State.mapAll (s : State) (f : Ctx → Ctx) : State := { s with cur := f s.cur, others := s.others.map f }

/-- Every live context. -/
def State.live (s : State) : List Ctx := (s.cur :: s.others).filter (fun c => c.run != .ended)

/-- Gives a context the turn, keeping the context that had it. -/
def State.switchTo (s : State) (id : Nat) : State :=
  if s.cur.reqid = id ∧ s.cur.run ≠ .ended then s else
  match s.others.find? (fun c => c.reqid == id && c.run != .ended) with
  | none => s
  | some c =>
    let rest := s.others.filter (fun d => !(d.reqid == id))
    { s with cur := c, others := if s.cur.run = .ended then rest else s.cur :: rest }

/-- This device's ID (R412). -/
def State.devId (s : State) : Nat := s.efpo.devid.toNat

/-- Whether a context has left to run on another device (R268). -/
def State.away (s : State) (c : Ctx) : Bool := c.run = .held && c.reply != s.devId

/-- Below(s, f) (R269). -/
def below (s f : BitVec 32) : Bool := 1 ≤ (f - s).toNat && (f - s).toNat ≤ 2 ^ 31

/-- Whether a transfer carries a serial and is outstanding (R269, R409). -/
def Transfer.serialOut (t : Transfer) : Bool :=
  !t.failed && (match t.work with
    | .remote _ _ _ _ _ _ _ _ => true
    | .copy _ _ side _ _ => side != 0
    | _ => false)

/-- SFLOOR: the lowest serial outstanding, or SNEXT (R269). -/
def Ctx.refloor (c : Ctx) : Ctx :=
  { c with sfloor := (c.transfers.filter (fun t => t.serialOut)).foldl (fun f t => if below t.serial f then t.serial else f) c.snext }

/-! ### Towers, groups, bands -/

/-- Global tower `t`. -/
def State.tower (s : State) (t : Nat) : Tower := s.towers.get t Tower.blank

/-- Changes global tower `t`. -/
def State.setTower (s : State) (t : Nat) (f : Tower → Tower) : State := { s with towers := s.towers.put t (f (s.tower t)) }

/-- The key of a group. -/
def groupKey (t b g : Nat) : Nat := t * 256 + b * 16 + g

/-- A group by key. -/
def State.group (s : State) (k : Nat) : Group := s.groups.get k (Group.blank s.resetAt (k % 16))

/-- Changes a group. -/
def State.setGroup (s : State) (k : Nat) (f : Group → Group) : State := { s with groups := s.groups.put k (f (s.group k)) }

/-- The group key of a DRAM address (R26). -/
def groupOf (pa : Nat) : Nat := fld pa 23 17

/-- The row within its group of a DRAM address (R26). -/
def rowOf (pa : Nat) : Nat := fld pa 13 10

/-- The first byte of row `r` of group `k` (R26). -/
def rowBase (k r : Nat) : Nat := k * 2 ^ 23 + r * 2 ^ 13

/-- The band of a group's bank (R105). -/
def State.bandOf (s : State) (k : Nat) : Nat := (s.bands.get (k / 2 ^ 14 * 16 + k / 16 % 16) Band.blank).band

/-- tREFIg in ps of a band (R105). -/
def refreshInterval (band : Nat) : Nat := if band = 0 then 31250000 else if band = 1 then 15625000 else 7812500

/-- The island of a tower (R20). -/
def islandOf (t : Nat) : Nat := t / 16

/-- An island's record. -/
def State.island (s : State) (i : Nat) : Island := s.islands[i % 32]'(Nat.mod_lt _ (by decide))

/-- Changes an island. -/
def State.setIsland (s : State) (i : Nat) (f : Island → Island) : State :=
  { s with islands := s.islands.set (i % 32) (f (s.island i)) (Nat.mod_lt _ (by decide)) }

/-- The arithmetic clock of a step in units of 0.1 GHz (R373). -/
def stepClock (step : Nat) : Nat :=
  match step with
  | 0 => 36
  | 1 => 39
  | _ => 42

/-- A tower's arithmetic clock in units of 0.1 GHz (R373). -/
def State.clock (s : State) (t : Nat) : Nat := stepClock (s.island (islandOf t)).step

/-- The clock that counts a context's cycles: its tower's; the nominal one off a tower (log entry 6). -/
def State.clockOf (s : State) (c : Ctx) : Nat := if c.kind = .tower then s.clock c.place else 36

/-- ceil(t x f): the cycles of an interval in ps (R4). -/
def cyclesOf (ps f : Nat) : Nat := ceilDiv (ps * f) 10000

/-- The length in ps of an interval that is counted in cycles (R4). -/
def countedPs (ps f : Nat) : Nat := ceilDiv (cyclesOf ps f * 10000) f

/-- When an interval of `ps` that began at `start` on tower `t` ends: its count of cycles, reloaded with what is left of the
interval when the clock changed (R4, R103). -/
def State.ends (s : State) (t start ps : Nat) : Nat :=
  let ch := (s.island (islandOf t)).changedAt
  if ch ≤ start then start + countedPs ps (s.clock t)
  else ch + countedPs (start + ps - ch) (s.clock t)

/-! ### Time -/

/-- TIME: device time in ns (R19). -/
def State.time (s : State) : Word := BitVec.ofNat 64 (s.clk / 1000)

/-- PDEADLN of a running context after `ps` at a clock of `f` x 0.1 GHz (R337): it stops at 0. -/
def Ctx.tick (c : Ctx) (ps f : Nat) : Ctx :=
  if c.preq && c.run = .running && c.npr.isNone then
    let u := c.pdeadFrac + ps * f
    if c.pdeadln ≤ u / 10000 then { c with pdeadln := 0, pdeadFrac := 0 }
    else { c with pdeadln := c.pdeadln - u / 10000, pdeadFrac := u % 10000 }
  else c

/-- PDEADLN when the clock goes from `f` to `g`: the time that remains is never shortened (R4, R337). -/
def Ctx.reclock (c : Ctx) (f g : Nat) : Ctx :=
  { c with pdeadln := ceilDiv ((c.pdeadln * 10000 - c.pdeadFrac) * g) (f * 10000), pdeadFrac := 0 }

/-- Moves an island to a clock step, rescaling the counts that run (R4, R337, R373). -/
def State.setStep (s : State) (n step : Nat) : State :=
  let f := stepClock (s.island n).step
  if (s.island n).step = step then s else
  (s.setIsland n (fun i => { i with step := step, changedAt := s.clk })).mapAll (fun c =>
    if c.kind = .tower && islandOf c.place = n % 32 then c.reclock f (stepClock step) else c)

/-- Lets device time pass, slewing by at most 100 parts per million (R413). -/
def State.passTime (s : State) (ps : Nat) : State :=
  if ps = 0 then s else
  let lim : Int := ps / 10000
  let d := if s.efpo.slew > lim then lim else if s.efpo.slew < -lim then -lim else s.efpo.slew
  let s := s.mapAll (fun c => c.tick ps (s.clockOf c))
  { s with clk := ((s.clk : Int) + ps + d).toNat, efpo := { s.efpo with slew := s.efpo.slew - d } }

/-- Waits for a moment of device time. -/
def State.waitTo (s : State) (t : Nat) : State := 
  if s.clk < t then { s.mapAll (fun c => c.tick (t - s.clk) (s.clockOf c)) with clk := t } else s

/-- When tRP or tRFCg of a group has passed (R103). -/
def State.freeAt (s : State) (k : Nat) : Nat := s.ends (k / 256) (s.group k).free (s.group k).freeFor

/-- When a group may close: tRAS from its opening and tWR from its last commit point (R98, R103). -/
def State.closeAt (s : State) (k : Nat) : Nat :=
  Nat.max (s.ends (k / 256) (s.group k).opened 28000) (s.ends (k / 256) (s.group k).commit 10000)

/-- When the row of a group may first be read or written: tAU from its opening (R97, R103). -/
def State.usableAt (s : State) (k : Nat) : Nat := s.ends (k / 256) (s.group k).opened 13500

/-- Earliest start of an activation of a group: its own interval, tRRDg, tRRDb and tFAW (R103). -/
def State.activationAt (s : State) (k : Nat) : Nat :=
  let acts := (s.tower (k / 256)).acts
  let t := acts.foldl (fun t a => Nat.max t (
    if a.2.1 = k / 16 % 16 then (if a.2.2 = k % 16 then t else s.ends (k / 256) a.1 3000) else s.ends (k / 256) a.1 2000)) (s.freeAt k)
  match acts[3]? with
  | some a => Nat.max t (s.ends (k / 256) a.1 32000)
  | none => t

/-- Starts an activation of a group as soon as R103 allows, waiting for it (R104). -/
def State.activate (s : State) (k : Nat) : State :=
  let t := k / 256
  let at_ := Nat.max s.clk (s.activationAt k)
  (s.waitTo at_).setTower t (fun w => { w with acts := ((at_, k / 16 % 16, k % 16) :: w.acts).take 4 })

/-! ### Free values -/

/-- Draws a fresh index for a free value (log entry 8). -/
def State.draw (s : State) : Nat × State := (s.fresh, { s with fresh := s.fresh + 1 })

/-! ### Cirque: holds and effective priority -/

/-- The holders recorded for an object (R292). -/
def State.holders (s : State) (o : ObjKey) : List Nat :=
  match s.hub.holds.find? (fun h => h.obj == o) with
  | some h => h.holders
  | none => []

/-- Changes the hub. -/
def State.setHub (s : State) (f : Hub → Hub) : State := { s with hub := f s.hub }

/-- Removes one hold, and the object entry when neither holder nor waiter is left. -/
def State.dropHold (s : State) (o : ObjKey) (id : Nat) : State :=
  s.setHub (fun h => { h with holds := (h.holds.map (fun e =>
    if e.obj == o then { e with holders := e.holders.filter (· != id), declared := e.declared.filter (· != id) } else e)).filter (fun e => !e.holders.isEmpty) })

/-- Records a holder. -/
def State.addHold (s : State) (o : ObjKey) (id : Nat) : State :=
  if (s.holders o).contains id then s
  else if s.hub.holds.any (fun h => h.obj == o) then
    s.setHub (fun h => { h with holds := h.holds.map (fun e => if e.obj == o then { e with holders := e.holders ++ [id] } else e) })
  else s.setHub (fun h => { h with holds := h.holds ++ [{ obj := o, holders := [id], declared := [] }] })

/-- Marks a recorded hold as declared by whold (R292). -/
def State.declareHold (s : State) (o : ObjKey) (id : Nat) : State :=
  s.setHub (fun h => { h with holds := h.holds.map (fun e => if e.obj == o then { e with declared := e.declared ++ [id] } else e) })

/-- Whether whold declared a context's hold of an object (R292). -/
def State.declared (s : State) (o : ObjKey) (id : Nat) : Bool :=
  s.hub.holds.any (fun h => h.obj == o && h.declared.contains id)

/-- Ends a hold that a semaphore instruction or lkw recorded; one declared by whold stays (R292). -/
def State.endHold (s : State) (o : ObjKey) (id : Nat) : State := if s.declared o id then s else s.dropHold o id

/-- The objects a context holds. -/
def State.held (s : State) (id : Nat) : List ObjKey :=
  (s.hub.holds.filter (fun h => h.holders.contains id)).map (fun h => h.obj)

/-- Effective priority along at most `n` edges (R294). -/
def State.eprioN (s : State) (id : Nat) : Nat → Nat
  | 0 => match s.ctx? id with
    | some c => c.prio
    | none => 0
  | n + 1 =>
    let own := match s.ctx? id with
      | some c => c.prio
      | none => 0
    s.live.foldl (fun p c => match c.wait with
      | some w => if w.tracked && (s.holders w.obj).contains id then Nat.max p (s.eprioN c.reqid n) else p
      | none => p) own

/-- Effective priority (R294). -/
def State.eprio (s : State) (id : Nat) : Nat := s.eprioN id 16

/-- The better of two waiters: higher effective priority, then longer wait (R281). -/
def State.better (s : State) (a b : Ctx) : Bool :=
  let pa := s.eprio a.reqid
  let pb := s.eprio b.reqid
  let sa := match a.wait with
    | some w => w.since
    | none => 0
  let sb := match b.wait with
    | some w => w.since
    | none => 0
  pb < pa || (pa == pb && sa ≤ sb)

/-- The waiter an object passes to, among contexts that wait on it (R281, R289, R324). -/
def State.bestWaiter (s : State) (p : Ctx → Bool) : Option Ctx :=
  (s.live.filter p).foldl (fun best c => match best with
    | none => some c
    | some b => some (if s.better b c then b else c)) none

/-- Whether a context waits on an object with a wait of the kind. -/
def Ctx.waitsOn (c : Ctx) (k : WaitKind) (o : ObjKey) : Bool :=
  match c.wait with
  | some w => w.kind == k && w.obj == o
  | none => false

/-- The place of a context that becomes ready now in the order of R318. -/
def State.nextReady (s : State) : Nat := s.live.foldl (fun n c => Nat.max n (c.readyOrder + 1)) 0

/-- A context that is not running becomes ready (R318). -/
def Ctx.readied (c : Ctx) (now order : Nat) : Ctx :=
  if c.run = .running then c else { c with readySince := now, readyOrder := order }

/-- A context with one more pending trap (R328). A wait is abandoned for a trap that can be taken, so a context that was blocked and is
not running becomes ready with its first (R291, R318). -/
def Ctx.alarm (c : Ctx) (p : Pending) (now order : Nat) : Ctx :=
  let d := { c with pend := c.pend ++ [p] }
  if c.blocked && c.pend.isEmpty && !c.tl then d.readied now order else d

/-- Makes an asynchronous trap pending for a context (R328). -/
def State.pendFor (s : State) (id : Nat) (p : Pending) : State := s.mapCtx id (fun c => c.alarm p s.clk s.nextReady)

/-- Marks a context's wait as woken. -/
def State.wake (s : State) (id : Nat) : State :=
  s.mapCtx id (fun c =>
    Ctx.readied { c with wait := c.wait.map (fun w => { w with woken := true }), blocked := false } s.clk s.nextReady)

/-- The object of the job mailbox (R292). -/
def mailboxObj : ObjKey := { cls := 5, key := 0 }

/-- JOB of a LAUNCHID (R302). -/
def jobOf (launch : Word) : Nat := fld launch.toNat 48 16

/-- Whether a wait has been woken. -/
def Ctx.wokenUp (c : Ctx) : Bool := (c.wait.map (fun w => w.woken)).getD false

/-- Whether a context waits for a message, or has been woken for one and has not taken it yet (R324). -/
def Ctx.awaitsMessage (c : Ctx) : Bool := c.waitsOn .jrecv mailboxObj && (c.blocked || c.wokenUp)

/-- As many receivers of a job are woken as messages are queued for it, the best first (R324). -/
def State.tellReceivers (s : State) (job : Nat) : State :=
  let waits := fun (c : Ctx) => c.awaitsMessage && jobOf c.launch = job
  let queued := (s.hub.mailbox.filter (fun m => m.job == job)).length
  let woken := (s.live.filter (fun c => waits c && c.wokenUp)).length
  (List.range (queued - woken)).foldl (fun s _ => match s.bestWaiter (fun c => waits c && !c.wokenUp) with
    | some c => s.wake c.reqid
    | none => s) s

end Sys2Proof.Machine
end

