-- ==== Sys2Proof/Machine/Translate.lean ====
section
/-! DEFINITION. Address translation (R358-R371): the walk, permissions, the A and D bits, the contiguous hint, TLBs and
walk caches, and Cairn's physical addresses. -/

namespace Sys2Proof.Machine

/-- acc of R362. -/
inductive AccKindT where
  | read
  | write
  | readWrite
  | fetch
  deriving DecidableEq, Repr

/-- What a walk returns (R362), with the address of the leaf entry. -/
structure Leaf where
  pa : Nat
  mt : Nat
  r : Bool
  w : Bool
  x : Bool
  ver : Bool
  chk : Bool
  d : Bool
  entry : Nat
  deriving DecidableEq, Repr, Inhabited

/-- ROW, CACHED and DEV as MT (R30). -/
def mtRow : Nat := 0
def mtCached : Nat := 1
def mtDev : Nat := 2

/-- Lines of a byte range. -/
def linesOf (pa n : Nat) : List Nat := if n = 0 then [] else (List.range ((pa + n - 1) / 128 + 1 - pa / 128)).map (· + pa / 128)

/-- A write without a translation that says VER = 1 (Cairn's, a log's, a Traverse move's, a walker's, the host port's own) increments
the versions of the lines of the version region that it modifies (R248, R371). -/
def State.bumpRegion (s : State) (a n : Nat) : State :=
  if Config.vregBase < a + n && a < Config.vregBase + Config.vregLen then
    let ls := (linesOf a n).filter (fun l => Config.vregBase ≤ l * 128 && l * 128 < Config.vregBase + Config.vregLen)
    { s with versions := ls.foldl bumpVersion s.versions }
  else s

/-- A write of bytes that needs no translation, with its versions (R248). -/
def State.pokeBumped (s : State) (a : Nat) (bs : List Byte) : State := (s.poke a bs).bumpRegion a bs.length

/-- Records how a page is accessed and whether its ROW and CACHED uses conflict (R33). -/
def State.noteUse (s : State) (pa mt : Nat) : State :=
  let p := pa / 4096
  if mt = mtCached then
    let s := if s.cachedUse.contains p then s else { s with cachedUse := insertSorted p s.cachedUse }
    if (s.group (groupOf pa)).row = some (rowOf pa) then { s with conflict := insertSorted p s.conflict } else s
  else if s.cachedUse.contains p then { s with conflict := insertSorted p s.conflict } else s

/-- A number of `n` bytes of DRAM: of a page in conflict, free (R33). -/
def State.plainNum (s : State) (a n : Nat) : Nat :=
  if s.conflict.contains (a / 4096) then leValue ((List.range n).map (fun i => Config.conflictByte s.fresh (a + i))) else s.num a n

/-- An entry that a table walk reads (R360). -/
def State.walkNum (s : State) (a : Nat) : Nat := s.plainNum a 8

/-- Cause code of Fault(n, k) (R362). -/
def walkFault (n k : Nat) : Nat := (9 - n) * 16 + k

/-- The TLB units a context's front end walks through, nearest first (R367): 0-511 tower, 512-519 stack, 520-535 control
hart, 536 hub. -/
def tlbUnits (c : Ctx) : List Nat :=
  match c.kind with
  | .tower => [c.place, 512 + c.place / 64]
  | .control => [520 + c.place, 536]
  | .cairn => []

/-- Capacity of a unit's TLB (R367). -/
def tlbSize (u : Nat) : Nat := if u < 512 ∨ (520 ≤ u ∧ u < 536) then 64 else 2048

/-- The entry of a TLB that maps an address. -/
def tlbFind (es : List TlbEntry) (asid va : Nat) : Option TlbEntry :=
  es.find? (fun e => e.asid == asid && va / 2 ^ e.bits == e.va / 2 ^ e.bits)

/-- The leaf entry a held TLB entry gives for an address: its value, its address and its size in bits. -/
def TlbEntry.leafAt (e : TlbEntry) (va : Nat) : Option (Nat × Nat × Nat) :=
  (e.leaves[(if e.bits = 16 then va / 4096 % 16 else 0)]?).map (fun p => (p.1, p.2, if e.bits = 16 then 12 else e.bits))

/-- The table that an entry which is no leaf names (R361). -/
def nextTable (e : Nat) : Nat := fld e 12 36 * 4096

/-- The entry at an address, read and checked at a level (R362). The entries of a page in conflict are free (R33, R360). -/
def State.walkEntry (s : State) (lvl ea : Nat) : Except Nat Nat :=
  if poisoned s.poison ea 8 then .error (walkFault lvl 12) else
  let e := s.walkNum ea
  let leaf := bitAt e 4
  if !bitAt e 0 then .error (walkFault lvl 0)
  else if bitAt e 63 || fld e 48 8 != 0 || fld e 6 2 = 3 || (!leaf && (fld e 1 3 != 0 || fld e 5 7 != 0)) ||
      (leaf && bitAt e 5 && lvl != 1) then .error (walkFault lvl 1)
  else if (leaf && 3 < lvl) || (!leaf && lvl = 1) then .error (walkFault lvl 2)
  else if !leaf && dramEnd ≤ nextTable e then .error (walkFault lvl 11)
  else .ok e

/-- The entry of a walk cache for a level of an address (R367). -/
def walkCached (asid va : Nat) (wc : List WalkEntry) (lvl : Nat) : Option WalkEntry :=
  wc.find? (fun w => w.asid == asid && w.level == lvl && w.idx == va / 2 ^ (12 + 9 * (lvl - 1)))

/-- Address of the entry of a level in a table (R358). -/
def entryAddr (va lvl t : Nat) : Nat := t + 8 * fld va (12 + 9 * (lvl - 1)) 9

/-- One level of the walk and the levels below it (R362): the level, address and value of the leaf entry, and the
non-leaf entries read. -/
def State.walkFrom (s : State) (asid va : Nat) (wc : List WalkEntry) :
    Nat → Nat → List WalkEntry → Except Nat (Nat × Nat × Nat × List WalkEntry)
  | 0, _, _ => .error (walkFault 1 2)
  | n + 1, t, seen =>
    match walkCached asid va wc (n + 1) with
    | some w => State.walkFrom s asid va wc n w.table (seen ++ [w])
    | none =>
      let ea := entryAddr va (n + 1) t
      match s.walkEntry (n + 1) ea with
      | .error c => .error c
      | .ok e =>
        if bitAt e 4 then .ok (n + 1, ea, e, seen)
        else State.walkFrom s asid va wc n (nextTable e)
          (seen ++ [{ asid := asid, level := n + 1, idx := va / 2 ^ (12 + 9 * n), table := nextTable e }])

/-- The addresses of the entries that a walk reads, whether it ends in a leaf or in a fault. -/
def State.walkReads (s : State) (asid va : Nat) (wc : List WalkEntry) : Nat → Nat → List Nat
  | 0, _ => []
  | n + 1, t =>
    match walkCached asid va wc (n + 1) with
    | some w => State.walkReads s asid va wc n w.table
    | none =>
      let ea := entryAddr va (n + 1) t
      ea :: (match s.walkEntry (n + 1) ea with
        | .error _ => []
        | .ok e => if bitAt e 4 then [] else State.walkReads s asid va wc n (nextTable e))

/-- The check of a contiguous block of 16 entries (R366). -/
def State.contiguousOk (s : State) (ea : Nat) : Bool :=
  let base := ea / 128 * 128
  let e0 := s.walkNum base
  let p0 := fld e0 12 36
  p0 % 16 = 0 && (List.range 16).all (fun i =>
    let e := s.walkNum (base + 8 * i)
    bitAt e 0 && bitAt e 4 && bitAt e 5 && fld e 0 10 = fld e0 0 10 && fld e 48 16 = fld e0 48 16 && fld e 12 36 = p0 + i)

/-- The leaf checks of R362, after the walk: memory type, target, version region. -/
def leafFault (lvl e va : Nat) : Option Nat :=
  let sz := 12 + 9 * (lvl - 1)
  let mt := fld e 6 2
  let base := e / 2 ^ sz % 2 ^ (48 - sz) * 2 ^ sz
  let pa := base + va % 2 ^ sz
  if fld e 12 (sz - 12) != 0 then some (walkFault lvl 3)
  else if deviceBase ≤ pa ∧ mt ≠ mtDev then some (walkFault lvl 4)
  else if pa < dramEnd ∧ mt = mtDev then some (walkFault lvl 4)
  else if dramEnd ≤ pa ∧ pa < deviceBase then some (walkFault lvl 5)
  else if (bitAt e 8 || bitAt e 9) && mt != mtCached then some (walkFault lvl 4)
  else if bitAt e 8 && !(Config.vregBase ≤ base && base + 2 ^ sz ≤ Config.vregBase + Config.vregLen) then some (walkFault lvl 4)
  else if base < Config.vstBase + Config.vstLen && Config.vstBase < base + 2 ^ sz then some (walkFault lvl 4)
  else none

/-- The permission checks of R363. -/
def permFault (lvl e : Nat) (acc : AccKindT) : Option Nat :=
  match acc with
  | .read => if bitAt e 1 then none else some (walkFault lvl 6)
  | .write => if bitAt e 2 then none else some (walkFault lvl 7)
  | .readWrite => if !bitAt e 1 then some (walkFault lvl 6) else if !bitAt e 2 then some (walkFault lvl 7) else none
  | .fetch => if !bitAt e 3 then some (walkFault lvl 8) else if fld e 6 2 != mtCached then some (walkFault lvl 13) else none

/-- Whether the access writes, and so sets D (R365). -/
def AccKindT.writes (acc : AccKindT) : Bool := acc = .write || acc = .readWrite

/-- The leaf an entry of a level gives for an address. -/
def leafOf (lvl ea e va : Nat) : Leaf :=
  let sz := 12 + 9 * (lvl - 1)
  { pa := e / 2 ^ sz % 2 ^ (48 - sz) * 2 ^ sz + va % 2 ^ sz, mt := fld e 6 2, r := bitAt e 1, w := bitAt e 2, x := bitAt e 3,
    ver := bitAt e 8, chk := bitAt e 9, d := bitAt e 11, entry := ea }

/-- Level of a leaf of a size in bits. -/
def levelOfBits (b : Nat) : Nat := if b = 30 then 3 else if b = 21 then 2 else 1

/-- Fills the TLBs and walk caches of the units after a walk (R367). -/
def State.fillTlb (s : State) (units : List Nat) (ent : TlbEntry) (seen : List WalkEntry) : State :=
  units.foldl (fun s u =>
    let old := (s.tlbs.get u []).filter (fun e => !(e.asid == ent.asid && e.va == ent.va && e.bits == ent.bits))
    let s := { s with tlbs := s.tlbs.put u ((ent :: old).take (tlbSize u)) }
    if u < 512 ∨ (520 ≤ u ∧ u < 536) then
      let new := seen.filter (fun w => !((s.walks.get u []).contains w))
      { s with walks := s.walks.put u ((new ++ s.walks.get u []).take 32) }
    else s) s

/-- The walk cache that a walk through TLB units begins at (R367). -/
def State.walksOf (s : State) (units : List Nat) : List WalkEntry :=
  match units with
  | u :: _ => s.walks.get u []
  | [] => []

/-- The entries that the walk of an address reads are accessed as CACHED memory (R33, R360). -/
def State.noteWalk (s : State) (units : List Nat) (root va : Word) : State :=
  let t := fld root.toNat 12 36 * 4096
  if dramEnd ≤ t then s else
  (s.walkReads (fld root.toNat 48 16) (fld va.toNat 0 57) (s.walksOf units) 5 t).foldl (fun s a => State.noteUse s a mtCached) s

/-- Translate(va, acc) under a PTROOT through the given TLB units (R362-R367): the leaf and the state with A and D set, or
a cause code. -/
def State.translateAt (s : State) (units : List Nat) (root : Word) (va : Word) (acc : AccKindT) : Except Nat (Leaf × State) :=
  let v := va.toNat
  let a := fld v 0 57
  let asid := fld root.toNat 48 16
  if fld v 57 7 != (if bitAt v 56 then 127 else 0) then .error (walkFault 5 9) else
  let held := units.foldl (fun r u => match r with
    | some x => some x
    | none => match tlbFind (s.tlbs.get u []) asid a with
      | some e => match e.leafAt a with
        | some (x, ea, b) => if bitAt x 10 && (!acc.writes || bitAt x 11) then some (levelOfBits b, ea, x) else none
        | none => none
      | none => none) (none : Option (Nat × Nat × Nat))
  match held with
  | some (lvl, ea, e) => match permFault lvl e acc with
    | some c => .error c
    | none => .ok (leafOf lvl ea e a, s)
  | none =>
    let t := fld root.toNat 12 36 * 4096
    if dramEnd ≤ t then .error (walkFault 5 11) else
    match s.walkFrom asid a (s.walksOf units) 5 t [] with
    | .error c => .error c
    | .ok (lvl, ea, e, seen) =>
      match leafFault lvl e a with
      | some c => .error c
      | none =>
        if lvl = 1 && bitAt e 5 && poisoned s.poison (ea / 128 * 128) 128 then .error (walkFault 1 12) else
        if lvl = 1 && bitAt e 5 && !s.contiguousOk ea then .error (walkFault 1 10) else
        match permFault lvl e acc with
        | some c => .error c
        | none =>
          let e2 := e ||| 1 <<< 10 ||| (if acc.writes then 1 <<< 11 else 0)
          let s := s.noteWalk units root va
          let s2 := if e2 = e then s else s.pokeBumped ea (leBytes e2 8)
          let bits := if lvl = 1 && bitAt e 5 then 16 else 12 + 9 * (lvl - 1)
          let leaves := if bits = 16 then
              (List.range 16).map (fun i => (s2.walkNum (ea / 128 * 128 + 8 * i), ea / 128 * 128 + 8 * i))
            else [(e2, ea)]
          .ok (leafOf lvl ea e2 a, s2.fillTlb units { asid := asid, va := a / 2 ^ bits * 2 ^ bits, bits := bits, leaves := leaves } seen)

/-- Cairn's addresses are physical (R371). -/
def cairnLeaf (va : Word) : Except Nat Leaf :=
  let v := va.toNat
  if fld v 48 16 != 0 then .error (walkFault 5 9)
  else if dramEnd ≤ v ∧ v < deviceBase then .error (15 * 16)
  else .ok { pa := v, mt := if v < dramEnd then mtCached else mtDev, r := true, w := true, x := true, ver := false, chk := false,
             d := true, entry := 0 }

/-- Translation for the current hart. -/
def State.translate (s : State) (va : Word) (acc : AccKindT) : Except Nat (Leaf × State) :=
  if s.cur.kind = .cairn then
    match cairnLeaf va with
    | .error c => .error c
    | .ok l => if acc = .fetch && l.mt != mtCached then .error (15 * 16) else .ok (l, s)
  else s.translateAt (tlbUnits s.cur) s.cur.ptroot va acc

/-- A state in which nothing is left of what was done in another but the uses of pages (R33). -/
def State.usesOf (s t : State) : State := { s with cachedUse := t.cachedUse, conflict := t.conflict }

/-- Where a translation of the current hart faults, its walk has read the entries up to the fault (R360). -/
def State.noteFault (s : State) (code : Nat) (va : Word) : State :=
  if s.cur.kind != .cairn && 4 ≤ code / 16 && code / 16 ≤ 8 then s.noteWalk (tlbUnits s.cur) s.cur.ptroot va else s

/-- Translation in a body: a fault traps with TVAL the address (R358). -/
def translateM (va : Word) (acc : AccKindT) : M Leaf := fun s =>
  match s.translate va acc with
  | .error c => .error (.trap c va none)
  | .ok (l, s2) => .ok (l, s2)

/-- Translation on another agent's behalf (R215, R264, R404). -/
def translateFor (units : List Nat) (root va : Word) (acc : AccKindT) : State → Except Nat (Leaf × State) :=
  fun s => s.translateAt units root va acc

/-- Drops the entries a tlbi names from every TLB and walk cache (R370). -/
def State.dropTranslations (s : State) (leafHit : TlbEntry → Bool) (walkHit : WalkEntry → Bool) : State :=
  { s with tlbs := s.tlbs.map (fun p => (p.1, p.2.filter (fun e => !leafHit e))),
           walks := s.walks.map (fun p => (p.1, p.2.filter (fun w => !walkHit w))) }

end Sys2Proof.Machine
end

