-- ==== Sys2Proof/Machine/Phys.lean ====
section
/-! DEFINITION. Accesses to DRAM once translated: service of ROW memory by the memory controller (R31, R32), the ROW and
CACHED conflict (R33), publication (R243-R246), versions (R248), and the words Cirque watches (R289, R290). -/

namespace Sys2Proof.Machine

/-- The memory controller closes a group it holds: once tRAS since the activation and tWR are met, tRP then runs (R31). -/
def State.mcClose (s : State) (k : Nat) : State :=
  match (s.group k).mc with
  | none => s
  | some _ =>
    let t := Nat.max s.clk (s.closeAt k)
    (s.waitTo t).setGroup k (fun g => { g with mc := none, free := t, freeFor := 13500 })

/-- The running context whose home bank is bank `b` of tower `t` (R91, R107). -/
def State.homeCtx (s : State) (t b : Nat) : Option Ctx :=
  s.live.find? (fun c => c.kind = .tower && c.run = .running && c.place = t && c.home = b)

/-- TVAL of class 10 (R109). -/
def refreshTval (k : Nat) (debt : Int) (band : Nat) : Word := BitVec.ofNat 64 (k % 16 + lowN debt 5 * 16 + band * 2 ^ 9)

/-- Makes a class 10 trap pending for the hart whose home bank holds a group (R109). -/
def State.pendRefresh (s : State) (k sub : Nat) : State :=
  match s.homeCtx (k / 256) (k / 16 % 16) with
  | none => s
  | some c => s.pendFor c.reqid { code := 160 + sub, tval := refreshTval k (s.group k).debt (s.bandOf k), extra := 0 }

/-- One refresh of a closed group (R99): RPTR advances and the debt falls by 1, to no lower than -8. -/
def State.refreshGroup (s : State) (k : Nat) : State :=
  let s := (s.mcClose k).activate k
  s.setGroup k (fun g => { g with
    rptr := (g.rptr + 1) % 1024, debt := max (g.debt - 1) (-8), free := s.clk, freeFor := 45000 })

/-- Refreshes of a group at tRFCg spacing until its debt is 0 (R107, R110). -/
def State.refreshAll (s : State) (k : Nat) : State :=
  (List.range (s.group k).debt.toNat).foldl (fun s _ => State.refreshGroup s k) s

/-- The end of the refreshes of a forced close (R110): once the group is free again; then class 10, subcode 2. -/
def State.forcedEnd (s : State) (k : Nat) : State :=
  ((s.waitTo (s.freeAt k)).setGroup k (fun g => { g with forcing := false })).pendRefresh k 2

/-- The next refresh of a forced close (R110), or their end once the debt is 0. -/
def State.forcedStep (s : State) (k : Nat) : State := if 0 < (s.group k).debt then s.refreshGroup k else s.forcedEnd k

/-- All the refreshes of a forced close (R110). -/
def State.forcedRefresh (s : State) (k : Nat) : State := (s.refreshAll k).forcedEnd k

/-- The refreshes of a forced close that an access to the group finds due come first (R104, R110). -/
def State.settleForced (s : State) (k : Nat) : State := if (s.group k).forcing then s.forcedRefresh k else s

/-! ### Accesses that wait for a group (R31) -/

/-- The waiter that a context's own accesses are. -/
def hartWaiter (id : Nat) : Nat := id * 128 + 64

/-- The waiter that the chunk of a transfer is, of which `who` is the transfer's. -/
def chunkWaiter (who c : Nat) : Nat := who + 2 ^ 64 * c

/-- A waiter has been served, or has left. -/
def State.rowLeave (s : State) (who : Nat) : State :=
  if s.rowQueue.isEmpty then s else { s with rowQueue := s.rowQueue.filter (fun e => e.who != who) }

/-- A transfer has left, with every chunk of it. -/
def State.transferLeave (s : State) (who : Nat) : State :=
  if s.rowQueue.isEmpty then s else { s with rowQueue := s.rowQueue.filter (fun e => e.who % 2 ^ 64 != who) }

/-- An access that finds another row open waits, after those that arrived before it; a waiter has one access at a time. -/
def State.rowJoin (s : State) (pa who : Nat) : State :=
  if s.rowQueue.any (fun e => e.group == groupOf pa && e.row == rowOf pa && e.who == who) then s
  else { s with rowQueue := s.rowQueue.filter (fun e => e.who != who) ++ [{ group := groupOf pa, row := rowOf pa, who := who, pc := s.cur.pc }] }

/-- Whether accesses wait to the row that the memory controller holds open in a group: it stays open for them (R31). -/
def State.mcWanted (s : State) (k : Nat) : Bool :=
  match (s.group k).mc with
  | some r => s.rowQueue.any (fun e => e.group == k && e.row == r)
  | none => false

/-- The memory controller opens a row of a closed group (R31). -/
def State.mcOpen (s : State) (k row : Nat) : State :=
  let s := (s.mcClose k).activate k
  s.setGroup k (fun g => { g with mc := some row, opened := s.clk })

/-- A state in which nothing has happened but the arrival of accesses that wait in another (R31). -/
def State.arrived (s t : State) : State := { s with rowQueue := t.rowQueue }

/-- A packet that cannot be served yet waits, its access in the queue of its group; it has had no other effect (R31). -/
def State.holdInput (s t : State) (i : Instr) (x : EventInput) : State := { s.arrived t with waitingIn := s.waitingIn ++ [(i, x)] }

/-- Every access of a context leaves the queues. -/
def State.rowForget (s : State) (id : Nat) : State :=
  if s.rowQueue.isEmpty then s else { s with rowQueue := s.rowQueue.filter (fun e => e.who % 2 ^ 64 / 128 != id) }

/-- The access of an instruction that the current hart is no longer at leaves the queues. -/
def State.rowStale (s : State) : State :=
  if s.rowQueue.isEmpty then s
  else { s with rowQueue := s.rowQueue.filter (fun e => e.who != hartWaiter s.cur.reqid || e.pc == s.cur.pc) }

/-- Whether nobody waits for a group before a waiter. -/
def State.rowFirst (s : State) (k who : Nat) : Bool :=
  match s.rowQueue.find? (fun e => e.group == k) with
  | some e => e.who == who
  | none => true

/-- Serves a byte access to ROW memory (R31), after tAU where the row is an open register (R103): `none` where the group holds
another row, or others wait for it, and the access waits. -/
def State.rowServeFor (s : State) (who pa : Nat) (write : Bool) : Option State :=
  let k := groupOf pa
  let s := s.settleForced k
  let g := s.group k
  match g.row with
  | some r =>
    if r = rowOf pa then
      let s := (s.waitTo (s.usableAt k)).rowLeave who
      some (if write then s.setGroup k (fun g => { g with dirty := true }) else s)
    else none
  | none =>
    if g.mc = some (rowOf pa) || s.rowFirst k who then
      let s := if g.mc = some (rowOf pa) then s else s.mcOpen k (rowOf pa)
      let s := s.rowLeave who
      some (if write then s.setGroup k (fun g => { g with commit := s.clk }) else s)
    else none

/-- Serves a byte access of the hart that has the turn. -/
def State.rowServe (s : State) (pa : Nat) (write : Bool) : Option State := s.rowServeFor (hartWaiter s.cur.reqid) pa write

/-- Whether a byte range meets the side table of versions (R247, R417). -/
def inSideTable (a n : Nat) : Bool := Config.vstBase < a + n && a < Config.vstBase + Config.vstLen

/-- The line whose version an address of the side table holds (R247). -/
def sideLine (a : Nat) : Nat := Config.vregBase / 128 + (a - Config.vstBase) / 8

/-- A byte of DRAM as the memory controllers hold it: in the side table, bytes 0-5 of an entry are the version of its line (R247). -/
def State.dramByte (s : State) (a : Nat) : Byte :=
  if inSideTable a 1 && a % 8 < 6 then BitVec.ofNat 8 (versionOf s.versions (sideLine a) >>> (8 * (a % 8))) else s.byte a

/-- Bytes of DRAM as the memory controllers hold them. -/
def State.dramBytes (s : State) (a n : Nat) : List Byte :=
  if inSideTable a n then (List.range n).map (fun i => s.dramByte (a + i)) else s.bytes a n

/-- One byte written into a version (R247). -/
def putVersionByte (v : SMap Nat) (a : Nat) (b : Byte) : SMap Nat :=
  if !(inSideTable a 1 && a % 8 < 6) then v else
  let old := versionOf v (sideLine a)
  let new := old - fld old (8 * (a % 8)) 8 * 2 ^ (8 * (a % 8)) + b.toNat * 2 ^ (8 * (a % 8))
  if new = 0 then v.del (sideLine a) else v.put (sideLine a) new

/-- Bytes written to DRAM by the memory controllers, versions among them (R247). -/
def State.dramPoke (s : State) (a : Nat) (bs : List Byte) : State :=
  let s := s.poke a bs
  if inSideTable a bs.length then
    { s with versions := (bs.zip (List.range bs.length)).foldl (fun v p => putVersionByte v (a + p.2) p.1) s.versions }
  else s

/-- The bytes a read returns; of a page in conflict, free values (R33, log entry 8). -/
def State.readPhys (s : State) (leaf : Leaf) (n : Nat) : List Byte × State :=
  let s := s.noteUse leaf.pa leaf.mt
  if s.conflict.contains (leaf.pa / 4096) then
    ((List.range n).map (fun i => Config.conflictByte s.fresh i), { s with fresh := s.fresh + 1 })
  else (s.dramBytes leaf.pa n, s)

/-- What the vector queue of a context reads of a byte that holds `b`: while a scalar store of the hart to it has not performed for
the queue, what that store replaced (R72). -/
def Ctx.queueByte (c : Ctx) (a : Nat) (b : Byte) : Byte :=
  match c.unfenced.find? (fun e => e.1 ≤ a && a < e.1 + e.2.length) with
  | some e => e.2.getD (a - e.1) 0
  | none => b

/-- A byte as a vector instruction of the current hart reads it: free in a page in conflict (R33), else as its queue sees it (R72). -/
def State.seenByte (s : State) (a : Nat) : Byte :=
  if s.conflict.contains (a / 4096) then Config.conflictByte s.fresh a else s.cur.queueByte a (s.byte a)

/-- The bytes that a read of the current hart's vector queue returns, and whose state (R33, R72, R218). -/
def State.readSeen (s : State) (leaf : Leaf) (n : Nat) : List Byte × State :=
  let (bs, t) := s.readPhys leaf n
  (if t.cur.unfenced.isEmpty || t.conflict.contains (leaf.pa / 4096) then bs
    else bs.mapIdx (fun i b => t.cur.queueByte (leaf.pa + i) b), t)

/-- Bytes as a vector instruction of the current hart reads them (R33, R72). -/
def State.seen (s : State) (a n : Nat) : List Byte :=
  if s.conflict.isEmpty && s.cur.unfenced.isEmpty then s.bytes a n else (List.range n).map (fun i => s.seenByte (a + i))

/-- A little-endian number of `n` bytes so read. -/
def State.seenNum (s : State) (a n : Nat) : Nat := leValue (s.seen a n)

/-- Every store of the current hart has performed for its vector queue: fence.sv and what is stronger (R72, R232). -/
def State.fenceStores (s : State) : State :=
  if s.cur.unfenced.isEmpty then s else s.setCur (fun c => { c with unfenced := [] })

/-- A scalar store of the current hart that its vector queue need not see (R72), with the bytes it replaced. -/
def State.noteStore (s : State) (a : Nat) (old : List Byte) : State := s.setCur (fun c => { c with unfenced := c.unfenced ++ [(a, old)] })

/-- Whether two byte ranges meet. -/
def rangesMeet (a n b m : Nat) : Bool := a < b + m && b < a + n

/-- The stores that stay unperformed: each performs or not by a free choice, none before an older one to its bytes (R73). -/
def stillUnfenced (fresh : Nat) : List (Nat × List Byte) → List (Nat × List Byte) → Nat → List (Nat × List Byte)
  | [], kept, _ => kept
  | e :: rest, kept, i =>
    if Config.storePerforms fresh i && !(kept.any (fun o => rangesMeet o.1 o.2.length e.1 e.2.length)) then stillUnfenced fresh rest kept (i + 1)
    else stillUnfenced fresh rest (kept ++ [e]) (i + 1)

/-- Between two instructions, some stores of the current hart perform for its vector queue (R72). -/
def State.drainStores (s : State) : State :=
  if s.cur.unfenced.isEmpty then s
  else { s.setCur (fun c => { c with unfenced := stillUnfenced s.fresh c.unfenced [] 0 }) with fresh := s.fresh + 1 }

/-- What happens between two instructions of the current hart: an access that it is no longer at leaves its queue (R31), some of its
stores perform (R72), and the free bytes of pages in conflict are drawn anew (R33). -/
def State.settleIn (s : State) : State :=
  let s := s.rowStale.drainStores
  if s.conflict.isEmpty then s else { s with fresh := s.fresh + 1 }

/-- A context without the unperformed stores that some writes hit. -/
def Ctx.storesApart (c : Ctx) (hit : Nat → Nat → Bool) : Ctx := { c with unfenced := c.unfenced.filter (fun e => !hit e.1 e.2.length) }

/-- The stores of a context that meet no byte of a range. -/
def Ctx.storesOutside (c : Ctx) (a n : Nat) : Ctx := c.storesApart (fun b m => rangesMeet b m a n)

/-- A write of the vector queue into a byte range comes after the stores of the hart to it (R73), and so does a load of it (R72). -/
def State.orderStores (s : State) (a n : Nat) : State :=
  if s.cur.unfenced.isEmpty then s else s.setCur (fun c => c.storesOutside a n)

/-- The same for an access through a leaf, compared as R72 and R73 compare it: by the physical row of ROW memory, by 128-byte blocks of
other memory. -/
def State.orderNear (s : State) (leaf : Leaf) (n : Nat) : State :=
  let u := if leaf.mt = mtRow then 8192 else 128
  s.orderStores (leaf.pa / u * u) ((leaf.pa + n + u - 1) / u * u - leaf.pa / u * u)

/-- Writes of the current hart have entered the coherence order after the stores of other harts that they hit, which have performed
(R231, R233). -/
def State.settleOthers (s : State) (hit : Nat → Nat → Bool) : State :=
  if s.others.all (fun c => c.unfenced.isEmpty) then s else { s with others := s.others.map (fun c => c.storesApart hit) }

/-- Another write to a byte range has entered the coherence order after the stores of the harts to it: they have performed (R231,
R233). `own` tells whether it is no scalar store of the current hart itself. -/
def State.settleStores (s : State) (own : Bool) (a n : Nat) : State :=
  (if own then s.orderStores a n else s).settleOthers (fun b m => rangesMeet b m a n)

/-- The lines that a context has left unpublished, each with the code of what its release awaits: of a context resident here its
publication list, of another the lines that this hub's table holds for it (R243). -/
def State.pubsOf (s : State) (id : Nat) : List (Nat × Nat) :=
  match s.ctx? id with
  | some c => c.pubs
  | none => (s.hub.published.filter (fun e => e.2 == id)).map (fun e => (e.1, 64))

/-- Publishes the lines of a context that pass a test (R244). -/
def State.publish (s : State) (id : Nat) (p : Nat × Nat → Bool) : State :=
  let out := ((s.pubsOf id).filter p).map (·.1)
  let keep := (s.pubsOf id).filter (fun e => !p e)
  let s := s.mapCtx id (fun c => { c with pubs := keep })
  s.setHub (fun h => { h with published := h.published.filter (fun e => !(e.2 == id && out.contains e.1 && !(keep.any (fun q => q.1 == e.1)))) })

/-- A release by a context at .d or .y publishes what it covers: every line but those of transfers not yet acquired (R244). -/
def State.releaseBy (s : State) (id scope : Nat) : State := if 3 ≤ scope then s.publish id (fun e => e.2 == 64) else s

/-- The implicit release of R246: the stores of the context have performed, its whole list is published, and the counter of a local
context goes up (R226). -/
def State.forcePublish (s : State) (id : Nat) : State :=
  let s := (s.mapCtx id (fun c => { c with unfenced := [] })).publish id (fun _ => true)
  if (s.ctx? id).isSome && id / 2 ^ 15 = s.devId then
    s.setHub (fun h => { h with pubforce := h.pubforce.put (id % 2 ^ 15) (satInc (h.pubforce.get (id % 2 ^ 15) 0)) })
  else s

/-- Marks a line unpublished by a context, with the implicit release of R246 where a list or the table is full. Where the table is
full of other contexts' lines that release frees no place in it, and the mark is made all the same (DESIGN CHOICE, log entry 28). -/
def State.markUnpublished (s : State) (id line tag : Nat) : State :=
  let pubs := s.pubsOf id
  if pubs.any (fun e => e.1 == line && e.2 == tag) then s else
  let lines := (pubs.map (fun e => e.1)).eraseDups
  let full := !(lines.contains line) && (256 ≤ lines.length || 262144 ≤ s.hub.published.length)
  let s := if full then s.forcePublish id else s
  let s := s.mapCtx id (fun c => { c with pubs := c.pubs ++ [(line, tag)] })
  if s.hub.published.contains (line, id) then s else s.setHub (fun h => { h with published := h.published ++ [(line, id)] })

/-- Whether an access by a context meets a line another context has not published (R245). -/
def State.unpublished (s : State) (id : Nat) (leaf : Leaf) (n : Nat) : Bool :=
  leaf.chk && (linesOf leaf.pa n).any (fun l => s.hub.published.any (fun e => e.1 == l && e.2 != id))

/-- The objects with an entry: those with a tracked waiter or a recorded holder (R292). -/
def State.objects (s : State) : List ObjKey :=
  ((s.hub.holds.map (fun h => h.obj)) ++ (s.live.filterMap (fun c => match c.wait with
    | some w => if w.tracked then some w.obj else none
    | none => none))).eraseDups

/-- Whether the table has an object entry for an object (R296). -/
def State.objectRoom (s : State) (o : ObjKey) : Bool := s.objects.contains o || s.objects.length < 4096

/-- The object of a lock word (R292). -/
def lockObj (pa : Nat) : ObjKey := { cls := 3, key := pa }

/-- Whether the table has room to record one more holder of an object (R296). -/
def State.holdRoom (s : State) (o : ObjKey) : Bool := (s.holders o).length < 8 && s.objectRoom o

/-- Records a hold that a context comes by without an instruction of its own, or counts it untracked (R292, R296). -/
def State.giveHold (s : State) (o : ObjKey) (id : Nat) : State :=
  if (s.holders o).contains id then s
  else if s.holdRoom o then s.addHold o id
  else s.mapCtx id (fun c => { c with untracked := Nat.min 65535 (c.untracked + 1) })

/-- The table takes the context that a lock word names as its holder, if it is resident and not gone to another device (R292). -/
def State.adoptHolder (s : State) (pa w : Nat) : State :=
  if (s.ctx? (w % 2 ^ 28)).any (fun c => !s.away c) then s.giveHold (lockObj pa) (w % 2 ^ 28) else s

/-- What Cirque does after bytes were written, of which `hit` tells whether they meet a range: a lock word whose bit 63 is clear
loses its recorded hold and wakes its best waiter (R289), and one whose bit 63 is set names its holder (R292); a written queue header
line wakes its waiters (R290). -/
def State.watchBy (s : State) (hit : Nat → Nat → Bool) : State :=
  let keys := (s.hub.holds.map (fun h => h.obj)) ++ (s.live.filterMap (fun c => c.wait.map (fun w => w.obj)))
  let locks := (keys.filter (fun o => o.cls == 3 && hit o.key 8)).eraseDups
  let s := locks.foldl (fun s o =>
    if bitAt (s.num o.key 8) 63 then s.adoptHolder o.key (s.num o.key 8) else
    let s := (s.holders o).foldl (fun s id => s.endHold o id) s
    match s.bestWaiter (fun c => c.waitsOn .lkw o) with
    | some c => s.wake c.reqid
    | none => s) s
  (s.live.filter (fun c => match c.wait with
    | some w => w.kind == .qwait && hit (w.obj.key / 128 * 128) 128
    | none => false)).foldl (fun s c => s.wake c.reqid) s

/-- The same for `n` bytes written at an address. -/
def State.watch (s : State) (pa n : Nat) : State := s.watchBy (fun a m => n != 0 && rangesMeet pa n a m)

/-- The writes of one access: bytes, check bytes, versions, publication, watches. `id` is the writing context, if a
context writes, and `tag` the copy tag under which a transfer writes, 64 otherwise. -/
def State.writePhys (s : State) (id : Option Nat) (tag : Nat) (leaf : Leaf) (bs : List Byte) : State :=
  let n := bs.length
  let s := (s.noteUse leaf.pa leaf.mt).settleStores (!(id = some s.cur.reqid && tag = 64)) leaf.pa n
  let s := { s.dramPoke leaf.pa bs with poison := clearPoison s.poison leaf.pa n }
  let ls := linesOf leaf.pa n
  let s := if leaf.ver then { s with versions := ls.foldl bumpVersion s.versions } else s
  let s := match id with
    | some i => if leaf.chk then ls.foldl (fun t l => State.markUnpublished t i l tag) s else s
    | none => s
  s.watch leaf.pa n

/-- Lines of a tower data cache after a tower hart's access: the tower owns the line, and no other holds it (R262). -/
def State.ownLine (s : State) (t line : Nat) : State :=
  { s with lineOwner := s.lineOwner.put line t, lineHolders := s.lineHolders.put line [t] }

/-- A load of a tower hart leaves the line in its tower's data cache (R262). -/
def State.shareLine (s : State) (t line : Nat) : State :=
  let held := s.lineHolders.get line []
  if held.contains t then s else { s with lineHolders := s.lineHolders.put line (held ++ [t]) }

/-- The home slice takes a line back from the tower caches (R262). -/
def State.disownLine (s : State) (line : Nat) : State :=
  { s with lineOwner := s.lineOwner.del line, lineHolders := s.lineHolders.del line }

/-- A tower data cache gives a line up (R262). -/
def State.dropLine (s : State) (t line : Nat) : State :=
  let held := (s.lineHolders.get line []).filter (· != t)
  { s with
    lineOwner := if s.lineOwner.find line = some t then s.lineOwner.del line else s.lineOwner
    lineHolders := if held.isEmpty then s.lineHolders.del line else s.lineHolders.put line held }

/-- A data read of the current hart through its tower's data cache (R262). -/
def State.cacheRead (s : State) (leaf : Leaf) : State :=
  if s.cur.kind = .tower && leaf.mt = mtCached then s.shareLine s.cur.place (leaf.pa / 128) else s

/-- A scalar read of `n` bytes by the current hart is held until the hart's earlier stores that it overlaps have performed (R72), so
that no later read of the hart is older (R231), and has met the stores of other harts to its bytes, which a release after it covers
(R232). -/
def State.readSettles (s : State) (leaf : Leaf) (n : Nat) : State := (s.orderNear leaf n).settleStores false leaf.pa n

/-- A scalar load of the current hart, of at most 8 bytes. -/
def State.ownRead (s : State) (leaf : Leaf) : State := (s.cacheRead leaf).readSettles leaf 8

/-- The launch a context belongs to, if it is in the work table. -/
def State.launchOf (s : State) (c : Ctx) : Option Launch := s.hub.launches.find? (fun l => l.id == c.launch && l.phase != 2)

/-- A number in a launch record. -/
def Launch.num (l : Launch) (off n : Nat) : Nat := leValue ((l.record.drop off).take n)

/-- CTRL, bytes 16-23 of the record (R305). -/
def Launch.ctrl (l : Launch) : Nat := l.num 16 8

/-- REPLAY and not lost (R352, R353). -/
def Launch.replayable (l : Launch) : Bool := bitAt l.ctrl 6 && !l.lostLog

/-- The input (`false`) or output regions of a record: base and length (R305). -/
def Launch.regions (l : Launch) (out : Bool) : List (Nat × Nat) :=
  let n := fld l.ctrl (if out then 27 else 23) 4
  (List.range n).map (fun i => (l.num ((if out then 384 else 256) + 16 * i) 8, l.num ((if out then 392 else 264) + 16 * i) 8))

/-- Whether each 4 KiB granule of a data access of a replayable launch lies in a region that R352 allows it. -/
def State.replayOk (s : State) (va n : Nat) (write dev : Bool) : Bool :=
  match s.launchOf s.cur with
  | none => true
  | some l => !l.replayable || (!dev &&
      (if n = 0 then [] else (List.range ((va + n - 1) / 4096 + 1 - va / 4096)).map (· + va / 4096)).all (fun g =>
        ((l.regions true) ++ (if write then [] else l.regions false)).any (fun r => r.1 ≤ g * 4096 && g * 4096 + 4096 ≤ r.1 + r.2)))

end Sys2Proof.Machine
end

