-- ==== Sys2Proof/Machine/Ops.lean ====
section
/-! DEFINITION. The named operations every instruction shares: making a trap pending (R328), taking a trap and returning
from one (R329-R333, R394, R395), the issue of an instruction (R55, R56), and releases and acquires (R202, R232). -/

namespace Sys2Proof.Machine

/-- TSTAT as a hart reads it (R330). -/
def Ctx.tstat (c : Ctx) : Word :=
  boolWord c.pm ||| boolWord c.tl <<< 1 ||| boolWord c.half <<< 3 ||| boolWord c.hv <<< 4 |||
    (c.hdone.zeroExtend 64) <<< 5 ||| boolWord c.async <<< 7 ||| boolWord c.npr.isSome <<< 8 ||| boolWord c.sup <<< 9

/-- VLMAXC, the clamp of the latency class (R344). -/
def vlMaxC (lclass : Nat) : Nat :=
  match lclass with
  | 0 => 16384
  | 1 => 32768
  | 2 => 65536
  | _ => 131072

/-- Sets an edge bit of MIP with its INFO (R394). -/
def State.raiseMip (s : State) (bit : Nat) (info : Word) : State :=
  { s with mgmt := { s.mgmt with mip := s.mgmt.mip ||| (1#11 <<< bit), info := vput s.mgmt.info bit info } }

/-- Steps 1 to 3 of start-up from measurement `m` on (R415): the first slot that passes is loaded and measured; where none
does only `m` stands. -/
def State.loadSlot (s : State) (m : BitVec 512 × List (BitVec 16 × BitVec 512)) : State :=
  s.setHub (fun h => match h.bootSlot with
    | some n =>
      let x := (h.slot n).measure m
      { h with measure := x.1, attLog := x.2, booted := n }
    | none => { h with measure := m.1, attLog := m.2 })

/-- A reset of Cairn alone (R395, R415): the measurement records it, its firmware starts again where a slot passes, and every
compute island runs at step 0 with a floor of 4 until its ISLTHR is written. -/
def State.cairnRestart (s : State) : State :=
  let loaded := s.hub.bootSlot.isSome
  let s := s.loadSlot (extend (s.hub.measure, s.hub.attLog) 0xFFFF [])
  let s := if loaded then s else s.setHub (fun h => { h with startStat := 2 })
  let s := s.mapCtx cairnId (fun c => { c with
    regs := Vector.replicate 32 0, pc := BitVec.ofNat 64 Config.firmwareEntry, blocked := false,
    run := if loaded then .running else .held })
  let s := (List.range 32).foldl (fun t n => State.setStep t n 0) s
  { s with islands := s.islands.map (fun i => { i with floor := true }),
           mgmt := { s.mgmt with ie := false, pie := false, ml := false, mcause := 0, mepc := 0, mvec := 0, mie := 0 } }

/-- Cairn's entry, of a trap or an interrupt (R394); a trap taken with ML = 1 resets Cairn (R395). -/
def State.cairnEnter (s : State) (code : Nat) (int : Bool) (info : Word) : State :=
  if s.mgmt.ml then s.cairnRestart else
  let cause := BitVec.ofNat 64 code ||| boolWord int <<< 9 ||| info <<< 16
  let s1 := { s with mgmt := { s.mgmt with mepc := s.cur.pc, pie := s.mgmt.ie, ie := false, ml := true, mcause := cause } }
  s1.setCur (fun c => { c with pc := s.mgmt.mvec, blocked := false })

/-- The instruction word at TPC, or 0 where the fetch faults (R331); free in a page in conflict (R33). -/
def State.wordAt (s : State) (pc : Word) : Word :=
  match s.translate pc .fetch with
  | .ok (l, _) => BitVec.ofNat 64 (s.plainNum l.pa 8)
  | .error _ => 0

/-- The trap record of R331 for the state after entry; off a tower VL and ESTART are 0 (R57, R437). `triples` fills bytes 64-255 for class 18, subcode 0 (R295). -/
def trapRecord (s : State) (word extra : Word) (triples : Option (List Byte)) : List Byte :=
  let c := s.cur
  let vector := fun (w : Word) => if c.kind = .tower then w.toNat else 0
  let head := leBytes c.tcause.toNat 8 ++ leBytes c.tpc.toNat 8 ++ leBytes c.tval.toNat 8 ++ leBytes c.tstat.toNat 8 ++
    leBytes (vector c.estart) 8 ++ leBytes s.time.toNat 8 ++ leBytes c.launch.toNat 8 ++
    leBytes (c.reqid + 2 ^ 32 * (vector c.vl % 2 ^ 32)) 8
  let tail := match triples with
    | some t => t
    | none => leBytes word.toNat 8 ++ leBytes extra.toNat 8
  head ++ (tail ++ List.replicate 192 0).take 192

/-- Where the record of a trap of the current hart has to go while it has to wait for the group (R31, R329), if it has. -/
def State.recordWait (s : State) : Option Nat :=
  if s.cur.kind = .cairn then none else
  match (s.setCur (fun c => { c with sup := true })).translate s.cur.trec .write with
  | .error _ => none
  | .ok (l, t) => if l.mt = mtRow && (t.rowServe l.pa true).isNone then some l.pa else none

/-- A trap whose record has to wait is taken at a later boundary, with the same state; the store has arrived (R31). -/
def State.recordJoin (s : State) : State :=
  match s.recordWait with
  | none => s
  | some pa => s.rowJoin pa (hartWaiter s.cur.reqid)

/-- Writes a trap record at TREC as stores of the hart (R329): `none` where the write faults. -/
def State.writeRecord (s : State) (bs : List Byte) : Option State :=
  match s.translate s.cur.trec .write with
  | .error _ => none
  | .ok (l, s2) =>
    if l.mt = mtDev || s2.unpublished s2.cur.reqid l 256 then none
    else
      let s3 := if l.mt = mtRow then (s2.rowServe l.pa true).getD s2 else s2
      some ((s3.writePhys (some s3.cur.reqid) 64 l bs).rowLeave (hartWaiter s3.cur.reqid))

/-- The context begins to end (R310, R311, R332); an end already begun stands. -/
def Ctx.end_ (c : Ctx) (e : Ending) : Ctx := if c.ending.isSome then c else { c with ending := some e, blocked := false, drain := [] }

/-- Cancels every hart of a launch so that it can be replayed (R354): each stops as R310 gives, one inside a region when that ends.
The current hart cannot complete its instruction and ends here. -/
def State.replayLaunch (s : State) (id : Word) : State :=
  ((s.setHub (fun h => { h with launches := h.launches.map (fun l => if l.id = id then { l with replaying := true } else l) })).mapAll (fun c =>
    if c.launch = id && c.run != .ended && c.kind != .cairn && !s.away c then { c with cancelled := true }
    else c)).setCur (fun c => c.end_ { cause := 0x156, exit := 0, failed := false, cancel := false, replay := true })

/-- What a trap is taken with beside its code: whether it is asynchronous, bytes 72-79 of the record, the triples of R295,
and the pair state HV, HALF, HDONE (R52). -/
structure TrapInfo where
  async : Bool := false
  extra : Word := 0
  triples : Option (List Byte) := none
  hv : Bool := false
  half : Bool := false
  hdone : BitVec 2 := 0
  deriving Repr

/-- The registers that taking a trap writes (R329, R330), but for the program counter. The hart's blocked wait is abandoned: an entry
of Cirque stays (R291), and a message that woke it goes to the next receiver (R324). -/
def State.trapRegs (code : Nat) (tval : Word) (info : TrapInfo) (s : State) : State :=
  let t := s.setCur (fun c => { c with
    tcause := BitVec.ofNat 64 code, tpc := c.pc, tval := tval, pm := c.sup, tl := true,
    async := info.async, hv := info.hv, half := info.half, hdone := info.hdone, sup := true, blocked := false, drain := [], lwait := none,
    gone := none, wait := (c.wait.filter (fun w => w.tracked)).map (fun w => { w with woken := false }) })
  if s.cur.waitsOn .jrecv mailboxObj && s.cur.wokenUp then t.tellReceivers (jobOf s.cur.launch) else t

/-- One entry of a hart (R329, R332): its registers, its record, and the end of the context where the record cannot be written,
at a second trap level, or for a cause that retires. -/
def State.enterTrap (code : Nat) (tval : Word) (info : TrapInfo) (dies : Bool) (s0 : State) : State :=
  let s := s0.noteFault code tval
  let word := s.wordAt s.cur.pc
  let second := s.cur.tl && !info.async
  let s1 := s.trapRegs code tval info
  match s1.writeRecord (trapRecord s1 word info.extra info.triples) with
  | none => (s1.rowLeave (hartWaiter s1.cur.reqid)).setCur (fun c => c.end_ { cause := 0x149, exit := 0, failed := true, cancel := false, replay := false })
  | some s2 =>
    if second then s2.setCur (fun c => c.end_ { cause := 0x143, exit := 0, failed := true, cancel := false, replay := false })
    else if dies then s2.setCur (fun c => c.end_ { cause := code, exit := 0, failed := true, cancel := false, replay := false })
    else s2.setCur (fun c => { c with pc := c.tvec })

/-- Cause code of class 3, subcode 0 (R90): a control transfer to an address that is no multiple of 8. -/
def misalignedJump : Nat := 3 * 16

/-- Whether the launch of the current hart is replayed on a class 21 trap (R354). -/
def State.replays (s : State) : Bool :=
  match s.launchOf s.cur with
  | some l => l.replayable
  | none => false

/-- Whether a trap of the current hart has to wait until its record can be written (R31, R329). -/
def State.trapWaits (s : State) (code : Nat) : Bool := s.recordWait.isSome && !(code / 16 = 21 && s.replays)

/-- Taking a trap: the one entry of R329, with Cairn's of R394, the retirement of R332 and the replay of R354. A handler address
that is no multiple of 8 traps in its turn (R90), at trap level. -/
def takeTrap (code : Nat) (tval : Word) (info : TrapInfo) (s : State) : State :=
  if s.cur.kind = .cairn then s.cairnEnter code false tval else
  if code / 16 = 21 && s.replays then s.replayLaunch s.cur.launch else
  if s.trapWaits code then s.recordJoin else
  let t := s.enterTrap code tval info (code / 16 = 21 && 2 ≤ code % 16)
  if t.cur.ending.isNone && t.cur.tvec.toNat % 8 != 0 then t.enterTrap misalignedJump t.cur.tvec {} false else t

/-- Where rett goes: TPC, on Cairn MEPC. -/
def State.returnPc (s : State) : Word := if s.cur.kind = .cairn then s.mgmt.mepc else s.cur.tpc

/-- The return of rett (R333); on Cairn that of R395. -/
def returnFromTrap (s : State) : State :=
  if s.cur.kind = .cairn then
    { s with mgmt := { s.mgmt with ie := s.mgmt.pie, ml := false }, cur := { s.cur with pc := s.mgmt.mepc } }
  else s.setCur (fun c => { c with sup := c.pm, tl := false, pc := c.tpc })

/-! ### Issue -/

/-- How an instruction ends. -/
inductive Res where
  /-- Completed; the program counter moves to the next word. -/
  | done (s : State)
  /-- Completed with a control transfer. -/
  | jump (s : State) (pc : Word)
  /-- The state as it stands, program counter included: a wait, an end, a switch of context. -/
  | stay (s : State)
  /-- A trap taken in this state. -/
  | trap (s : State) (code : Nat) (tval : Word) (info : TrapInfo)

/-- The next word (R29). -/
def State.advance (s : State) : State := { s with cur := { s.cur with pc := s.cur.pc + 8 } }

/-- The outcome of an instruction. -/
def finish (r : Res) : Host.Outcome State Fault Refusal :=
  match r with
  | .done s => .next s.advance
  | .jump s pc => .next { s with cur := { s.cur with pc := pc } }
  | .stay s => .next s
  | .trap s code tval info => .next (takeTrap code tval info s)

/-- Where a trap that keeps progress has to wait for its record, the instruction has had no effect yet but the arrival of the
store. -/
def State.keepJoin (t s : State) : State := s.arrived t.recordJoin

/-- The end of a body that stopped in state `s`; with nothing kept the state is the one it began in. -/
def Stop.res (x : Stop) (s : State) : Res :=
  match x with
  | .trap code tval keep =>
    if keep.any (fun t => t.trapWaits code) then .stay ((keep.getD s).keepJoin s) else .trap (keep.getD s) code tval {}
  | .cycle len triples keep =>
    if keep.any (fun t => t.trapWaits (18 * 16)) then .stay ((keep.getD s).keepJoin s)
    else .trap (keep.getD s) (18 * 16) (BitVec.ofNat 64 len) { triples := some triples }
  | .hold keep => .stay (keep.getD s)
  | .arrive t => .stay (s.arrived t)

/-- Runs a body to its end. -/
def runBody (m : M Unit) (s : State) : Res :=
  match m s with
  | .ok (_, t) => .done t
  | .error x => x.res s

/-- Runs a body that computes where control goes. -/
def runJump (m : M Word) (s : State) : Res :=
  match m s with
  | .ok (pc, t) => .jump t pc
  | .error x => x.res s

/-- Runs a body that leaves the program counter itself. -/
def runStay (m : M Unit) (s : State) : Res :=
  match m s with
  | .ok (_, t) => .stay t
  | .error x => x.res s

/-- The scalars an instruction names: those of D, A and B where the entry names scalars, and those of IMM28 (R184, R263,
R86). -/
def scalarsOf (i : Instr) : List Nat :=
  let f := fieldsOf i
  let named := match ruleOf i with
    | some r => (if r.d = .scalar then [f.d.toNat] else []) ++ (if r.a = .scalar then [f.a.toNat] else []) ++
        (if r.b = .scalar then [f.b.toNat] else [])
    | none => []
  named ++ (match i with
    | .smb f => (List.range (f.sub 26 2 + 1)).map (· + f.a.toNat)
    | .mvmw f => [f.sub 0 5, f.sub 5 5]
    | .radd f => [f.sub 0 5]
    | .rswap f => [f.sub 0 5]
    | .rcas f => [f.sub 0 5]
    | .rmax f => [f.sub 0 5]
    | .rpush f => [f.sub 0 5]
    | .rget f => [f.sub 0 5]
    | .rput f => [f.sub 0 5]
    | _ => [])

/-- The scalars that remote operations in flight still have to write (R265). -/
def Ctx.pendingScalars (c : Ctx) : List Nat :=
  c.transfers.filterMap (fun t => match t.work with
    | .remote _ _ _ _ _ _ _ d => if d = 0 || t.failed then none else some d
    | _ => none)

/-- Whether the instruction waits for a scalar of a remote operation in flight (R265). -/
def waitsScalar (i : Instr) (s : State) : Bool :=
  if s.cur.transfers.isEmpty then false else (scalarsOf i).any (fun d => s.cur.pendingScalars.contains d)

/-- The rules of the FORMs that the entry accepts, for a word whose own FORM it does not (R55, R75). -/
def otherForms (i : Instr) : List Rule :=
  if (ruleOf i).isSome then []
  else (List.range 4).filterMap (fun k => ruleOf (decodeWord ((wordOfInstr i &&& ~~~(3#64 <<< 50)) ||| BitVec.ofNat 64 k <<< 50)))

/-- The decode check of the current hart (R56). -/
def issueFault (i : Instr) (s : State) : Option Nat := decodeFault i (otherForms i) s.cur.kind (vget s.cur.facc 0)

/-- Issues an instruction: decode checks (R55, R56), the wait of R265, then its body. -/
def issue (i : Instr) (body : State → Res) (s : State) : Host.Outcome State Fault Refusal :=
  match issueFault i s with
  | some sub => .next (takeTrap sub (wordOfInstr i) {} s)
  | none => if waitsScalar i s then .next s else finish (body s)

/-- Whether a word passes the checks that let its body run at once. -/
def ready (i : Instr) (s : State) : Bool := issueFault i s = none && !waitsScalar i s

/-! ### Releases and acquires -/

/-- A release of the current hart at a scope (R232): its stores have performed (R72), and it publishes (R244). -/
def State.release (s : State) (scope : Nat) : State := s.fenceStores.releaseBy s.cur.reqid scope

/-- How a copy's tag, chunk and chunk mask are recorded beside a line it wrote, until they are acquired (R202, R216, R244):
64 stands for a line that the hart's next release covers; a tag of 65 is one through which no acquire can come any more. -/
def pubCode (tag chunk km : Nat) : Nat := tag + 128 * chunk + 2 ^ 40 * km

/-- The same of a remote operation's tag (R275). -/
def remoteCode (tag : Nat) : Nat := tag + 2 ^ 50

/-- The lines of a list whose codes pass a test are covered by the next release (R202). -/
def Ctx.acquireCodes (c : Ctx) (p : Nat → Bool) : Ctx :=
  { c with pubs := (c.pubs.map (fun e => if p e.2 then (e.1, 64) else e)).eraseDups }

/-- The acquire of a completed transfer (R202): its lines may be published by the hart's next release (R244). A bit that software
set acquires nothing (R199). -/
def State.acquireTag (s : State) (tag : Nat) : State :=
  if s.cur.pubs.isEmpty || !s.cur.ctbDone.getLsbD tag then s else s.setCur (fun c => c.acquireCodes (fun e => e % 128 = tag))

/-- A write of CTB (R199): a bit that is cleared no longer stands for a completion. -/
def Ctx.putCtb (c : Ctx) (v : Word) : Ctx := { c with ctb := v, ctbDone := c.ctbDone &&& v }

/-- A read of mask register `k` acquires the chunks of a copy whose bits read 1 (R216). -/
def State.acquireMask (s : State) (k : Nat) : State :=
  if s.cur.pubs.isEmpty then s else
  s.setCur (fun c => c.acquireCodes (fun e => e ≠ 64 ∧ e / 2 ^ 40 = k ∧ k ≠ 0 ∧ (c.mask k).getLsbD (e / 128 % 2 ^ 33)))

/-- Supervisor mode, or class 1, subcode 2 (R327). -/
def supervisorOnly (s : State) : M Unit := checkM s.cur.sup 1 2 0

end Sys2Proof.Machine
end

