-- ==== Sys2Proof/Machine/Device.lean ====
section
/-! DEFINITION. Device-class space (R27, R28): the hub registers of R226, R277, R342, R353, R388, R402, R412, R417, R419
and R421, barrier objects (R284), wait objects and the job mailbox (R323), read and written 8 bytes at a time. -/

namespace Sys2Proof.Machine

/-- Reading of a sensor: the substitute EST + 80 when failed (R381). -/
def Sensor.value (n : Sensor) : Int := if n.failed then n.est + 80 else n.raw

/-- A sensor's record. -/
def State.sensor (s : State) (n : Nat) : Sensor := s.sensors.get n Sensor.blank

/-- The grant the scheduler gives a latency class, in ps (R344). -/
def schedulerGrant (lclass : Nat) : Nat :=
  match lclass with
  | 0 => 5000000
  | 1 => 30000000
  | 2 => 400000000
  | _ => 1000000000

/-- A pre-emption request to one context (R337, R338). -/
def Ctx.request (c : Ctx) (deadline : Nat) (held : Bool) (migrate : Option Nat) (now order : Nat) : Ctx :=
  let c := { c with wantHeld := c.wantHeld || held, migrate := if migrate.isSome then migrate else c.migrate }
  if c.preq then { c with pdeadln := Nat.min c.pdeadln deadline, pdeadFrac := if c.pdeadln ≤ deadline then c.pdeadFrac else 0 }
  else
    let c := { c with preq := true, pdeadln := deadline, pdeadFrac := 0 }
    if c.preqNe then c.alarm { code := 20 * 16 + 11, tval := BitVec.ofNat 64 deadline, extra := 0 } now order else c

/-- A request to a context, and to every member of its gang (R339); the context alone migrates (R393). -/
def State.requestPreempt (s : State) (id deadline : Nat) (held : Bool) (migrate : Option Nat) : State :=
  match s.ctx? id with
  | none => s
  | some c =>
    if c.gang.isSome then
      s.mapAll (fun d => if d.gang.isSome && d.launch = c.launch && d.run != .ended then
        d.request deadline held (if d.reqid = id then migrate else none) s.clk s.nextReady else d)
    else s.mapCtx id (fun c => c.request deadline held migrate s.clk s.nextReady)

/-- The context of a requester-table entry (R342). -/
def State.entryCtx (s : State) (n : Nat) : Option Ctx := s.live.find? (fun c => c.entry == n && c.kind != .cairn)

/-- Bit `t` of a launch record's TSET (R305). -/
def Launch.hasTower (l : Launch) (t : Nat) : Bool := bitAt (l.num (64 + t / 8) 1) (t % 8)

/-- Whether a peak clamp is active (R385). -/
def State.peak (s : State) : Bool :=
  match s.power.peakUntil with
  | some t => s.clk < t
  | none => false

/-- HOLD7 of an island, with the hold of a migration that waits on a region (R393). -/
def Island.held7 (i : Island) : Bool := i.hold7 || i.hold7Region

/-- The emergency floors of R375. -/
def State.floors (s : State) (i : Island) : Nat := Nat.max (if i.held7 then 7 else 0) (if s.peak then 4 else 0)

/-- EFF of a compute island (R375), with the floor that a reset of Cairn leaves (R395). -/
def State.eff (s : State) (n : Nat) : Nat :=
  let i := s.island n
  let base := if s.pace.en then Nat.max s.pace.cur (s.floors i)
    else Nat.max (Nat.max i.level s.power.gov) (Nat.max (if i.cap then 2 else 0) (s.floors i))
  Nat.max base (if i.floor then 4 else 0)

/-- EFF of island 32, the hub, and of every compute island. -/
def State.effOf (s : State) (n : Nat) : Nat := if n = 32 then s.hubLevel else s.eff n

/-- Compute islands that may not boost fall to step 0 at once (R373, R375). -/
def State.dropBoost (s : State) : State :=
  (List.range 32).foldl (fun t n => if t.eff n ≠ 0 ∨ (t.island n).cap then t.setStep n 0 else t) s

/-- An append of firmware to the event log (R396): the old count is what crw returns. -/
def State.logAppend (s : State) : State :=
  let n := s.mgmt.logidx + 1
  let s := { s with mgmt := { s.mgmt with logidx := n } }
  if n.toNat % 128 = 0 then s.raiseMip 8 n else s

/-- An append of hardware to the event log (R396). -/
def State.hwLog (s : State) (kind unit : Nat) (v1 v2 : Word) : State :=
  let a := s.mgmt.logbase.toNat + 32 * (s.mgmt.logidx.toNat % 128)
  let bs := leBytes s.time.toNat 8 ++ leBytes kind 2 ++ leBytes unit 2 ++ leBytes 0 4 ++ leBytes v1.toNat 8 ++ leBytes v2.toNat 8
  (if a + 32 ≤ dramEnd then ({ s.dramPoke a bs with poison := clearPoison s.poison a 32 }).bumpRegion a 32 else s).logAppend

/-- A change of what holds an island at level 7 (R393), logged where HOLD7 changes (R396): `hot` and `band3` are its causes. -/
def State.putHold7 (s : State) (n : Nat) (f : Island → Island) (hot band3 : Bool) : State :=
  let t := s.setIsland n f
  if (s.island n).held7 = (t.island n).held7 then t
  else (t.hwLog 17 n (boolWord (t.island n).held7) (boolWord hot ||| boolWord band3 <<< 1)).dropBoost

/-- Whether a tower sensor of an island reads above a bound, in 1/16 of a degree. -/
def State.towersAbove (s : State) (n : Nat) (bound : Int) : Bool := (List.range 16).any (fun i => bound < (s.sensor (16 * n + i)).value)

/-- Whether an island holds a bank in band 3 (R105). -/
def State.islandBand3 (s : State) (n : Nat) : Bool :=
  (List.range 16).any (fun l => (s.bands.get (n / 4 * 16 + l) Band.blank).band = 3)

/-- The critical point of a tower sensor: 100 degrees (R393). -/
def Sensor.critical (x : Sensor) : Bool := 1600 ≤ x.value || 1600 ≤ x.pred

/-- Whether a tower sensor of an island has reached the critical point (R393). -/
def State.islandCritical (s : State) (n : Nat) : Bool := (List.range 16).any (fun i => (s.sensor (16 * n + i)).critical)

/-- Whether a context on a tower of an island waits for its region to end, to be saved and migrate (R393). -/
def Ctx.migrationWaits (c : Ctx) (n : Nat) : Bool := c.kind = .tower && islandOf c.place = n && c.migrate.isSome && c.npr.isSome

/-- An island at the critical point is held at level 7 until the contexts whose migration waits on a region are saved (R393). -/
def State.holdRegions (s : State) (n : Nat) : State :=
  if s.live.any (fun c => c.migrationWaits n) then
    (s.mapAll (fun c => if c.migrationWaits n then { c with regionHold := true } else c)).putHold7 n (fun i => { i with hold7Region := true })
      (s.towersAbove n 1680) (s.islandBand3 n)
  else s

/-- A write of PREEMPT n (R342), with the migration of R393; while a migration waits for a region one class 22, subcode 11 stands for
it, and an island already at the critical point is held. -/
def State.writePreempt (s : State) (n : Nat) (v : Word) : State :=
  match s.entryCtx n with
  | none => s
  | some c =>
    let deadline := fld v.toNat 0 32
    if bitAt v.toNat 61 then
      let t := fld v.toNat 32 10
      let ok := match s.launchOf c with
        | some l => t < 512 && l.hasTower t
        | none => false
      if !ok then s.raiseMip 1 (BitVec.ofNat 64 n) else
      let s := s.requestPreempt c.reqid deadline (bitAt v.toNat 62) (some t)
      let s := if c.npr.isSome && !(c.preq && c.migrate.isSome) then
          s.pendFor c.reqid { code := 22 * 16 + 11, tval := toWord (s.sensor c.place).value, extra := 0 }
        else s
      if c.kind = .tower && s.islandCritical (islandOf c.place) then s.holdRegions (islandOf c.place) else s
    else s.requestPreempt c.reqid deadline (bitAt v.toNat 62) none

/-- A read of PREEMPT n (R342). A context that ctxrst installed and that has not run yet is resident and no longer saved: bit 2 reads 0
(DESIGN CHOICE, log entry 38). -/
def State.readPreempt (s : State) (n : Nat) : Word :=
  match s.entryCtx n with
  | none => 0
  | some c => 1 ||| boolWord (c.run = .running) <<< 1 ||| boolWord (c.run = .saved) <<< 2 ||| boolWord (c.run = .held) <<< 3 |||
      boolWord c.preq <<< 4

/-- A write of PGFLUSH when no flush is in progress (R226). -/
def State.startFlush (s : State) (v : Word) : State := s.setHub (fun h => { h with pgflush := some (v.toNat / 4096) })

/-- A write of ATTREQ (R419): ignored while BUSY. -/
def State.startAttest (s : State) (v : Word) : State :=
  if s.hub.attBusy then s else s.setHub (fun h => { h with attReq := v, attBusy := true, attDone := false, attErr := false })

/-- A write of FEATLOCK: once 1 it stays 1 (R421). -/
def State.writeFeatlock (s : State) (v : Word) : State := s.setHub (fun h => { h with featLock := h.featLock || v.getLsbD 0 })

/-- A write of EFDEVID: ignored once LOCK is 1 (R412). -/
def State.writeDevid (s : State) (v : Word) : State :=
  if s.efpo.lock then s else { s with efpo := { s.efpo with devid := v.extractLsb' 0 13, lock := v.getLsbD 15 } }

/-- Clears the counter at a device address, of those that a write clears (R226, R277, R353, R402, R412). -/
def State.clearCounter (s : State) (a : Nat) : State :=
  let o := a - deviceBase
  if 0x4_0000 ≤ o ∧ o < 0x8_0000 then s.setHub (fun h => { h with pubforce := h.pubforce.put ((o - 0x4_0000) / 8) 0 })
  else if 0x8_0000 ≤ o ∧ o < 0x8_2000 then
    let t := (o - 0x8_0000) / 16
    if o % 16 = 0 then s.setTower t (fun w => { w with amoLocal := 0 }) else s.setTower t (fun w => { w with amoHub := 0 })
  else if o = 0x9_0018 then s.setHub (fun h => { h with talusRefuse := 0 })
  else if o = 0x9_0020 then s.setHub (fun h => { h with remDrop := 0 })
  else if 0x10_0100 ≤ o ∧ o < 0x10_0150 then { s with host := { s.host with cnt := vput s.host.cnt ((o - 0x10_0100) / 8) 0 } }
  else if 0x11_1000 ≤ o ∧ o < 0x11_1400 then { s with efpo := { s.efpo with cnt := s.efpo.cnt.put ((o - 0x11_1000) / 8) 0 } }
  else s

/-- What a hub register reads as: `none` where no register lies (R27). -/
def State.hubRead (s : State) (o : Nat) : Option Word :=
  if o = 0x1000 then some (boolWord s.hub.pgflush.isSome)
  else if 0x4_0000 ≤ o ∧ o < 0x8_0000 then some (s.hub.pubforce.get ((o - 0x4_0000) / 8) 0)
  else if 0x8_0000 ≤ o ∧ o < 0x8_2000 then
    some (if o % 16 = 0 then (s.tower ((o - 0x8_0000) / 16)).amoLocal else (s.tower ((o - 0x8_0000) / 16)).amoHub)
  else if o = 0x9_0000 then some (s.hub.incarnation.zeroExtend 64)
  else if o = 0x9_0008 then some (BitVec.ofNat 64 (s.hub.results.length + s.hub.windows.length))
  else if o = 0x9_0010 then some (BitVec.ofNat 64 s.hub.records.length)
  else if o = 0x9_0018 then some s.hub.talusRefuse
  else if o = 0x9_0020 then some s.hub.remDrop
  else if o = 0xB_0000 then some s.hub.recBase
  else if o = 0xB_0008 then some s.hub.recLen
  else if o = 0xB_0010 then some s.hub.recLost
  else if 0xC_0000 ≤ o ∧ o < 0xC_0000 + 8 * 4608 then some (s.hub.paceMem.get ((o - 0xC_0000) / 8) 0)
  else if o = 0x10_0000 then some (boolWord s.host.en)
  else if o = 0x10_0008 then some (boolWord s.host.link ||| boolWord s.host.en <<< 1)
  else if o = 0x10_0010 then some s.host.qptBase
  else if o = 0x10_0018 then some s.host.rgtBase
  else if o = 0x10_0020 then some (BitVec.ofNat 64 Config.macAddress)
  else if o = 0x10_0028 then some (s.host.ip4.zeroExtend 64)
  else if o = 0x10_0030 then some (s.host.ip6.extractLsb' 0 64)
  else if o = 0x10_0038 then some (s.host.ip6.extractLsb' 64 64)
  else if 0x10_0100 ≤ o ∧ o < 0x10_0150 then some (vget s.host.cnt ((o - 0x10_0100) / 8))
  else if o = 0x11_0000 then some (s.efpo.devid.zeroExtend 64 ||| boolWord s.efpo.lock <<< 15)
  else if o = 0x11_0008 then some (s.efpo.links.zeroExtend 64 ||| boolWord s.efpo.tsync <<< 16)
  else if 0x11_1000 ≤ o ∧ o < 0x11_1400 then some (s.efpo.cnt.get ((o - 0x11_1000) / 8) 0)
  else if o = 0x12_0000 then some (BitVec.ofNat 64 Config.vregBase)
  else if o = 0x12_0008 then some (BitVec.ofNat 64 Config.vregLen)
  else if o = 0x12_0010 then some (BitVec.ofNat 64 Config.vstBase)
  else if o = 0x12_0100 then some s.hub.attReq
  else if o = 0x12_0108 then some (boolWord s.hub.attBusy ||| boolWord s.hub.attDone <<< 1 ||| boolWord s.hub.attErr <<< 2)
  else if o = 0x12_0200 then some (boolWord s.hub.featLock)
  else if 0x20_0000 ≤ o ∧ o < 0x24_0000 then some (s.readPreempt ((o - 0x20_0000) / 8))
  else none

/-- How a store to a hub register ends. -/
inductive DevStore where
  | ok (s : State)
  | trap (code : Nat)
  | wait

/-- Whether a hub register may only be read (R277, R402, R412, R417, R419). -/
def hubReadOnly (o : Nat) : Bool :=
  o = 0x9_0000 || o = 0x9_0008 || o = 0x9_0010 || o = 0x10_0008 || o = 0x10_0020 || o = 0x11_0008 || o = 0x12_0000 ||
    o = 0x12_0008 || o = 0x12_0010 || o = 0x12_0108

/-- A store to a hub register (R27). Registers that hold an address take class 3, subcode 10, on a value not aligned. -/
def State.hubWrite (s : State) (o : Nat) (v : Word) : DevStore :=
  let a := deviceBase + o
  if (s.hubRead o).isNone then .trap (15 * 16)
  else if hubReadOnly o then .trap (15 * 16 + 3)
  else if o = 0x1000 then (if s.hub.pgflush.isSome then .wait else .ok (s.startFlush v))
  else if o = 0xB_0000 then .ok (s.setHub (fun h => { h with recBase := v }))
  else if o = 0xB_0008 then .ok (s.setHub (fun h => { h with recLen := v }))
  else if o = 0xB_0010 then .ok (s.setHub (fun h => { h with recLost := v }))
  else if 0xC_0000 ≤ o ∧ o < 0xC_0000 + 8 * 4608 then
    .ok (s.setHub (fun h => { h with paceMem := h.paceMem.put ((o - 0xC_0000) / 8) (v &&& 0x9FFF) }))
  else if o = 0x10_0000 then .ok { s with host := { s.host with en := v.getLsbD 0 } }
  else if o = 0x10_0010 then
    if v.toNat % 4096 != 0 then .trap (3 * 16 + 10)
    else .ok (if s.host.en then s else { s with host := { s.host with qptBase := v } })
  else if o = 0x10_0018 then
    if v.toNat % 4096 != 0 then .trap (3 * 16 + 10)
    else .ok (if s.host.en then s else { s with host := { s.host with rgtBase := v } })
  else if o = 0x10_0028 then .ok (if s.host.en then s else { s with host := { s.host with ip4 := v.extractLsb' 0 32 } })
  else if o = 0x10_0030 then
    .ok (if s.host.en then s else { s with host := { s.host with ip6 := s.host.ip6.extractLsb' 64 64 ++ v } })
  else if o = 0x10_0038 then
    .ok (if s.host.en then s else { s with host := { s.host with ip6 := v ++ s.host.ip6.extractLsb' 0 64 } })
  else if o = 0x11_0000 then .ok (s.writeDevid v)
  else if o = 0x12_0100 then if v.toNat % 4096 != 0 then .trap (3 * 16 + 10) else .ok (s.startAttest v)
  else if o = 0x12_0200 then .ok (s.writeFeatlock v)
  else if 0x20_0000 ≤ o ∧ o < 0x24_0000 then .ok (s.writePreempt ((o - 0x20_0000) / 8) v)
  else .ok (s.clearCounter a)

/-- An 8-byte load of a barrier object (R284). -/
def State.barrierRead (s : State) (o : Nat) : Word :=
  match s.hub.barriers.find? (fun b => b.id == o / 64) with
  | none => 0
  | some b =>
    if s.cur.kind != .cairn && jobOf s.cur.launch != b.job then 0 else
    match o % 64 / 8 with
    | 0 => 1 ||| BitVec.ofNat 64 (b.scope * 2 + b.stack * 16) ||| (b.count.zeroExtend 64) <<< 32
    | 1 => b.arr.zeroExtend 64 ||| (b.gen.zeroExtend 64) <<< 32
    | 2 => BitVec.ofNat 64 b.job
    | 3 => b.creator
    | _ => 0

/-- An 8-byte load of the mailbox (R323). -/
def State.mailboxRead (s : State) (o : Nat) : Word :=
  if o != 0 then 0
  else if s.cur.kind = .cairn then BitVec.ofNat 64 s.hub.mailbox.length
  else BitVec.ofNat 64 (s.hub.mailbox.filter (fun m => m.job == jobOf s.cur.launch)).length

/-- A load from device-class space (R27, R28, R257): the value and the state, or a cause code. -/
def State.devLoad (s : State) (pa n : Nat) : Except Nat (Word × State) :=
  let o := pa - deviceBase
  if o < 0x100_0000 then
    match s.hubRead (o / 8 * 8) with
    | none => .error (15 * 16)
    | some w => if n != 8 then .error (15 * 16 + 2) else .ok (w, s)
  else if 0x310_0000 ≤ o then .error (15 * 16)
  else if n != 8 then .error (15 * 16 + 2)
  else if o < 0x200_0000 then .ok (s.barrierRead (o - 0x100_0000), s)
  else if o < 0x300_0000 then .ok (Config.waitObject (o - 0x200_0000) s.fresh, { s with fresh := s.fresh + 1 })
  else .ok (s.mailboxRead (o - 0x300_0000), s)

/-- A store to device-class space. A store to a wait object has no effect the manual states. -/
def State.devStore (s : State) (pa n : Nat) (v : Word) : DevStore :=
  let o := pa - deviceBase
  if o < 0x100_0000 then
    if (s.hubRead (o / 8 * 8)).isNone then .trap (15 * 16)
    else if n != 8 then .trap (15 * 16 + 2)
    else s.hubWrite o v
  else if 0x310_0000 ≤ o then .trap (15 * 16)
  else if o < 0x200_0000 then .trap (15 * 16 + (if n = 8 then 3 else 2))
  else if o < 0x300_0000 then (if n = 8 then .ok s else .trap (15 * 16 + 2))
  else .trap (15 * 16 + 3)

end Sys2Proof.Machine
end

