-- ==== Sys2Proof/Machine/Access.lean ====
section
/-! DEFINITION. Byte accesses of the current hart (R31, R81-R83, R223, R224, R242, R245, R352): one load and one store that
every instruction with a memory operand uses. -/

namespace Sys2Proof.Machine

/-- The checks after translation that every hart access shares: replay regions (R352), publication (R245). -/
def accessChecks (va : Word) (leaf : Leaf) (n : Nat) (write logged : Bool) : M Unit := do
  let s ← get
  checkM (logged || s.replayOk va.toNat n write (leaf.mt == mtDev)) 19 11 va
  checkM (!(s.unpublished s.cur.reqid leaf n)) 15 1 va

/-- Brings a ROW access of a waiter to its sense amplifiers; where another row is open it waits in the order of arrival
(R31). -/
def rowAccessFor (who : Nat) (leaf : Leaf) (write : Bool) : M Unit := fun s =>
  if leaf.mt = mtRow then
    match s.rowServeFor who leaf.pa write with
    | some t => .ok ((), t)
    | none => .error (.arrive (s.rowJoin leaf.pa who))
  else .ok ((), s)

/-- A ROW access of the hart that has the turn. -/
def rowAccess (leaf : Leaf) (write : Bool) : M Unit := fun s => rowAccessFor (hartWaiter s.cur.reqid) leaf write s

/-- Whether a load reads a queue that the hart of a replayable launch has waited on, header or slots (R353). -/
def State.loggedQueue (s : State) (leaf : Leaf) (n : Nat) : Bool :=
  n = 8 && s.cur.queues.any (fun q => q ≤ leaf.pa && leaf.pa < q + 64 + 8 * 2 ^ (s.num (q + 16) 1))

/-- Records an input of a replayable launch, losing replayability where the log has no room (R353). -/
def State.recordInput (s : State) (e : LogEntry) : State :=
  match s.launchOf s.cur with
  | none => s
  | some l =>
    if !l.replayable then s
    else if s.hub.recUsed + e.value.length + 16 ≤ s.hub.recLen.toNat then
      (s.setCur (fun c => { c with recorded := c.recorded ++ [e] })).setHub (fun h => { h with recUsed := h.recUsed + e.value.length + 16 })
    else s.setHub (fun h => { h with
      recLost := satInc h.recLost,
      launches := h.launches.map (fun k => if k.id = l.id then { k with lostLog := true } else k) })

/-- A replayed input (R354): the next entry of the log, when the hart replays. A difference in kind or address ends the
launch with FAILED and CAUSE 0x155. -/
def State.replayInput (s : State) (kind addr : Nat) : Option (Option (List Byte) × State) :=
  match s.cur.replay with
  | [] => none
  | e :: rest =>
    if e.kind = kind ∧ e.addr = addr then some (some e.value, s.setCur (fun c => { c with replay := rest, recorded := c.recorded ++ [e] }))
    else some (none, s.mapAll (fun c => if c.launch = s.cur.launch && c.run != .ended && c.kind != .cairn then
      c.end_ { cause := 0x155, exit := 0, failed := true, cancel := false, replay := false } else c))

/-- A load of `n` bytes of the hart at `va`, already aligned: the bytes as a number, and the leaf. -/
def loadM (va : Word) (n : Nat) (acc : AccKindT) : M (Nat × Leaf) := do
  let leaf ← translateM va acc
  if leaf.mt = mtDev then
    let s ← get
    checkM (s.replayOk va.toNat n acc.writes true) 19 11 va
    match s.devLoad leaf.pa n with
    | .error c => trapCode c va
    | .ok (w, t) => set t; pure (w.toNat, leaf)
  else
    let s ← get
    let logged := acc = .read && s.loggedQueue leaf n
    accessChecks va leaf n acc.writes logged
    rowAccess leaf acc.writes
    let s ← get
    checkM (!poisoned s.poison leaf.pa n) 21 0 va
    if logged then
      match s.replayInput 2 leaf.pa with
      | some (some bs, t) => set t; pure (leValue bs, leaf)
      | some (none, t) => fun _ => .error (.hold (some t))
      | none =>
        let (bs, t) := s.readPhys leaf n
        set ((t.ownRead leaf).recordInput { kind := 2, addr := leaf.pa, value := bs })
        pure (leValue bs, leaf)
    else
      let (bs, t) := s.readPhys leaf n
      set (t.ownRead leaf)
      pure (leValue bs, leaf)

/-- The writes of a store already translated and checked, with the tower cache's ownership (R225, R262). -/
def storePlain (leaf : Leaf) (bs : List Byte) : M Unit := do
  let s ← get
  let s := s.writePhys (if s.cur.kind = .cairn then none else some s.cur.reqid) 64 leaf bs
  let s := if s.cur.kind = .cairn then s.bumpRegion leaf.pa bs.length else s
  let s := if leaf.mt = mtCached then
      (if s.cur.kind = .tower then s.ownLine s.cur.place (leaf.pa / 128) else s.disownLine (leaf.pa / 128)) else s
  set s

/-- Whether a store is a HEAD update of a queue the hart of a replayable launch has waited on (R353). -/
def State.headStore (s : State) (leaf : Leaf) (n : Nat) : Bool := n = 8 && s.cur.queues.contains leaf.pa

/-- A write that comes after the earlier stores of the hart to its rows or blocks (R73), and that every later read of the hart
sees. -/
def storeAt (leaf : Leaf) (bs : List Byte) : M Unit := do
  modify (fun s => s.orderNear leaf bs.length)
  storePlain leaf bs

/-- The store of a scalar instruction, which the vector queue of a tower hart need not see at once (R72). -/
def scalarStore (leaf : Leaf) (bs : List Byte) : M Unit := do
  let old := (← get).bytes leaf.pa bs.length
  storePlain leaf bs
  if (← get).cur.kind = .tower then modify (fun s => s.noteStore leaf.pa old)

/-- A store of `n` bytes of the hart at `va`, already aligned. A HEAD store of a replayable launch is logged, and a replay that meets
it in the log performs it no more (R354). -/
def storeM (va : Word) (n : Nat) (v : Word) : M Unit := do
  let leaf ← translateM va .write
  let s ← get
  if leaf.mt = mtDev then
    checkM (s.replayOk va.toNat n true true) 19 11 va
    match s.devStore leaf.pa n v with
    | .trap c => trapCode c va
    | .wait => holdM
    | .ok t => set t
  else
    let head := s.headStore leaf n
    accessChecks va leaf n true head
    rowAccess leaf true
    if head then match (← get).replayInput 3 leaf.pa with
      | some (some _, t) => set t
      | some (none, t) => fun _ => .error (.hold (some t))
      | none => do
        modify (fun s => s.recordInput { kind := 3, addr := leaf.pa, value := [] })
        scalarStore leaf (leBytes v.toNat n)
    else scalarStore leaf (leBytes v.toNat n)

/-- A block of bytes read by an instruction from a record (R184, R213, R306), 8 bytes at a time as loads of the hart.
`dev` is the trap of a record on a DEV page. -/
def loadBlock (va : Word) (dev : M Unit) : Nat → M (List Byte)
  | 0 => pure []
  | n + 1 => do
    let s ← get
    match s.translate va .read with
    | .error c => trapCode c va
    | .ok (leaf, _) =>
      if leaf.mt = mtDev then do
        dev
        pure []
      else do
        let (v, _) ← loadM va 8 .read
        let rest ← loadBlock (va + 8) dev n
        pure (leBytes v 8 ++ rest)

end Sys2Proof.Machine
end

