-- ==== Sys2Proof/Machine/Traverse.lean ====
section
/-! DEFINITION. Completion and failure of a transfer (R199) and the Traverse moves in flight (R204-R206): a move performs when
its completion is due, or earlier when a group it reads or writes is about to be closed, committed or written. -/

namespace Sys2Proof.Machine

/-- A transfer completes: its CTB bit is set and its tag is free (R199). -/
def State.completeTag (s : State) (id tag : Nat) : State :=
  (s.transferLeave (id * 128 + tag)).mapCtx id (fun c => { c with
    ctb := c.ctb ||| (1#64 <<< tag), ctbDone := c.ctbDone ||| (1#64 <<< tag), transfers := c.transfers.filter (fun t => t.tag != tag) })

/-- A transfer fails: its trap is pending, and its tag stays busy until the trap is taken (R199). -/
def State.failTag (s : State) (id tag code : Nat) (tval extra : Word) : State :=
  ((s.transferLeave (id * 128 + tag)).mapCtx id (fun c => { c with
    transfers := c.transfers.map (fun t => if t.tag = tag then { t with failed := true } else t) })).pendFor
    id { code := code, tval := tval, extra := extra }

/-- Frees a tag (R199). -/
def Ctx.freeTag (c : Ctx) (tag : Nat) : Ctx := { c with transfers := c.transfers.filter (fun t => t.tag != tag) }

/-- Whether a run holds a group. -/
def RowRun.has (r : RowRun) (k : Nat) : Bool :=
  r.tower = k / 256 && r.bank = k / 16 % 16 && r.group ≤ k % 16 && k % 16 < r.group + r.len

/-- Keys of the groups of a run. -/
def RowRun.keys (r : RowRun) : List Nat := (List.range r.len).map (fun i => groupKey r.tower r.bank (r.group + i))

/-- DRAM address of the open row of a group. -/
def State.openBase (s : State) (k : Nat) : Nat := rowBase k ((s.group k).row.getD 0)

/-- The poisoned granules of an open row, counted from the row. -/
def State.rowPoisoned (s : State) (k : Nat) : List Nat :=
  let a := s.openBase k
  (s.poison.filter (fun g => a ≤ g * 32 && g * 32 < a + 8192)).map (fun g => g - a / 32)

/-- The bytes of an open row, free in a page in conflict (R33), and its poisoned granules. -/
def State.rowImage (s : State) (k : Nat) : List Byte × List Nat :=
  let a := s.openBase k
  (if s.conflict.isEmpty then s.bytes a 8192
    else (List.range 8192).map (fun i => if s.conflict.contains ((a + i) / 4096) then Config.conflictByte s.fresh (a + i) else s.byte (a + i)),
   s.rowPoisoned k)

/-- The same as the vector queue of a context sees it (R72): what an xput of its own run reads. -/
def State.queueImage (s : State) (id k : Nat) : List Byte × List Nat :=
  match s.ctx? id with
  | some c => if c.unfenced.isEmpty || !s.conflict.isEmpty then s.rowImage k
      else ((s.rowImage k).1.mapIdx (fun i b => c.queueByte (s.openBase k + i) b), s.rowPoisoned k)
  | none => s.rowImage k

/-- An open row as an instruction of the current hart reads it (R33, R72). -/
def State.seenRow (s : State) (k : Nat) : List Byte × List Nat := (s.seen (s.openBase k) 8192, s.rowPoisoned k)

/-- Writes a whole open row with the poison it carries; the row becomes open dirty (R205), its versions rise (R248), and Cirque sees
the write (R290). -/
def State.putRowImage (s : State) (k : Nat) (bs : List Byte) (ps : List Nat) : State :=
  let a := s.openBase k
  let p := ps.foldl (fun p g => insertSorted (a / 32 + g) p) (clearPoison s.poison a 8192)
  ({ (s.settleStores true a bs.length).pokeBumped a bs with poison := p }.watch a bs.length).setGroup k (fun g => { g with dirty := true })

/-- The exposure under a tag of a tower (R203). -/
def State.exposure (s : State) (tower etag : Nat) : Option Exposure := (s.tower tower).exposures.find? (fun e => e.etag == etag)

/-- The rows that an accepted xput or xget moves, and its completion or failure (R205). -/
def State.moveRows (s : State) (id tag : Nat) (put : Bool) (own : RowRun) (tower etag : Nat) : State :=
  let tv := BitVec.ofNat 64 tag
  match s.exposure tower etag with
  | none => s.failTag id tag (14 * 16 + 9) tv 0
  | some e =>
    if !bitAt e.acc (if put then 1 else 0) then s.failTag id tag (14 * 16 + 9) tv 0
    else if e.rows.len ≠ own.len then s.failTag id tag (14 * 16 + 10) tv 0
    else
      let src := if put then own else e.rows
      let dst := if put then e.rows else own
      let imgs := src.keys.map (fun k => if put then s.queueImage id k else s.rowImage k)
      let s := (dst.keys.zip imgs).foldl (fun s p => State.putRowImage s p.1 p.2.1 p.2.2) s
      (if s.conflict.isEmpty then s else { s with fresh := s.fresh + 1 }).completeTag id tag

/-- A Traverse move in flight: context, tag, whether it is an xput, its own run, and the exposure it names. -/
abbrev Move := Nat × Nat × Bool × RowRun × Nat × Nat

/-- The Traverse moves in flight, those of one context in the order of their acceptance. -/
def State.traverses (s : State) : List Move :=
  s.live.flatMap (fun c => c.transfers.filterMap (fun t => match t.work with
    | .traverse put own tower etag => if t.failed then none else some (c.reqid, t.tag, put, own, tower, etag)
    | _ => none))

/-- The groups that a move writes. -/
def State.moveTarget (s : State) (m : Move) : List Nat :=
  if m.2.2.1 then (match s.exposure m.2.2.2.2.1 m.2.2.2.2.2 with
    | some e => e.rows.keys
    | none => [])
  else m.2.2.2.1.keys

/-- Of a context's moves, the latest first, the xputs that have to read before some groups are written, in the order of acceptance: those
that read one of the groups, and those that read what such an xput writes in its turn (R206). -/
def State.putsBefore (s : State) : List Move → List Nat → List Move
  | [], _ => []
  | m :: earlier, ks =>
    if m.2.2.1 && ks.any m.2.2.2.1.has then s.putsBefore earlier (ks ++ s.moveTarget m) ++ [m]
    else s.putsBefore earlier ks

/-- Performs moves in order. -/
def State.moveAll (s : State) (ms : List Move) : State :=
  ms.foldl (fun s m => State.moveRows s m.1 m.2.1 m.2.2.1 m.2.2.2.1 m.2.2.2.2.1 m.2.2.2.2.2) s

/-- What a write of groups by a hart waits for: each xput of the hart that still has to read one of them (R206). -/
def State.settlePuts (s : State) (id : Nat) (ks : List Nat) : State :=
  s.moveAll (s.putsBefore (s.traverses.filter (fun m => m.1 == id)).reverse ks)

/-- Performs an accepted xput or xget (R205), after each earlier xput of the hart that still has to read what it writes (R206). -/
def State.performTraverse (s : State) (id tag : Nat) (put : Bool) (own : RowRun) (tower etag : Nat) : State :=
  let m : Move := (id, tag, put, own, tower, etag)
  let earlier := (s.traverses.filter (fun x => x.1 == id)).takeWhile (fun x => x != m)
  (s.moveAll (s.putsBefore earlier.reverse (s.moveTarget m))).moveRows id tag put own tower etag

/-- Performs the moves in flight that pass a test. -/
def State.settle (s : State) (p : Move → Bool) : State :=
  (s.traverses.filter p).foldl (fun s m =>
    if s.traverses.contains m then State.performTraverse s m.1 m.2.1 m.2.2.1 m.2.2.2.1 m.2.2.2.2.1 m.2.2.2.2.2 else s) s

/-- What closing or committing a group waits for: the moves of its own run, and those accepted against an exposure of it
(R204, R206). -/
def State.settleGroup (s : State) (k : Nat) : State :=
  s.settle (fun m => m.2.2.2.1.has k || (match s.exposure m.2.2.2.2.1 m.2.2.2.2.2 with
    | some e => e.rows.has k
    | none => false))

/-- What a write of a group by a hart waits for: an xput of the hart that still has to read it (R206). -/
def State.settleReads (s : State) (id k : Nat) : State := s.settlePuts id [k]

end Sys2Proof.Machine
end

