-- ==== Sys2Proof/Machine/Operands.lean ====
section
/-! DEFINITION. Operand forms: the second operand and addresses of classes 0 and 1 (R43, R75, R81, R85), vector
configuration (R116-R118), the rows, masks and elements of class 3 (R8, R93, R97, R121-R125). -/

namespace Sys2Proof.Machine

/-- SExt(IMM28, 28) as a register value. -/
def immS (f : Fields) : Word := f.imm.signExtend 64

/-- SExt of the low `n` bits of IMM28 as a register value. -/
def offS (f : Fields) (n : Nat) : Word := toWord (sextN f.immN n)

/-- The second operand of class 0: sB in FORM 0b00, SExt(IMM28) in FORM 0b10 (R75). -/
def operandB (f : Fields) (s : State) : Word := if f.form = 0 then s.reg f.b else immS f

/-- A control-transfer target: PC + SExt(offset) x 8 (R85). -/
def targetOf (s : State) (f : Fields) (n : Nat) : Word := s.cur.pc + offS f n <<< 3

/-! ### Vector configuration -/

/-- Element width of an ew code; packed is 4 (R116). -/
def ewBits (ew : Nat) : Nat :=
  match ew with
  | 0 => 8
  | 1 => 16
  | 2 => 32
  | 3 => 64
  | _ => 4

/-- ew of VCFG in bits. -/
def ewOf (vcfg : Word) : Nat := ewBits (fld vcfg.toNat 0 3)

/-- vg of VCFG in rows (R116). -/
def vgOf (vcfg : Word) : Nat := 2 ^ fld vcfg.toNat 4 2

/-- FC of VCFG. -/
def fcOf (vcfg : Word) : Nat := fld vcfg.toNat 6 6

/-- VLMAX (R118). -/
def vlMax (vcfg : Word) (lclass : Nat) : Nat := Nat.min (vgOf vcfg * 65536 / ewOf vcfg) (vlMaxC lclass)

/-- The clamp of VL after VLMAX changes (R118). -/
def Ctx.clampVl (c : Ctx) : Ctx :=
  if vlMax c.vcfg c.lclass < c.vl.toNat then { c with vl := BitVec.ofNat 64 (vlMax c.vcfg c.lclass) } else c

/-- VL := min(request, VLMAX); ESTART := 0 (R119). -/
def Ctx.grantVl (c : Ctx) (req : Nat) : Ctx := { c with vl := BitVec.ofNat 64 (Nat.min req (vlMax c.vcfg c.lclass)), estart := 0 }

/-- The layout bits of VCFG (R116). -/
def vcfgLayout (v : Word) : Word := v &&& 0xFF7

/-- The check that a write of VCFG fails, if any (R116, R117). -/
def vcfgFault (v : Word) : Option (Nat × Bool) :=
  if 4 < fld v.toNat 0 3 then some (8, true)
  else if !fcValid (fld v.toNat 6 6) then some (11 * 16, false)
  else if fcWidth (fld v.toNat 6 6) != ewOf v then some (11 * 16 + 1, false)
  else none

/-- VCFG := v with the clamp of VL (R117, R118). -/
def Ctx.putVcfg (c : Ctx) (v : Word) : Ctx := Ctx.clampVl { c with vcfg := vcfgLayout v }

/-! ### Rows of the home bank -/

/-- The key of group `g` of the current hart's home bank (R91). -/
def State.homeKey (s : State) (g : Nat) : Nat := groupKey s.cur.place s.cur.home (g % 16)

/-- Group `g` of the home bank. -/
def State.homeGroup (s : State) (g : Nat) : Group := s.group (s.homeKey g)

/-- The group a row field names. -/
def rowField (v : BitVec 6) : Nat := v.toNat - 32

/-- Sets the D bits of both leaves of an open row (R96, R365), with a fault's cause code. -/
def State.setRowDirtyBits (s : State) (k : Nat) : Except Nat State :=
  let g := s.group k
  if g.dset then .ok s else
  match s.translate g.va .write with
  | .error c => .error c
  | .ok (_, s1) => match s1.translate (g.va + 4096) .write with
    | .error c => .error c
    | .ok (_, s2) => .ok (s2.setGroup k (fun g => { g with dset := true }))

/-- No entry that names a group starts between its forced close and the end of the refreshes (R110): the next of them performs, and
the entry begins at a later boundary, after the trap that they make pending. -/
def awaitForced (g : Nat) : M Unit := fun s =>
  if (s.homeGroup g).forcing then .error (.hold (some (s.forcedStep (s.homeKey g)))) else .ok ((), s)

/-- An activation of a group waits for the accesses to the row that the memory controller holds open there (R31, R32). -/
def awaitAccesses (g : Nat) : M Unit := do
  let s ← get
  waitUntil !(s.mcWanted (s.homeKey g))

/-- The row-state check of R97 on one group: open, not closed by force, and writable where the instruction writes it. -/
def checkRow (g : Nat) (write : Bool) : M Unit := fun s =>
  let gr := s.homeGroup g
  let tv := BitVec.ofNat 64 (g % 16)
  if gr.forcing then .error (.hold (some (s.forcedStep (s.homeKey g))))
  else if gr.forced then .error (.trap (9 * 16 + 2) tv (some (s.setGroup (s.homeKey g) (fun g => { g with forced := false }))))
  else if gr.row.isNone then .error (.trap (9 * 16) tv none)
  else if write && !gr.writable then .error (.trap (9 * 16 + 9) tv none)
  else .ok ((), s)

/-- The row-state checks of a run of groups, in ascending order, and the wait for tAU (R97). -/
def checkRun (g n : Nat) (write : Bool) : M Unit := do
  (List.range n).forM (fun i => checkRow (g + i) write)
  modify (fun s => (List.range n).foldl (fun s i => s.waitTo (s.usableAt (s.homeKey (g + i)))) s)

/-- Opens a row for writing before the first element performs: an xput of it has been read (R206), the hart's stores into it have
performed (R73), D bits (R96) and the dirty state (R97). -/
def dirtyRow (g : Nat) : M Unit := fun s =>
  let k := s.homeKey g
  let s := (s.settleReads s.cur.reqid k).orderStores (s.openBase k) 8192
  match s.setRowDirtyBits k with
  | .error c => .error (.trap c (s.group k).va none)
  | .ok t => .ok ((), t.setGroup k (fun g => { g with dirty := true }))

/-- Makes a run of rows dirty. -/
def dirtyRun (g n : Nat) : M Unit := (List.range n).forM (fun i => dirtyRow (g + i))

/-- DRAM address of byte `b` of a run that starts at group `g` of the home bank (R8). -/
def State.runAddr (s : State) (g b : Nat) : Nat :=
  rowBase (s.homeKey (g + b / 8192)) ((s.homeGroup (g + b / 8192)).row.getD 0) + b % 8192

/-- Elem(o, e, ew) (R8): element `e` of `ew` bits in the run of groups from `g`. -/
def State.elem (s : State) (g e ew : Nat) : Nat :=
  if ew = 4 then fld (s.seenNum (s.runAddr g (e / 2)) 1) (4 * (e % 2)) 4
  else s.seenNum (s.runAddr g (e * (ew / 8))) (ew / 8)

/-- Elem(o, e, ew) := v (R8), with the versions of what it writes (R248). -/
def State.setElem (s : State) (g e ew v : Nat) : State :=
  if ew = 4 then
    let a := s.runAddr g (e / 2)
    let b := (s.byte a).toNat
    let nb := if e % 2 = 0 then b / 16 * 16 + v % 16 else b % 16 + 16 * (v % 16)
    s.pokeBumped a [BitVec.ofNat 8 nb]
  else s.pokeBumped (s.runAddr g (e * (ew / 8))) (leBytes v (ew / 8))

/-- Whether an element touches a poisoned granule (R130). -/
def State.elemPoisoned (s : State) (g e ew : Nat) : Bool :=
  !s.poison.isEmpty && poisoned s.poison (s.runAddr g (e * ew / 8)) (Nat.max 1 (ew / 8))

/-- Byte index of element `e` (R122). -/
def elemByte (e ew : Nat) : Nat := if ew = 4 then e / 2 else e * (ew / 8)

/-- Mask(k, e) with the run of R122; k0 is unmasked (R8). -/
def Ctx.active (c : Ctx) (m e ew : Nat) : Bool :=
  m = 0 || (c.mask (m + elemByte e ew / 8192)).getLsbD (elemByte e ew % 8192)

/-- The bit of a mask operand that governs element `e`; k0 reads as ones (R142). -/
def Ctx.maskBit (c : Ctx) (m e ew : Nat) : Bool := (c.mask (if m = 0 then 0 else m + elemByte e ew / 8192)).getLsbD (elemByte e ew % 8192)

/-- Sets one bit of a register. -/
def bitPut {n : Nat} (v : BitVec n) (i : Nat) (b : Bool) : BitVec n :=
  if b then v ||| (BitVec.ofNat n 1 <<< i) else v &&& ~~~(BitVec.ofNat n 1 <<< i)

/-- Marks destination element `e` poisoned: its granule, its pm bits and PMCNT (R130). -/
def State.poisonElem (s : State) (g e ew : Nat) : State :=
  let s := { s with poison := setPoison s.poison (s.runAddr g (e * ew / 8)) (Nat.max 1 (ew / 8)) }
  s.setCur (fun c => { c with
    poisonMask := (List.range (Nat.max 1 (ew / 8))).foldl (fun p i => bitPut p ((elemByte e ew + i) % 8192) true) c.poisonMask,
    pmcnt := satInc c.pmcnt })

/-- Sets the pm bits of an element and counts it, without a row granule (R130, R143). -/
def Ctx.countPoison (c : Ctx) (e ew : Nat) : Ctx :=
  { c with
    poisonMask := (List.range (Nat.max 1 (ew / 8))).foldl (fun p i => bitPut p ((elemByte e ew + i) % 8192) true) c.poisonMask,
    pmcnt := satInc c.pmcnt }

/-- Clears the poison of every granule that a set of bytes of a run covers wholly: element writes of one instruction
(R113). `written` tells whether element `e` was written sound. -/
def State.freshenRun (s : State) (g n : Nat) (byteWritten : Nat → Bool) : State :=
  if s.poison.isEmpty then s else
  let grans := (List.range (n * 256)).filter (fun q => (List.range 32).all (fun i => byteWritten (q * 32 + i)))
  { s with poison := grans.foldl (fun p q => clearPoison p (s.runAddr g (q * 32)) 32) s.poison }

/-- The largest vg of a latency class (R344). -/
def vgMax (lclass : Nat) : Nat := if lclass = 0 then 2 else if lclass = 1 then 4 else 8

/-- The latency-class check of R345. -/
def checkClass : M Unit := do
  let c := (← get).cur
  checkM (vgOf c.vcfg ≤ vgMax c.lclass) 20 10 c.vcfg

/-- A row field must be a multiple of `n`, counted from o0 (R45, R121): class 11, subcode 4. -/
def checkRowAlign (v : BitVec 6) (n : Nat) : M Unit := checkM (rowField v % n == 0) 11 4 (v.zeroExtend 64)

/-- A mask field must be a multiple of vg (R122): class 11, subcode 5. -/
def checkMaskAlign (m vg : Nat) (field : Nat) : M Unit := checkM (m % vg == 0) 11 5 (BitVec.ofNat 64 field)

/-- Whether `n` bytes from byte `a` of a run touch its 4 KiB granule `q`. -/
def bytesTouch (a n q : Nat) : Bool := 0 < n && a / 4096 ≤ q && q ≤ (a + n - 1) / 4096

/-- The region check of a replayable launch on the 4 KiB granules of a run of rows that an instruction touches (R352). -/
def replayRun (g n : Nat) (write : Bool) (touch : Nat → Bool) : M Unit := do
  let s ← get
  (List.range (2 * n)).forM (fun q => do
    let va := (s.homeGroup (g + q / 2)).va + BitVec.ofNat 64 (q % 2 * 4096)
    checkM (s.replayOk va.toNat 4096 write false || !touch q) 19 11 va)

end Sys2Proof.Machine
end

