-- ==== Sys2Proof/Machine/Mgmt.lean ====
section
/-! DEFINITION. Cairn's management registers 0x300-0x343 (R58, R376-R398): islands, sensors, permits, pace, log and
monitors as crr and crw see them, and the effective level of R375. -/

namespace Sys2Proof.Machine

/-- A 16-bit two's-complement field of a reading. -/
def sixteenths (x : Int) : Word := BitVec.ofNat 64 (lowN x 16)

/-- A selected monitor. -/
def State.monitor (s : State) (n : Nat) : Monitor := s.monitors.get n Monitor.blank

/-- Whether a management number is assigned (R58). -/
def mgmtAssigned (n : Nat) : Bool :=
  (0x300 ≤ n && n ≤ 0x305) || (0x310 ≤ n && n ≤ 0x31B) || n = 0x320 || n = 0x321 || (0x330 ≤ n && n ≤ 0x343)

/-- Whether a management register is marked R (R58). -/
def mgmtReadOnly (n : Nat) : Bool := n = 0x311 || n = 0x318 || n = 0x319 || (0x332 ≤ n && n ≤ 0x343)

/-- PACEREQ (R388). -/
def State.paceReq (s : State) : Word :=
  BitVec.ofNat 64 s.pace.level ||| (s.pace.group.zeroExtend 64) <<< 16 ||| boolWord s.pace.en <<< 32

/-- PACECUR (R388). -/
def State.paceCur (s : State) : Word :=
  BitVec.ofNat 64 (s.pace.cur + s.pace.next * 256) ||| boolWord s.pace.pending <<< 11 ||| s.pace.stamp <<< 16

/-- MIP: bit 0 follows its condition, the others are edges (R394). -/
def State.mipBits (s : State) : BitVec 11 :=
  (s.mgmt.mip &&& 0x7FE) ||| (if s.sensors.any (fun p => p.2.alarm) then 1 else 0)

/-- A read of a management register. -/
def State.mgmtRead (s : State) (n : Nat) : Word :=
  let i := s.island s.mgmt.islsel
  let hub := s.mgmt.islsel = 32
  let sen := s.sensor s.mgmt.sensel
  let mon := s.monitor s.mgmt.monsel
  if n = 0x300 then boolWord s.mgmt.ie ||| boolWord s.mgmt.pie <<< 1 ||| boolWord s.mgmt.ml <<< 2
  else if n = 0x301 then s.mgmt.mcause
  else if n = 0x302 then s.mgmt.mepc
  else if n = 0x303 then s.mgmt.mvec
  else if n = 0x304 then s.mgmt.mie.zeroExtend 64
  else if n = 0x305 then s.mipBits.zeroExtend 64
  else if n = 0x310 then BitVec.ofNat 64 s.mgmt.sensel
  else if n = 0x311 then sixteenths sen.value ||| boolWord sen.failed <<< 16
  else if n = 0x312 then boolWord sen.failed ||| boolWord sen.stuck <<< 1 ||| boolWord sen.range <<< 2 |||
    boolWord sen.neigh <<< 3 ||| boolWord sen.alarm <<< 4 ||| sixteenths sen.alert <<< 16
  else if n = 0x313 then sixteenths sen.pred ||| sixteenths sen.est <<< 16
  else if n = 0x314 then BitVec.ofNat 64 s.mgmt.islsel
  else if n = 0x315 then
    if hub then BitVec.ofNat 64 (s.hubLevel + s.hubLevel * 256) ||| boolWord s.hubGate <<< 24
    else BitVec.ofNat 64 (i.level + s.eff s.mgmt.islsel * 256) ||| boolWord i.held7 <<< 16 ||| boolWord i.cap <<< 17 |||
      boolWord s.peak <<< 18 ||| boolWord i.gate <<< 24
  else if n = 0x316 then
    if hub then BitVec.ofNat 64 ((s.hubPwr % 65536) * 65536) else BitVec.ofNat 64 (i.claim + i.step * 256 + (i.pwr % 65536) * 65536)
  else if n = 0x317 then s.paceReq
  else if n = 0x318 then s.paceCur
  else if n = 0x319 then BitVec.ofNat 64 (s.power.pool + s.power.idle * 256)
  else if n = 0x31A then boolWord s.power.boostEn
  else if n = 0x31B then if hub then 0 else i.chain.zeroExtend 64
  else if n = 0x320 then s.mgmt.logbase
  else if n = 0x321 then s.mgmt.logidx
  else if n = 0x330 then BitVec.ofNat 64 s.mgmt.monsel
  else if n = 0x331 then BitVec.ofNat 64 (mon.source + mon.index * 2 ^ 8 + mon.shift * 2 ^ 18) ||| boolWord mon.en <<< 24 |||
    (mon.thresh.zeroExtend 64) <<< 32
  else if n = 0x332 then mon.mn
  else if n = 0x333 then mon.mx
  else if 0x334 ≤ n ∧ n ≤ 0x343 then vget mon.bins (n - 0x334)
  else 0

/-- Range of INDEX for a SOURCE (R398). -/
def monitorIndexOk (source index : Nat) : Bool :=
  match source with
  | 1 => index ≤ 647
  | 2 => index ≤ 32
  | 3 => index ≤ 31
  | 4 => index < 512
  | 5 => index < 512
  | 6 => index < 512
  | 8 => index ≤ 8
  | 9 => index ≤ 15
  | _ => index = 0

/-- A write of ISLTHR to the selected island (R376), which lifts the hold of R395 for that island. -/
def State.writeIslthr (s : State) (v : Word) : State :=
  if s.mgmt.islsel = 32 then { s with hubLevel := fld v.toNat 0 3, hubGate := v.getLsbD 24 }
  else (s.setIsland s.mgmt.islsel (fun i => { i with level := fld v.toNat 0 3, gate := v.getLsbD 24, floor := false })).dropBoost

/-- A write of PERMCFG.DROP (R386). -/
def State.requestDrop (s : State) : State := { s with power := { s.power with dropPending := true } }

/-- HOLD7 of an island by its tower readings and band 3 (R393). -/
def State.rehold (s : State) (n : Nat) : State :=
  let hot := s.towersAbove n 1680
  let band3 := s.islandBand3 n
  if hot || band3 then s.putHold7 n (fun i => { i with hold7 := true }) hot band3
  else if s.towersAbove n 1664 then s
  else s.putHold7 n (fun i => { i with hold7 := false }) hot band3

/-- A tower sensor's reading or PRED may have reached the critical point (R393): class 22, subcode 1 once per rise, level 7 for
the contexts of the island whose migration waits on a region, and HOLD7 by the readings that now stand. -/
def State.criticalRise (s : State) (n : Nat) : State :=
  let x := s.sensor n
  let s1 := if x.critical && x.critArmed then
      State.raiseMip { s with sensors := s.sensors.put n { x with critArmed := false } } 1 (BitVec.ofNat 64 n)
    else s
  let s2 := if x.critical then s1.holdRegions (islandOf n) else s1
  s2.rehold (islandOf n)

/-- The critical point at a sample of a tower sensor (R393): a sample below it arms the next rise. -/
def State.criticalSample (s : State) (n : Nat) : State :=
  let x := s.sensor n
  State.criticalRise (if x.critical then s else { s with sensors := s.sensors.put n { x with critArmed := true } }) n

/-- A write changed what a sensor reads (R380, R393): the critical point and HOLD7 follow at once for a tower sensor. Alarms
and refresh bands wait for the next sample (R383, R106). -/
def State.sensorWritten (s : State) (n : Nat) : State := if n < 512 then s.criticalRise n else s

/-- A write of 1 to MONCFG.CLR (R397). -/
def State.clearMonitor (s : State) (n : Nat) : State :=
  let m := s.monitor n
  { s with monitors := s.monitors.put n { m with mn := BitVec.allOnes 64, mx := 0, bins := Vector.replicate 16 0 } }

/-- A write of 0 to MIP bits clears the edge bits (R394). -/
def State.clearMip (s : State) (v : Word) : State :=
  { s with mgmt := { s.mgmt with mip := s.mgmt.mip &&& v.extractLsb' 0 11 } }

/-- The islands a sensor counts in (R382). -/
def sensorIslands (n : Nat) : List Nat :=
  if n < 512 then [n / 16] else if n < 640 then (List.range 4).map (· + (n - 512) / 16 * 4) else []

/-- The PWR a sensor's STUCK check follows (R381): its island's, the sum of the stack's four islands for a layer, the hub's
for a hub sensor. -/
def State.sensorPwr (s : State) (n : Nat) : Nat :=
  if n < 512 then (s.island (n / 16)).pwr
  else if n < 640 then ((sensorIslands n).map (fun i => (s.island i).pwr)).sum
  else s.hubPwr

/-- A write of 0 to SENFLAG.FAILED readmits the sensor (R380): a failed one begins a new run for STUCK (R381). -/
def State.readmit (s : State) (n : Nat) : State :=
  let x := s.sensor n
  let y := { x with failed := false, stuck := false, range := false, neigh := false }
  { s with sensors := s.sensors.put n (if x.failed then { y with same := 0, base := s.sensorPwr n, moved := false } else y) }

/-- A write of 1 to SENFLAG.FAILED marks a sensor failed (R380); one already failed keeps its cause bits. -/
def State.markFailed (s : State) (n : Nat) : State :=
  let x := s.sensor n
  { s with sensors := s.sensors.put n { x with failed := true } }

/-- A write of 0 to SENFLAG.ALARM (R380). -/
def State.clearAlarm (s : State) (n : Nat) : State :=
  let x := s.sensor n
  { s with sensors := s.sensors.put n { x with alarm := false } }

/-- The failed sensors of an island: its 16 towers and its stack's 16 layers (R382). -/
def State.failedOf (s : State) (isl : Nat) : Nat :=
  ((List.range 16).filter (fun i => (s.sensor (isl * 16 + i)).failed)).length +
    ((List.range 16).filter (fun l => (s.sensor (512 + 16 * (isl / 4) + l)).failed)).length

/-- Capping follows the count of failed sensors (R382). -/
def State.recap (s : State) (isls : List Nat) : State :=
  isls.foldl (fun t n =>
    let c := t.failedOf n
    if 4 ≤ c ∧ !(t.island n).cap then
      (((t.setIsland n (fun i => { i with cap := true })).raiseMip 9 (BitVec.ofNat 64 n)).hwLog 10 n (BitVec.ofNat 64 c) 0).dropBoost
    else if c < 4 then t.setIsland n (fun i => { i with cap := false }) else t) s

/-- A write of SENFLAG to the selected sensor (R380). -/
def State.writeSenflag (s : State) (v : Word) : State :=
  let n := s.mgmt.sensel
  let s := if v.getLsbD 0 then s.markFailed n else s.readmit n
  let s := if v.getLsbD 4 then s else s.clearAlarm n
  let x := s.sensor n
  let s := { s with sensors := s.sensors.put n { x with alert := sextN (fld v.toNat 16 16) 16 } }
  (s.sensorWritten n).recap (sensorIslands n)

/-- A write of SENPRED to the selected sensor (R380), which ends the hardware's own tracking. -/
def State.writeSenpred (s : State) (v : Word) : State :=
  let n := s.mgmt.sensel
  let x := s.sensor n
  let y := { x with pred := sextN (fld v.toNat 0 16) 16, est := sextN (fld v.toNat 16 16) 16, tracking := false }
  State.sensorWritten { s with sensors := s.sensors.put n y } n

/-- A write of a management register (R80, R376-R398): class 0, subcode 8 on a reserved field value, class 3, subcode 10 on
an address not aligned. `word` is the instruction word for TVAL. With island 32 selected CLAIM 3 still traps, and CHAINSET reads 0 and
ignores writes (DESIGN CHOICE, log entry 15). -/
def State.mgmtWrite (n : Nat) (v : Word) (word : Word) : M Unit := fun s =>
  let ok := fun (t : State) => (Except.ok ((), t) : Except Stop (Unit × State))
  let bad := (Except.error (.trap 8 word none) : Except Stop (Unit × State))
  let misaligned := (Except.error (.trap (3 * 16 + 10) v none) : Except Stop (Unit × State))
  let x := v.toNat
  if n = 0x300 then ok { s with mgmt := { s.mgmt with ie := bitAt x 0, pie := bitAt x 1, ml := bitAt x 2 } }
  else if n = 0x301 then ok { s with mgmt := { s.mgmt with mcause := v &&& 0xFFFF_FFFF_FFFF_03FF } }
  else if n = 0x302 then if x % 8 != 0 then misaligned else ok { s with mgmt := { s.mgmt with mepc := v } }
  else if n = 0x303 then if x % 8 != 0 then misaligned else ok { s with mgmt := { s.mgmt with mvec := v } }
  else if n = 0x304 then ok { s with mgmt := { s.mgmt with mie := v.extractLsb' 0 11 } }
  else if n = 0x305 then ok (s.clearMip v)
  else if n = 0x310 then
    if 648 ≤ fld x 0 10 then bad else ok { s with mgmt := { s.mgmt with sensel := fld x 0 10 } }
  else if n = 0x312 then ok (s.writeSenflag v)
  else if n = 0x313 then ok (s.writeSenpred v)
  else if n = 0x314 then if 33 ≤ fld x 0 6 then bad else ok { s with mgmt := { s.mgmt with islsel := fld x 0 6 } }
  else if n = 0x315 then ok (s.writeIslthr v)
  else if n = 0x316 then
    if fld x 0 2 = 3 then bad
    else if s.mgmt.islsel = 32 then ok s else ok (s.setIsland s.mgmt.islsel (fun i => { i with claim := fld x 0 2 }))
  else if n = 0x317 then
    let p := { s.pace with level := fld x 0 3, group := v.extractLsb' 16 16, en := bitAt x 32 }
    let p := if bitAt x 32 && !s.pace.en then { p with joined := s.clk, coordHeard := s.clk, sentAt := none, degraded := false, applied := 0, pending := false, later := [] } else p
    ok (State.dropBoost { s with pace := p })
  else if n = 0x31A then
    let s := { s with power := { s.power with boostEn := bitAt x 0 } }
    ok (if bitAt x 1 then s.requestDrop else s)
  else if n = 0x31B then
    if s.mgmt.islsel = 32 then ok s else ok (s.setIsland s.mgmt.islsel (fun i => { i with chain := v.extractLsb' 0 8 }))
  else if n = 0x320 then if x % 4096 != 0 then misaligned else ok { s with mgmt := { s.mgmt with logbase := v } }
  else if n = 0x321 then if bitAt x 63 then ok s.logAppend else ok { s with mgmt := { s.mgmt with logidx := v } }
  else if n = 0x330 then ok { s with mgmt := { s.mgmt with monsel := fld x 0 6 } }
  else if n = 0x331 then
    if 12 < fld x 0 8 || !monitorIndexOk (fld x 0 8) (fld x 8 10) then bad else
    let m := s.monitor s.mgmt.monsel
    let m := { m with source := fld x 0 8, index := fld x 8 10, shift := fld x 18 5, en := bitAt x 24, thresh := v.extractLsb' 32 32 }
    let t := { s with monitors := s.monitors.put s.mgmt.monsel m }
    ok (if bitAt x 25 then t.clearMonitor s.mgmt.monsel else t)
  else ok s

end Sys2Proof.Machine
end

