-- ==== Sys2Proof/Machine/WaitTable.lean ====
section
/-! DEFINITION. Cirque, the wait-for table (R291-R297): capacity, cycle checks, registration, holds, and the semaphore bits
whose holders it follows (R279-R281). -/

namespace Sys2Proof.Machine

/-- KIND of a triple (R295). -/
def WaitKind.num (k : WaitKind) : Nat :=
  match k with
  | .semt => 0
  | .barw => 1
  | .barad => 2
  | .lkw => 3
  | .qwait => 4
  | .jrecv => 5
  | .wreg => 6

/-- The 60-bit key and 4-bit class of an object (R295). -/
def ObjKey.word (o : ObjKey) : Nat := o.key % 2 ^ 60 + o.cls * 2 ^ 60

/-- Tracked wait entries in use (R292). -/
def State.waitEntries (s : State) : Nat := (s.live.filter (fun c => match c.wait with
  | some w => w.tracked
  | none => false)).length

/-- The place of the next registration in the order of registrations (R281). -/
def State.nextWait (s : State) : Nat := s.live.foldl (fun n c => Nat.max n ((c.wait.map (fun w => w.since + 1)).getD 0)) 0

/-- The path from an object's holders back to a context, at most `n` edges (R295): each step's context, kind and object. Where more
than one cycle closes, the one found first is reported, holders tried in the order of their records (DESIGN CHOICE, log entry 17). -/
def State.cycleFrom (s : State) (me : Nat) (o : ObjKey) : Nat → Option (List (Nat × Nat × ObjKey))
  | 0 => none
  | n + 1 =>
    if (s.holders o).contains me then some []
    else (s.holders o).findSome? (fun h => match s.ctx? h with
      | none => none
      | some c => match c.wait with
        | none => none
        | some w => if w.tracked then (s.cycleFrom me w.obj n).map (fun p => (h, w.kind.num, w.obj) :: p) else none)

/-- A triple of the trap record (R295). -/
def tripleBytes (t : Nat × Nat × ObjKey) : List Byte := leBytes (t.1 % 2 ^ 28 + t.2.1 * 2 ^ 28) 4 ++ leBytes t.2.2.word 8

/-- The cycle check of R295 when the current context adds an edge of a KIND to an object: class 18, subcode 0. -/
def cycleCheck (kind : Nat) (o : ObjKey) (keep : Option State) : M Unit := fun s =>
  match s.cycleFrom s.cur.reqid o 16 with
  | none => .ok ((), s)
  | some p =>
    let path := (s.cur.reqid, kind, o) :: p
    .error (.cycle path.length ((path.map tripleBytes).flatten) keep)

/-- The full-table rule of R296: UNTRACKED counts, or class 18, subcode 2, when STRICT. -/
def tableFull (keep : Option State) : M Unit := fun s =>
  if s.cur.strict then .error (.trap (18 * 16 + 2) 0 keep)
  else .ok ((), s.setCur (fun c => { c with untracked := Nat.min 65535 (c.untracked + 1) }))

/-- Records a hold of the current context, or counts it untracked (R292, R296). -/
def recordHold (o : ObjKey) : M Unit := do
  let s ← get
  if (s.holders o).contains s.cur.reqid then pure ()
  else if s.holdRoom o then set (s.addHold o s.cur.reqid)
  else tableFull none

/-- The kind and class of an entry, the TVAL of class 18, subcode 8 (R301). -/
def WaitEntry.tag (w : WaitEntry) : Word := BitVec.ofNat 64 (w.kind.num + w.obj.cls * 16)

/-- A blocking wait with a software wait registered traps class 18, subcode 8 (R291). -/
def noSoftwareWait : M Unit := do
  match (← get).cur.wait with
  | some w => if w.kind = .wreg then trapM 18 8 w.tag else pure ()
  | none => pure ()

/-- Whether the current context's entry is of this kind and object. -/
def Ctx.waiting (c : Ctx) (k : WaitKind) (o : ObjKey) : Bool := c.waitsOn k o

/-- The context's entry in the table: an untracked wait has none (R296). -/
def Ctx.entryOf (c : Ctx) : Option WaitEntry := c.wait.filter (fun w => w.tracked)

/-- A context leaves a wait of a kind on an object: the entry goes, if it has that one, and another stays (R291). -/
def Ctx.leaveWait (c : Ctx) (k : WaitKind) (o : ObjKey) : Ctx :=
  { c with wait := if c.waitsOn k o then none else c.wait, blocked := false }

/-- Ends the current context's wait of a kind on an object. -/
def endWait (k : WaitKind) (o : ObjKey) : M Unit := modify (fun s => s.setCur (fun c => c.leaveWait k o))

/-- Registers a wait and blocks (R291, R295, R296). A wait that runs again on the same kind and object keeps its entry, and a wait
without an entry is registered afresh unless it goes on. `keep` is the state a trap keeps. -/
def blockOn (k : WaitKind) (o : ObjKey) (gen : BitVec 32) (keep : Option State) : M Unit := do
  let s ← get
  if s.cur.waiting k o && (s.cur.entryOf.isSome || s.cur.blocked || s.cur.wokenUp) then
    set (s.setCur (fun c => { c with blocked := true, wait := c.wait.map (fun w => { w with woken := false, gen := gen }) }))
  else
    let order := s.nextWait
    modify (fun s => s.setCur (fun c => { c with wait := none }))
    let s ← get
    let entry : WaitEntry := { kind := k, obj := o, tracked := true, since := order, woken := false, gen := gen }
    if s.waitEntries < 16384 && s.objectRoom o then
      cycleCheck k.num o keep
      modify (fun s => s.setCur (fun c => { c with blocked := true, wait := some entry }))
    else
      tableFull keep
      modify (fun s => s.setCur (fun c => { c with blocked := true, wait := some { entry with tracked := false } }))
  holdKeep

/-- Wakes every context that waits on an object with a kind. -/
def State.wakeAll (s : State) (k : WaitKind) (o : ObjKey) : State :=
  (s.live.filter (fun c => c.waitsOn k o)).foldl (fun s c => State.wake s c.reqid) s

/-! ### Semaphore bits -/

/-- The object of a semaphore bit of global tower `t` (R292). -/
def semObj (t bit : Nat) : ObjKey := { cls := 0, key := t * 64 + bit }

/-- Sets a semaphore bit with a holder, or none (R279, R281). -/
def State.semSet (s : State) (t bit : Nat) (holder : Option Nat) : State :=
  s.setTower t (fun w => { w with
    sem := bitPut w.sem bit true,
    holders := match holder with
      | some h => w.holders.put bit h
      | none => w.holders.del bit })

/-- Ends the hold of the context that set a semaphore bit (R292). -/
def State.endSemHold (s : State) (t bit : Nat) : State :=
  match (s.tower t).holders.find bit with
  | some id => s.endHold (semObj t bit) id
  | none => s

/-- A bit that was handed over is cleared before its taker has run on: its semt has the bit no longer (R281). -/
def State.unhand (s : State) (o : ObjKey) : State :=
  (s.live.filter (fun c => c.handed == some o)).foldl (fun s c => s.mapCtx c.reqid (fun c => { c with handed := none })) s

/-- Clears a semaphore bit with the handover of R281: to the waiter of highest effective priority, among equals the one
that has waited longest; it holds the bit where the table has room (R296). A bit already clear is left unchanged. -/
def State.semClear (s : State) (t bit : Nat) : State :=
  if !(s.tower t).sem.getLsbD bit then s else
  let o := semObj t bit
  let s := (s.endSemHold t bit).unhand o
  match s.bestWaiter (fun c => c.waitsOn .semt o) with
  | none => s.setTower t (fun w => { w with sem := bitPut w.sem bit false, holders := w.holders.del bit })
  | some c =>
    let s := (s.semSet t bit (some c.reqid)).mapCtx c.reqid (fun c =>
      Ctx.readied { c with blocked := false, wait := none, handed := some o } s.clk s.nextReady)
    s.giveHold o c.reqid

/-- A supervisor write of SEMBITS (R279): bits written as 1 are set with no holder, bits written as 0 are cleared. -/
def State.writeSembits (s : State) (t : Nat) (v : Word) : State :=
  (List.range 64).foldl (fun s b =>
    if v.getLsbD b then (s.endSemHold t b).semSet t b none
    else s.semClear t b) s

/-- What Cirque does when a context ends (R297): its wait entry goes, a message that woke it goes to the next receiver (R324), every
hold ends, its semaphore bits are cleared with handover. -/
def State.endHolds (s : State) (id : Nat) : State :=
  let waited := (s.ctx? id).bind (fun c => if c.waitsOn .jrecv mailboxObj then some (jobOf c.launch) else none)
  let s := s.mapCtx id (fun c => { c with wait := none, blocked := false, handed := none, gone := none })
  let s := match waited with
    | some job => s.tellReceivers job
    | none => s
  let bits := s.towers.flatMap (fun p => p.2.holders.filterMap (fun h => if h.2 = id then some (p.1, h.1) else none))
  let s := bits.foldl (fun s p => State.semClear s p.1 p.2) s
  (s.held id).foldl (fun s o => State.dropHold s o id) s

/-- WFTSTAT (R299). -/
def State.wftstat (s : State) : Word :=
  let wreg := match s.cur.entryOf with
    | some w => w.kind = .wreg
    | none => false
  BitVec.ofNat 64 (s.cur.untracked + s.eprio s.cur.reqid * 2 ^ 16 + Nat.min 15 (s.held s.cur.reqid).length * 2 ^ 20) |||
    boolWord wreg <<< 19

end Sys2Proof.Machine
end

