-- ==== Sys2Proof/Machine/ControlRegs.lean ====
section
/-! DEFINITION. Control registers (R57, R58, R80): which a hart may reach, what each reads as, and what a write of each
does; crr, crw, crs and crc. -/

namespace Sys2Proof.Machine

/-- Whether a number of the user block is assigned (R58). -/
def userAssigned (n : Nat) : Bool :=
  n ≤ 0x0B || (0x10 ≤ n && n ≤ 0x14) || (0x18 ≤ n && n ≤ 0x1A) || (0x20 ≤ n && n ≤ 0x25) || (0x30 ≤ n && n ≤ 0x32) ||
    n = 0x40 || n = 0x41 || (0x86 ≤ n && n ≤ 0x89)

/-- Whether a number of the supervisor block is assigned (R58). -/
def superAssigned (n : Nat) : Bool :=
  (0x100 ≤ n && n ≤ 0x106) || (0x110 ≤ n && n ≤ 0x114) || (0x120 ≤ n && n ≤ 0x127)

/-- Whether a number of the tower block is assigned (R58). -/
def towerAssigned (n : Nat) : Bool := (0x200 ≤ n && n ≤ 0x210) || (0x218 ≤ n && n ≤ 0x21A)

/-- The reach check of R57 before the read-only rule: a cause code, and whether TVAL is the register number (class 1) or
the instruction word (class 0). -/
def crReach (c : Ctx) (n : Nat) : Option (Nat × Bool) :=
  if 0x400 ≤ n then some (14, false)
  else if 0x300 ≤ n then
    if c.kind != .cairn then some (1 * 16 + 1, true) else if mgmtAssigned n then none else some (14, false)
  else if c.kind = .cairn then if n = 0x30 then none else some (14, false)
  else if 0x200 ≤ n then
    if c.kind = .control then some (14, false) else if towerAssigned n then none else some (14, false)
  else if 0x100 ≤ n then
    if !c.sup then some (1 * 16, true) else if superAssigned n then none else some (14, false)
  else if userAssigned n then none else some (14, false)

/-- Registers no hart writes (R58). -/
def alwaysReadOnly (n : Nat) : Bool :=
  n = 0x0A || n = 0x18 || (0x20 ≤ n && n ≤ 0x25) || n = 0x30 || n = 0x41 || (0x120 ≤ n && n ≤ 0x123) || (0x218 ≤ n && n ≤ 0x21A)

/-- Registers that user mode may only read (R58). -/
def userReadOnly (n : Nat) : Bool :=
  n = 0x0B || n = 0x14 || n = 0x19 || n = 0x1A || n = 0x31 || n = 0x32 || n = 0x40 || n = 0x210

/-- Whether a write of register `n` traps class 0, subcode 15 (R58). -/
def crReadOnly (c : Ctx) (n : Nat) : Bool :=
  alwaysReadOnly n || mgmtReadOnly n || (!c.sup && userReadOnly n)

/-- MOWN (R170). -/
def Ctx.mown (c : Ctx) : Word :=
  boolWord c.mownEn ||| boolWord (c.part = 0 && c.run = .running) <<< 1 |||
    boolWord (c.tile 0).loaded <<< 2 ||| boolWord (c.tile 1).loaded <<< 3 ||| boolWord (c.tile 2).loaded <<< 4 |||
    boolWord (c.tile 3).loaded <<< 5 ||| boolWord (!(c.acc 0).empty) <<< 6 ||| boolWord (!(c.acc 1).empty) <<< 7 |||
    boolWord (!(c.acc 2).empty) <<< 8 ||| boolWord (!(c.acc 3).empty) <<< 9

/-- GANGINFO (R317); DEPTH has 3 bits, in which a depth of 8 reads as 0 (log entry 12). -/
def Ctx.ganginfo (c : Ctx) : Word :=
  match c.gang with
  | none => 0
  | some g => BitVec.ofNat 64 (1 + g.index * 2 + g.count * 2 ^ 7 + g.stack.length % 8 * 2 ^ 15) ||| boolWord g.active <<< 14

/-- HARTID (R322). -/
def Ctx.hartid (c : Ctx) : Word := BitVec.ofNat 64 (c.rank + c.count * 2 ^ 16 + c.index * 2 ^ 32)

/-- THLEVEL of a tower (R377). -/
def State.thlevel (s : State) (t : Nat) : Word :=
  let i := s.island (islandOf t)
  BitVec.ofNat 64 (s.eff (islandOf t) + i.step * 2 ^ 8) ||| boolWord i.held7 <<< 10

/-- Registers that read 0, and ignore writes, on a control hart (R57). -/
def fixedOnControl (n : Nat) : Bool := n ≤ 2 || (0x10 ≤ n && n ≤ 0x14)

/-- A read of an assigned control register (R57, R58). -/
def State.crRead (s : State) (n : Nat) : Word :=
  let c := s.cur
  if 0x300 ≤ n then s.mgmtRead n
  else if c.kind = .control && fixedOnControl n then 0
  else match n with
    | 0x00 => c.vl
    | 0x01 => c.vcfg
    | 0x02 => c.estart
    | 0x03 => c.ctb
    | 0x04 => c.fflags
    | 0x05 => c.frm
    | 0x06 => (c.ckN 0).extractLsb' 0 64
    | 0x07 => (c.ckN 1).extractLsb' 0 64
    | 0x08 => (c.ckN 2).extractLsb' 0 64
    | 0x09 => (c.ckN 3).extractLsb' 0 64
    | 0x86 => (c.ckN 0).extractLsb' 64 64
    | 0x87 => (c.ckN 1).extractLsb' 64 64
    | 0x88 => (c.ckN 2).extractLsb' 64 64
    | 0x89 => (c.ckN 3).extractLsb' 64 64
    | 0x0A => BitVec.ofNat 64 (vlMaxC c.lclass)
    | 0x0B => c.pmcnt
    | 0x10 => c.tcfgN 0
    | 0x11 => c.tcfgN 1
    | 0x12 => c.tcfgN 2
    | 0x13 => c.tcfgN 3
    | 0x14 => c.mown
    | 0x18 => BitVec.ofNat 64 c.reqid
    | 0x19 => c.snext.zeroExtend 64
    | 0x1A => c.sfloor.zeroExtend 64
    | 0x20 => c.hartid
    | 0x21 => if c.kind = .control then 0xFFFF else BitVec.ofNat 64 c.place
    | 0x22 => if c.kind = .control then 0xFFFF else BitVec.ofNat 64 (c.part * 2 ^ 8 + (s.tower c.place).mode)
    | 0x23 => if c.kind = .control then 0xFFFF else BitVec.ofNat 64 c.home
    | 0x24 => c.launch
    | 0x25 => c.ganginfo
    | 0x30 => s.time
    | 0x31 => boolWord c.preq ||| boolWord c.preqNe <<< 8
    | 0x32 => BitVec.ofNat 64 c.pdeadln
    | 0x40 => s.wftstat
    | 0x41 => BitVec.ofNat 64 c.vset.length
    | 0x100 => c.tstat
    | 0x101 => c.tcause
    | 0x102 => c.tpc
    | 0x103 => c.tval
    | 0x104 => c.tvec
    | 0x105 => c.trec
    | 0x106 => c.tscratch
    | 0x110 => c.ptroot
    | 0x111 => BitVec.ofNat 64 c.lclass
    | 0x112 => c.ctxsave
    | 0x113 => BitVec.ofNat 64 c.prio
    | 0x114 => boolWord c.strict
    | 0x120 => Config.feat0
    | 0x124 => vget c.facc 0
    | 0x125 => vget c.facc 1
    | 0x126 => vget c.facc 2
    | 0x127 => vget c.facc 3
    | 0x210 => (s.tower c.place).sem
    | 0x218 => (s.island (islandOf c.place)).chain.zeroExtend 64
    | 0x219 => s.thlevel c.place
    | 0x21A => (s.tower c.place).vbHealth
    | m => if 0x200 ≤ m ∧ m ≤ 0x20F then vget (s.tower c.place).comd (m - 0x200) else 0

/-! ### Writes -/

/-- Tile formats of TCFG (R173). -/
def tileFormat (fc : Nat) : Bool := fc = 0 || fc = 1 || (17 ≤ fc && fc ≤ 21) || (49 ≤ fc && fc ≤ 53) || fc = 11

/-- The tile-row clamp of a latency class (R344). -/
def tileRowClamp (lclass : Nat) : Nat := if lclass = 0 then 32 else if lclass = 1 then 64 else 128

/-- The checks of a TCFG value in the table's order (R173, R174): the class 12 subcode. Reserved bits are ignored (R5), so a value
with no other bit set writes the reset value, which is not checked. -/
def tcfgFault (lclass : Nat) (v : Word) : Option Nat :=
  let x := v.toNat
  let e := fld x 55 8
  if v &&& 0xFFFF_FFFF_031F_FFFF = 0 then none
  else if !tileFormat (fld x 0 6) then some 3
  else if fld x 6 8 = 0 || 128 < fld x 6 8 then some 2
  else if tileRowClamp lclass < fld x 6 8 then some 14
  else if fld x 14 7 = 0 || 64 < fld x 14 7 then some 2
  else if fld x 24 2 = 3 then some 2
  else if e = 255 || fld x 32 31 = 0 then some 4
  else none

/-- TVAL of a rejected TCFG value by subcode (R197). -/
def tcfgTval (sub : Nat) (v : Word) : Word :=
  match sub with
  | 3 => BitVec.ofNat 64 (fld v.toNat 0 6)
  | 4 => BitVec.ofNat 64 (fld v.toNat 32 32)
  | 14 => BitVec.ofNat 64 (fld v.toNat 6 8)
  | _ => v

/-- Writes TCFGn without its reserved bits (R173); the array sees it when a tld carries it (R171). -/
def Ctx.putTcfg (c : Ctx) (n : Nat) (v : Word) : Ctx :=
  { c with tcfg := c.tcfg.set (n % 4) (v &&& 0xFFFF_FFFF_031F_FFFF) (Nat.mod_lt _ (by decide)) }

/-- A write of FACCn (R421). -/
def State.faccValue (s : State) (c : Ctx) (n : Nat) (v : Word) : Word :=
  let feat := if n = 0 then Config.feat0 else 0
  if s.hub.featLock then vget c.facc n &&& v &&& feat else v &&& feat

/-- A write of PREQ (R330): a rise of REQ with NE makes class 20, subcode 11 pending (R338). -/
def Ctx.putPreq (c : Ctx) (v : Word) : Ctx :=
  let rise := !c.preq && v.getLsbD 0
  let c := { c with preq := v.getLsbD 0, preqNe := v.getLsbD 8 }
  if rise && c.preqNe then { c with pend := c.pend ++ [{ code := 20 * 16 + 11, tval := BitVec.ofNat 64 c.pdeadln, extra := 0 }] }
  else c

/-- Whether a context has a remote operation outstanding (R265, R268). -/
def Ctx.remoteBusy (c : Ctx) : Bool := c.transfers.any (fun t => !t.failed && (match t.work with
  | .remote _ _ _ _ _ _ _ _ => true
  | _ => false))

/-- A write of an assigned control register that may be written (R57, R58, R80 and the chapters that own each register).
`word` is the instruction word for the TVAL of class 0. -/
def crWrite (n : Nat) (v word : Word) : M Unit := do
  let s ← get
  let c := s.cur
  let put := fun (f : Ctx → Ctx) => (modify (fun s => s.setCur f) : M Unit)
  if 0x300 ≤ n then State.mgmtWrite n v word
  else if c.kind = .control && fixedOnControl n then pure ()
  else match n with
    | 0x00 => put (fun c => c.grantVl v.toNat)
    | 0x01 => match vcfgFault v with
      | some (code, isWord) => trapCode code (if isWord then word else v)
      | none => put (fun c => c.putVcfg v)
    | 0x02 => put (fun c => { c with estart := v })
    | 0x03 => put (fun c => c.putCtb v)
    | 0x04 => put (fun c => { c with fflags := v &&& 0x1F })
    | 0x05 => put (fun c => { c with frm := v &&& 0x1F07 })
    | 0x06 => put (fun c => c.setCk 0 ((c.ckN 0).extractLsb' 64 64 ++ v))
    | 0x07 => put (fun c => c.setCk 1 ((c.ckN 1).extractLsb' 64 64 ++ v))
    | 0x08 => put (fun c => c.setCk 2 ((c.ckN 2).extractLsb' 64 64 ++ v))
    | 0x09 => put (fun c => c.setCk 3 ((c.ckN 3).extractLsb' 64 64 ++ v))
    | 0x86 => put (fun c => c.setCk 0 (v ++ (c.ckN 0).extractLsb' 0 64))
    | 0x87 => put (fun c => c.setCk 1 (v ++ (c.ckN 1).extractLsb' 0 64))
    | 0x88 => put (fun c => c.setCk 2 (v ++ (c.ckN 2).extractLsb' 0 64))
    | 0x89 => put (fun c => c.setCk 3 (v ++ (c.ckN 3).extractLsb' 0 64))
    | 0x0B => put (fun c => { c with pmcnt := v })
    | 0x14 => put (fun c => { c with mownEn := v.getLsbD 0 })
    | 0x19 => do
      waitUntil (!c.remoteBusy)
      put (fun c => Ctx.refloor { c with snext := v.extractLsb' 0 32 })
    | 0x1A => do
      waitUntil (!c.remoteBusy)
      put (fun c => Ctx.refloor { c with sfloor := v.extractLsb' 0 32 })
    | 0x31 => put (fun c => c.putPreq v)
    | 0x32 => put (fun c => { c with pdeadln := fld v.toNat 0 32, pdeadFrac := 0 })
    | 0x40 => put (fun c => { c with untracked := fld v.toNat 0 16 })
    | 0x100 => put (fun c => { c with
        pm := v.getLsbD 0, tl := v.getLsbD 1, half := v.getLsbD 3, hv := v.getLsbD 4, hdone := v.extractLsb' 5 2,
        async := v.getLsbD 7 })
    | 0x101 => put (fun c => { c with tcause := v &&& 0x1FF })
    | 0x102 => do
      checkM (v.toNat % 8 == 0) 3 10 v
      put (fun c => { c with tpc := v })
    | 0x103 => put (fun c => { c with tval := v })
    | 0x104 => do
      checkM (v.toNat % 8 == 0) 3 10 v
      put (fun c => { c with tvec := v })
    | 0x105 => do
      checkM (v.toNat % 256 == 0) 3 10 v
      put (fun c => { c with trec := v })
    | 0x106 => put (fun c => { c with tscratch := v })
    | 0x110 => put (fun c => { c with ptroot := v &&& 0xFFFF_FFFF_FFFF_F000 })
    | 0x111 => put (fun c => Ctx.clampVl { c with lclass := fld v.toNat 0 2 })
    | 0x112 => do
      checkM (v.toNat % 4096 == 0) 3 10 v
      put (fun c => { c with ctxsave := v })
    | 0x113 => put (fun c => { c with prio := fld v.toNat 0 3 })
    | 0x114 => put (fun c => { c with strict := v.getLsbD 0 })
    | 0x124 => put (fun c => { c with facc := vput c.facc 0 (s.faccValue c 0 v) })
    | 0x125 => put (fun c => { c with facc := vput c.facc 1 (s.faccValue c 1 v) })
    | 0x126 => put (fun c => { c with facc := vput c.facc 2 (s.faccValue c 2 v) })
    | 0x127 => put (fun c => { c with facc := vput c.facc 3 (s.faccValue c 3 v) })
    | 0x210 => modify (fun s => s.writeSembits s.cur.place v)
    | m =>
      if 0x10 ≤ m ∧ m ≤ 0x13 then match tcfgFault c.lclass v with
        | some sub => trapM 12 sub (tcfgTval sub v)
        | none => put (fun c => c.putTcfg (m - 0x10) v)
      else if 0x200 ≤ m ∧ m ≤ 0x20F then
        modify (fun s => s.setTower s.cur.place (fun w => { w with comd := vput w.comd (m - 0x200) v }))
      else pure ()

/-! ### crr, crw, crs, crc -/

/-- The register number of a control-register access (R80). -/
def crNumber (f : Fields) : Nat := f.sub 0 12

/-- The reach check as a body. -/
def crReachM (n : Nat) (word : Word) : M Unit := do
  match crReach (← get).cur n with
  | some (code, num) => trapCode code (if num then BitVec.ofNat 64 n else word)
  | none => pure ()

/-- A read-modify-write of a control register (R80): the old value goes to sD. -/
def crUpdate (f : Fields) (word : Word) (op : Word → Word → Word) (readsOnly : Bool) : M Unit := do
  let n := crNumber f
  crReachM n word
  let s ← get
  let old := s.crRead n
  if readsOnly then pure () else do
    checkM (!crReadOnly s.cur n) 0 15 word
    crWrite n (op old (s.reg f.a)) word
  modify (fun s => s.setReg f.d old)

/-- CRR (R80). -/
def execCrr (f : Fields) (s : State) : Host.Outcome State Fault Refusal :=
  issue (.crr f) (runBody (do
    crReachM (crNumber f) (wordOfInstr (.crr f))
    modify (fun s => s.setReg f.d (s.crRead (crNumber f))))) s

/-- CRW (R80). -/
def execCrw (f : Fields) (s : State) : Host.Outcome State Fault Refusal :=
  issue (.crw f) (runBody (crUpdate f (wordOfInstr (.crw f)) (fun _ a => a) false)) s

/-- CRS (R80); with A = s0 a read (R58). -/
def execCrs (f : Fields) (s : State) : Host.Outcome State Fault Refusal :=
  issue (.crs f) (runBody (crUpdate f (wordOfInstr (.crs f)) (fun o a => o ||| a) (f.a = 0))) s

/-- CRC (R80); with A = s0 a read (R58). -/
def execCrc (f : Fields) (s : State) : Host.Outcome State Fault Refusal :=
  issue (.crc f) (runBody (crUpdate f (wordOfInstr (.crc f)) (fun o a => o &&& ~~~a) (f.a = 0))) s

end Sys2Proof.Machine
end

