-- ==== Sys2Proof/Machine/VecOps.lean ====
section
/-! DEFINITION. What the instructions of class 3, vcvt and vcvtq share: the ordered checks of R125, second operands (R124),
and the writing of elements with their masks, poison and flags (R123, R126, R130, R161). -/

namespace Sys2Proof.Machine

/-- What a vector instruction names, and what it accepts: row runs (field, groups, multiple, written), mask fields. -/
structure VecShape where
  /-- Whether the packed width is accepted (R445). -/
  packed : Bool := true
  /-- Whether FC is one the entry allows. -/
  fcOk : Bool := true
  /-- Class 11, subcode 6. -/
  widthOk : Bool := true
  /-- Row runs in the order D, A, B: field, number of groups (and multiple), whether it is written. -/
  rows : List (BitVec 6 × Nat × Bool) := []
  /-- Mask register numbers in the order D, A, B, M, with the field value. -/
  masks : List (Nat × Nat) := []
  /-- Class 11, subcode 8: vdot4. -/
  lengthOk : Bool := true
  /-- Class 11, subcode 7: the element index of vext and vins. -/
  index : Option Nat := none
  /-- RM field of an instruction that rounds. -/
  rm : Option Nat := none
  /-- Which 4 KiB granules of a row run it reads or writes (R352). -/
  touch : Ctx → BitVec 6 × Nat × Bool → Nat → Bool := fun _ _ _ => true

/-- The elements that an instruction handles from `first` to VL - 1 reach a granule of a run of `n` groups, in which elements stand
ew x n / vg bits apart: the active ones, and under MZ those it writes as zero (R123, R352). -/
def Ctx.reaches (f : Fields) (first : Nat) (c : Ctx) (r : BitVec 6 × Nat × Bool) (q : Nat) : Bool :=
  let ew := ewOf c.vcfg
  let w := ew * r.2.1 / vgOf c.vcfg
  (List.range (c.vl.toNat - first)).any (fun i =>
    ((first + i) * w / 8) / 4096 == q && (c.active f.m.toNat (first + i) ew || (f.mz && r.2.2)))

/-- The same of an element-wise instruction, which begins at ESTART. -/
def Ctx.reachesFrom (f : Fields) (c : Ctx) (r : BitVec 6 × Nat × Bool) (q : Nat) : Bool := c.reaches f c.estart.toNat r q

/-- The same where the mask does not say which elements are read: every element below VL counts (DESIGN CHOICE, log entry 18). -/
def Ctx.reachesAll (f : Fields) (c : Ctx) (r : BitVec 6 × Nat × Bool) (q : Nat) : Bool := c.reaches { f with m := 0 } 0 r q

/-- The same of element `i` alone. -/
def Ctx.reachesOne (i : Nat) (c : Ctx) (q : Nat) : Bool := bytesTouch (i * (ewOf c.vcfg / 8)) (ewOf c.vcfg / 8) q

/-- The same of a reduction: element 0 of D and of B, the active elements of A. -/
def Ctx.reachesReduced (f : Fields) (c : Ctx) (r : BitVec 6 × Nat × Bool) (q : Nat) : Bool :=
  ((r.2.2 || r.1 == f.b) && c.reachesOne 0 q) || (!r.2.2 && r.1 == f.a && c.reaches f 0 r q)

/-- The checks of R125 in order; the rounding mode, 0 where the instruction does not round. Among the row-state checks D comes first, then
A, then B, each run rising, and R352's check of the regions follows them (DESIGN CHOICE, log entry 18). -/
def vecChecks (sh : VecShape) : M RoundMode := do
  let c := (← get).cur
  let vcfg := c.vcfg
  let vg := vgOf vcfg
  checkM (sh.packed || ewOf vcfg != 4) 11 2 vcfg
  checkM sh.fcOk 11 3 vcfg
  checkM sh.widthOk 11 6 vcfg
  sh.rows.forM (fun r => checkRowAlign r.1 r.2.1)
  sh.masks.forM (fun m => checkMaskAlign m.1 vg m.2)
  checkM sh.lengthOk 11 8 c.vl
  match sh.index with
  | some i => checkM (i < c.vl.toNat) 11 7 (BitVec.ofNat 64 i)
  | none => pure ()
  checkClass
  sh.rows.forM (fun r => checkRun (rowField r.1) r.2.1 r.2.2)
  sh.rows.forM (fun r => replayRun (rowField r.1) r.2.1 r.2.2 (sh.touch c r))
  match sh.rm with
  | none => pure 0
  | some rm => match roundingMode rm c.frm with
    | some m => pure m
    | none => trapM 11 9 c.frm

/-- The mask field M as a mask operand. -/
def maskOf (f : Fields) : List (Nat × Nat) := [(f.m.toNat, f.m.toNat)]

/-- A mask register field as a mask operand (R122). -/
def maskField (v : BitVec 6) : List (Nat × Nat) := [(v.toNat - 48, v.toNat)]

/-- The rows that FORM 0b00 gives B (R124). -/
def rowsB (f : Fields) (n : Nat) : List (BitVec 6 × Nat × Bool) := if f.form = 0 then [(f.b, n, false)] else []

/-- The second operand b of element `e` (R124), `w` bits wide. -/
def operandVB (f : Fields) (s : State) (e w : Nat) : Nat :=
  match f.form.toNat with
  | 0 => s.elem (rowField f.b) e w
  | 1 => (s.reg f.b).toNat % 2 ^ w
  | _ => lowN (sextN f.immN 28) w

/-- Whether the second operand of element `e` is poisoned. -/
def poisonVB (f : Fields) (s : State) (e w : Nat) : Bool := f.form = 0 && s.elemPoisoned (rowField f.b) e w

/-- One element to be written: its index, its value, the flags it raised, whether it is poisoned. -/
structure Elt where
  e : Nat
  v : Nat
  flags : Nat := 0
  pois : Bool := false
  deriving DecidableEq, Repr

/-- The elements from `first` to VL - 1 that an instruction writes: active ones computed, masked-off ones zero under MZ
(R123). `c` holds the mask and VCFG. -/
def eltsOf (f : Fields) (c : Ctx) (first : Nat) (val : Nat → Nat × Nat) (pois : Nat → Bool) : List Elt :=
  (List.range (c.vl.toNat - first)).filterMap (fun i =>
    let e := first + i
    if c.active f.m.toNat e (ewOf c.vcfg) then
      let p := pois e
      let r := val e
      some { e := e, v := r.1, flags := if p then 0 else r.2, pois := p }
    else if f.mz then some { e := e, v := 0 } else none)

/-- Whether byte `b` of a run is covered by the elements written, of `ew` bits. -/
def coversByte (es : List Elt) (ew b : Nat) : Bool :=
  if ew = 4 then es.any (fun x => x.e == 2 * b) && es.any (fun x => x.e == 2 * b + 1)
  else es.any (fun x => x.e * (ew / 8) ≤ b && b < (x.e + 1) * (ew / 8))

/-- Whether the elements written, of `ew` bits, meet a range of addresses. -/
def State.eltsHit (s : State) (g ew : Nat) (es : List Elt) (a n : Nat) : Bool :=
  es.any (fun x => rangesMeet (s.runAddr g (elemByte x.e ew)) (Nat.max 1 (ew / 8)) a n)

/-- Writes elements into a run of `n` groups from group `g`: values, check bytes, poison, FFLAGS (R113, R130, R156), the stores of other
harts that come before (R231), and what Cirque watches (R289, R290). -/
def State.writeElts (s : State) (g n ew : Nat) (es : List Elt) : State :=
  let s := es.foldl (fun s x => State.setElem s g x.e ew x.v) s
  let s := s.freshenRun g n (coversByte es ew)
  let s := (es.filter (fun x => x.pois)).foldl (fun s x => State.poisonElem s g x.e ew) s
  let s := (s.settleOthers (s.eltsHit g ew es)).watchBy (s.eltsHit g ew es)
  let fl := es.foldl (fun a x => a ||| x.flags) 0
  if fl = 0 then s else s.setCur (fun c => { c with fflags := c.fflags ||| BitVec.ofNat 64 fl })

/-- The groups of a run that a list of elements touches. -/
def touched (n ew : Nat) (es : List Elt) : List Nat := (List.range n).filter (fun i => es.any (fun x => x.e * ew / 65536 == i))

/-- TVAL of class 13 (R161). -/
def numericTval (index flags : Nat) : Word := BitVec.ofNat 64 (index % 2 ^ 32 + flags * 2 ^ 32)

/-- The element of a list at which an enabled flag traps (R161), with its subcode. -/
def trapElt (frm : Word) (es : List Elt) : Option (Elt × Nat) :=
  es.findSome? (fun x => (trappingFlag (enabledFlags frm) x.flags).map (fun k => (x, k)))

/-- The element boundary at which the turn stops an element-wise instruction (R126, R340), if there is one. -/
def State.stopsAt (s : State) : Option Nat := s.stopAt.filter (fun n => s.cur.estart.toNat < n && n < s.cur.vl.toNat)

/-- The elements that perform before the turn stops. -/
def eltsBefore (stop : Option Nat) (es : List Elt) : List Elt :=
  match stop with
  | none => es
  | some n => es.filter (fun y => y.e < n)

/-- Ends an element-wise instruction: ESTART is 0 (R123), or the element at which it stopped (R126). -/
def endElts (stop : Option Nat) : M Unit :=
  match stop with
  | none => modify (fun s => s.setCur (fun c => { c with estart := 0 }))
  | some n => do
    modify (fun s => s.setCur (fun c => { c with estart := BitVec.ofNat 64 n }))
    holdKeep

/-- Whether a stop before element `n` of a run leaves what the instruction without it would leave (R126): not inside a granule that
was poisoned, which a write of the whole granule makes sound, nor inside one that an element below `n` poisons (R113, R130). A stop is
made at such a boundary only (DEDUCED, log entry 18). -/
def State.boundaryFits (s : State) (g ew : Nat) (es : List Elt) (n : Nat) : Bool :=
  n * ew % 256 == 0 || !(s.elemPoisoned g n ew || es.any (fun x => x.pois && x.e < n && x.e * ew / 256 == n * ew / 256))

/-- Ends an element-wise instruction that writes rows (R123, R126, R161): the elements below a trapping one perform. -/
def finishElts (g n ew : Nat) (es : List Elt) : M Unit := do
  let s ← get
  waitUntil (s.stopsAt.all (s.boundaryFits g ew es))
  let now := eltsBefore s.stopsAt es
  match trapElt s.cur.frm now with
  | none => do
    (touched n ew now).forM (fun i => dirtyRow (g + i))
    modify (fun t => t.writeElts g n ew now)
    endElts s.stopsAt
  | some (x, k) => do
    let done := now.filter (fun y => y.e < x.e)
    (touched n ew done).forM (fun i => dirtyRow (g + i))
    modify (fun s => (s.writeElts g n ew done).setCur (fun c => { c with estart := BitVec.ofNat 64 x.e }))
    trapKeep 13 k (numericTval x.e x.flags)

/-- Ends a whole-row instruction that writes rows (R126, R161). -/
def finishWhole (g n ew : Nat) (es : List Elt) : M Unit := do
  let c := (← get).cur
  match trapElt c.frm es with
  | some (x, k) => trapM 13 k (numericTval x.e x.flags)
  | none => do
    (touched n ew es).forM (fun i => dirtyRow (g + i))
    modify (fun s => (s.writeElts g n ew es).setCur (fun c => { c with estart := 0 }))

/-- Writes the bits of element `e` of a mask run from register `k` (R134). -/
def Ctx.putMaskElem (c : Ctx) (k e ew : Nat) (b : Bool) : Ctx :=
  let i := elemByte e ew
  c.setMask (k + i / 8192) ((List.range (Nat.max 1 (ew / 8))).foldl (fun m j => bitPut m ((i + j) % 8192) b) (c.mask (k + i / 8192)))

/-- Writes compare results (R130, R134): a poisoned element gives 0, sets its pm bits and counts. Of two packed elements that share a
governing bit the higher one's result stands (DESIGN CHOICE, log entry 18). -/
def State.writeMaskElts (s : State) (k ew : Nat) (es : List Elt) : State :=
  let fl := es.foldl (fun a x => a ||| x.flags) 0
  s.setCur (fun c =>
    let c := es.foldl (fun c x => if x.pois then (Ctx.putMaskElem c k x.e ew false).countPoison x.e ew
      else Ctx.putMaskElem c k x.e ew (x.v != 0)) c
    { c with fflags := c.fflags ||| BitVec.ofNat 64 fl })

/-- Ends a compare (R126, R134, R161). It does not stop between two packed elements that share a bit (DEDUCED, log entry 18). -/
def finishMask (k ew : Nat) (es : List Elt) : M Unit := do
  let s ← get
  waitUntil (s.stopsAt.all (fun n => ew != 4 || n % 2 == 0))
  let now := eltsBefore s.stopsAt es
  match trapElt s.cur.frm now with
  | none => do
    modify (fun s => s.writeMaskElts k ew now)
    endElts s.stopsAt
  | some (x, t) => do
    modify (fun s => (s.writeMaskElts k ew (now.filter (fun y => y.e < x.e))).setCur (fun c => { c with estart := BitVec.ofNat 64 x.e }))
    trapKeep 13 t (numericTval x.e x.flags)

/-- An instruction that reads mask registers acquires what R216 gives; one without a mask reads k0 only. -/
def readMasks (ms : List (Nat × Nat)) (vg : Nat) : M Unit :=
  modify (fun s => ((ms.filter (fun m => m.1 != 0)).flatMap (fun m => (List.range vg).map (fun i => m.1 + i))).foldl (fun s k => State.acquireMask s k) s)

/-- FC[4:0] of an integer instruction whose signedness FC gives (R132). -/
def fcInteger (vcfg : Word) : Bool := fcOf vcfg % 32 ≤ 7

/-- Whether FC names a signed integer format. -/
def fcSigned (vcfg : Word) : Bool := fcOf vcfg % 32 % 2 = 0

/-- A `w`-bit value under a signedness. -/
def asInt (signed : Bool) (v w : Nat) : Int := if signed then sextN v w else (v % 2 ^ w : Nat)

end Sys2Proof.Machine
end

