-- ==== Sys2Proof/Machine/Convert.lean ====
section
/-! DEFINITION. vcvt and vcvtq (R162-R165). -/

namespace Sys2Proof.Machine

/-- TVAL of class 11, subcodes 0 and 6, raised by a conversion: IMM28[15:0] (R163). -/
def convTval (f : Fields) : Word := BitVec.ofNat 64 (f.sub 0 16)

/-- The checks of R163 after the formats: alignment, mask, latency class, row state, rounding mode. Runs are (field,
groups, written); `whole` says that the conversion is no element-wise one. -/
def convChecks (f : Fields) (whole : Bool) (rows : List (BitVec 6 × Nat × Bool)) : M RoundMode :=
  vecChecks { rows := rows, masks := maskOf f, rm := some (f.sub 12 3), touch := if whole then Ctx.reaches f 0 else Ctx.reachesFrom f }

/-- VCVT (R162-R164). -/
def execVcvt (f : Fields) (s : State) : Host.Outcome State Fault Refusal :=
  issue (.vcvt f) (runBody (do
    let c := (← get).cur
    let vg := vgOf c.vcfg
    let fs := f.sub 0 6
    let fd := f.sub 6 6
    let ws := fcWidth fs
    let wd := fcWidth fd
    checkM (fcValid fs && fcValid fd) 11 0 (convTval f)
    checkM (wd = ws || wd = 2 * ws || ws = 2 * wd) 11 6 (convTval f)
    checkM (ewOf c.vcfg = Nat.min ws wd) 11 6 (convTval f)
    checkM (ws = wd || vg != 8) 11 6 (convTval f)
    let nd := if ws < wd then 2 * vg else vg
    let na := if wd < ws then 2 * vg else vg
    let rm ← convChecks f (ws != wd) [(f.d, nd, true), (f.a, na, false)]
    readMasks (maskOf f) vg
    let s ← get
    let ga := rowField f.a
    let ov := f.sub 15 1 = 1
    let val := fun e => convert (valueOf (s.elem ga e ws) fs ws) fs fd wd rm ov
    let pois := fun e => s.elemPoisoned ga e ws
    if ws = wd then finishElts (rowField f.d) nd wd (eltsOf f s.cur s.cur.estart.toNat val pois)
    else finishWhole (rowField f.d) nd wd (eltsOf f s.cur 0 val pois))) s

/-- VCVTQ (R165): an exact product with the scale, rounded once. -/
def execVcvtq (f : Fields) (s : State) : Host.Outcome State Fault Refusal :=
  issue (.vcvtq f) (runBody (do
    let s ← get
    let c := s.cur
    let vg := vgOf c.vcfg
    let fd := f.sub 6 6
    let wd := fcWidth fd
    checkM (fcValid fd) 11 0 (convTval f)
    checkM (fd = 11 || (16 ≤ fd % 32 && fd % 32 ≤ 22)) 11 3 c.vcfg
    let r := if fd = 11 then 8 else 4
    checkM (ewOf c.vcfg = wd) 11 6 (convTval f)
    checkM (r * vg ≤ 16) 11 6 (convTval f)
    let scale := if f.b = 0 then Num.fin false 1 0 else valueOf (fld (s.reg f.b).toNat 0 32) 10 32
    let rm ← convChecks f true [(f.d, vg, true), (f.a, r * vg, false)]
    readMasks (maskOf f) vg
    let s ← get
    let ga := rowField f.a
    finishWhole (rowField f.d) vg wd (eltsOf f s.cur 0
      (fun e =>
        let p := mulNum (valueOf (s.elem ga e 32) 10 32) scale
        let q := convert p.1 10 fd wd rm (f.sub 15 1 = 1)
        (q.1, p.2 ||| q.2))
      (fun e => s.elemPoisoned ga e 32)))) s

end Sys2Proof.Machine
end

