-- ==== Sys2Proof/Machine/Permute.lean ====
section
/-! DEFINITION. Class 3, OPs 61 to 76: permutes (R141), mask instructions (R142), checksums (R143, R144) and pmclr (R145). -/

namespace Sys2Proof.Machine

/-- What the permutes share (R141): `rows` beside D, extra masks, which granules of D are written, and the written elements, given
the state after the checks. -/
def permuteBody (f : Fields) (rows : Nat → List (BitVec 6 × Nat × Bool)) (extra : List (Nat × Nat))
    (touchD : Ctx → BitVec 6 × Nat × Bool → Nat → Bool) (es : State → Nat → List Elt) : M Unit := do
  let s ← get
  let vcfg := s.cur.vcfg
  let vg := vgOf vcfg
  let ew := ewOf vcfg
  let _ ← vecChecks { packed := false, rows := [(f.d, vg, true)] ++ rows vg, masks := extra ++ maskOf f,
                       touch := fun c r => if r.2.2 then touchD c r else c.reachesAll f r }
  readMasks (extra ++ maskOf f) vg
  let s ← get
  finishWhole (rowField f.d) vg ew (es s ew)

/-- k of vslide and vrot (R141). -/
def slideAmount (f : Fields) (s : State) : Int := if f.form = 1 then (s.reg f.b).toInt else sextN f.immN 28

/-- The element an index names, if it lies below VL. -/
def State.pick (s : State) (g : Nat) (i : Option Nat) (ew : Nat) : Nat × Bool :=
  match i with
  | some j => if j < s.cur.vl.toNat then (s.elem g j ew, s.elemPoisoned g j ew) else (0, false)
  | none => (0, false)

/-- VSLIDE (R141). -/
def execVslide (f : Fields) (s : State) : Host.Outcome State Fault Refusal :=
  issue (.vslide f) (runBody (permuteBody f (fun vg => [(f.a, vg, false)]) [] (Ctx.reaches f 0) (fun s ew =>
    let k := slideAmount f s
    let src := fun (e : Nat) => if 0 ≤ (e : Int) + k then some ((e : Int) + k).toNat else none
    eltsOf f s.cur 0 (fun e => ((s.pick (rowField f.a) (src e) ew).1, 0)) (fun e => (s.pick (rowField f.a) (src e) ew).2)))) s

/-- VROT (R141). -/
def execVrot (f : Fields) (s : State) : Host.Outcome State Fault Refusal :=
  issue (.vrot f) (runBody (permuteBody f (fun vg => [(f.a, vg, false)]) [] (Ctx.reaches f 0) (fun s ew =>
    let k := slideAmount f s
    let src := fun (e : Nat) => some (((e : Int) + k) % (s.cur.vl.toNat : Int)).toNat
    eltsOf f s.cur 0 (fun e => ((s.pick (rowField f.a) (src e) ew).1, 0)) (fun e => (s.pick (rowField f.a) (src e) ew).2)))) s

/-- VPERM (R141). -/
def execVperm (f : Fields) (s : State) : Host.Outcome State Fault Refusal :=
  issue (.vperm f) (runBody (permuteBody f (fun vg => [(f.a, vg, false), (f.b, vg, false)]) [] (Ctx.reaches f 0) (fun s ew =>
    let src := fun (e : Nat) => some (s.elem (rowField f.b) e ew)
    eltsOf f s.cur 0 (fun e => ((s.pick (rowField f.a) (src e) ew).1, 0))
      (fun e => (s.pick (rowField f.a) (src e) ew).2 || s.elemPoisoned (rowField f.b) e ew)))) s

/-- The granules of D that vcompress writes: as many elements as are active, and under MZ all below VL (R352). -/
def Ctx.packs (f : Fields) (c : Ctx) (r : BitVec 6 × Nat × Bool) (q : Nat) : Bool :=
  let ew := ewOf c.vcfg
  if f.mz then c.reachesAll f r q
  else bytesTouch 0 (((List.range c.vl.toNat).filter (fun e => c.active f.m.toNat e ew)).length * ew / 8) q

/-- VCOMPRESS (R141). -/
def execVcompress (f : Fields) (s : State) : Host.Outcome State Fault Refusal :=
  issue (.vcompress f) (runBody (permuteBody f (fun vg => [(f.a, vg, false)]) [] (Ctx.packs f) (fun s ew =>
    let vl := s.cur.vl.toNat
    let act := (List.range vl).filter (fun e => s.cur.active f.m.toNat e ew)
    let n := act.length
    (act.zip (List.range n)).map (fun p =>
      { e := p.2, v := s.elem (rowField f.a) p.1 ew, pois := s.elemPoisoned (rowField f.a) p.1 ew : Elt }) ++
      (if f.mz then (List.range (vl - n)).map (fun i => { e := n + i, v := 0 }) else [])))) s

/-- VEXPAND (R141). -/
def execVexpand (f : Fields) (s : State) : Host.Outcome State Fault Refusal :=
  issue (.vexpand f) (runBody (permuteBody f (fun vg => [(f.a, vg, false)]) [] (Ctx.reaches f 0) (fun s ew =>
    ((List.range s.cur.vl.toNat).foldl (fun (acc : List Elt × Nat) e =>
      if s.cur.active f.m.toNat e ew then
        (acc.1 ++ [{ e := e, v := s.elem (rowField f.a) acc.2 ew, pois := s.elemPoisoned (rowField f.a) acc.2 ew }], acc.2 + 1)
      else (if f.mz then acc.1 ++ [{ e := e, v := 0 }] else acc.1, acc.2)) ([], 0)).1))) s

/-- VIOTA (R141). -/
def execViota (f : Fields) (s : State) : Host.Outcome State Fault Refusal :=
  issue (.viota f) (runBody (permuteBody f (fun _ => []) (maskField f.a) (Ctx.reaches f 0) (fun s ew =>
    ((List.range s.cur.vl.toNat).foldl (fun (acc : List Elt × Nat) e =>
      let bit := s.cur.maskBit (f.a.toNat - 48) e ew
      let n := if bit then acc.2 + 1 else acc.2
      if s.cur.active f.m.toNat e ew then (acc.1 ++ [{ e := e, v := acc.2 % 2 ^ ew }], n)
      else (if f.mz then acc.1 ++ [{ e := e, v := 0 }] else acc.1, n)) ([], 0)).1))) s

/-! ### Mask instructions (R142) -/

/-- A mask operand of a run: register `i` of the run, all ones for k0. -/
def Ctx.maskRun (c : Ctx) (k i : Nat) : BitVec 8192 := if k = 0 then BitVec.allOnes 8192 else c.mask (k + i)

/-- kand, kor, kxor and knot, on every register of the run. -/
def maskBody (f : Fields) (hasB : Bool) (op : BitVec 8192 → BitVec 8192 → BitVec 8192) : M Unit := do
  let vg := vgOf (← get).cur.vcfg
  let srcs := maskField f.a ++ (if hasB then maskField f.b else [])
  let _ ← vecChecks { masks := maskField f.d ++ srcs }
  readMasks srcs vg
  modify (fun s =>
    let c := s.cur
    s.setCur (fun c0 => { (List.range vg).foldl (fun d i => Ctx.setMask d (f.d.toNat - 48 + i)
      (op (c.maskRun (f.a.toNat - 48) i) (if hasB then c.maskRun (f.b.toNat - 48) i else 0))) c0 with estart := 0 }))

/-- KAND (R142). -/
def execKand (f : Fields) (s : State) : Host.Outcome State Fault Refusal :=
  issue (.kand f) (runBody (maskBody f true (· &&& ·))) s

/-- KOR (R142). -/
def execKor (f : Fields) (s : State) : Host.Outcome State Fault Refusal :=
  issue (.kor f) (runBody (maskBody f true (· ||| ·))) s

/-- KXOR (R142). -/
def execKxor (f : Fields) (s : State) : Host.Outcome State Fault Refusal :=
  issue (.kxor f) (runBody (maskBody f true (· ^^^ ·))) s

/-- KNOT (R142). -/
def execKnot (f : Fields) (s : State) : Host.Outcome State Fault Refusal :=
  issue (.knot f) (runBody (maskBody f false (fun a _ => ~~~a))) s

/-- kpop and kfirst: a scalar from the governing bits of elements 0 to VL - 1. -/
def maskScalarBody (f : Fields) (op : List Bool → Word) : M Unit := do
  let vg := vgOf (← get).cur.vcfg
  let _ ← vecChecks { masks := maskField f.a }
  readMasks (maskField f.a) vg
  modify (fun s =>
    let bits := (List.range s.cur.vl.toNat).map (fun e => s.cur.maskBit (f.a.toNat - 48) e (ewOf s.cur.vcfg))
    (s.setCur (fun c => { c with estart := 0 })).setReg f.d (op bits))

/-- KPOP (R142). -/
def execKpop (f : Fields) (s : State) : Host.Outcome State Fault Refusal :=
  issue (.kpop f) (runBody (maskScalarBody f (fun bs => BitVec.ofNat 64 (bs.filter id).length))) s

/-- KFIRST (R142). -/
def execKfirst (f : Fields) (s : State) : Host.Outcome State Fault Refusal :=
  issue (.kfirst f) (runBody (maskScalarBody f (fun bs => match findIdx id bs 0 with
    | some i => BitVec.ofNat 64 i
    | none => BitVec.allOnes 64))) s

/-- kmov between masks, from pm, from a row and to a row (R142): one register, whatever vg is. -/
def kmovBody (f : Fields) (sel : Nat) : M Unit := do
  match sel with
  | 0 => do
    readMasks (maskField f.a) 1
    modify (fun s => s.setCur (fun c => { c.setMask (f.d.toNat - 48) (c.mask (f.a.toNat - 48)) with estart := 0 }))
  | 1 => modify (fun s => s.setCur (fun c => { c.setMask (f.d.toNat - 48) c.poisonMask with estart := 0 }))
  | 2 => do
    checkRun (rowField f.a) 1 false
    replayRun (rowField f.a) 1 false (fun _ => true)
    modify (fun s =>
      let ga := rowField f.a
      let bs := s.seen (s.runAddr ga 0) 8192
      let bad := (List.range 8192).filter (fun b => s.elemPoisoned ga b 8)
      let v := (List.range 8192).foldl (fun (m : BitVec 8192) b => bitPut m b (bs.getD b 0 != 0 && !(bad.contains b))) 0
      s.setCur (fun c => { bad.foldl (fun c b => Ctx.countPoison c b 8) (c.setMask (f.d.toNat - 48) v) with estart := 0 }))
  | _ => do
    checkRun (rowField f.d) 1 true
    replayRun (rowField f.d) 1 true (fun _ => true)
    readMasks (maskField f.a) 1
    dirtyRow (rowField f.d)
    modify (fun s =>
      let m := s.cur.mask (f.a.toNat - 48)
      let a := s.runAddr (rowField f.d) 0
      let s := (s.settleStores true a 8192).pokeBumped a ((List.range 8192).map (fun b => if m.getLsbD b then (0xFF : Byte) else 0))
      { s with poison := clearPoison s.poison a 8192, cur := { s.cur with estart := 0 } }.watch a 8192)

/-- KMOV (R142). -/
def execKmov (f : Fields) (s : State) : Host.Outcome State Fault Refusal := issue (.kmov f) (runBody (kmovBody f 0)) s

/-- KMOV_PM (R142, SEL 0). -/
def execKmovPm (f : Fields) (s : State) : Host.Outcome State Fault Refusal := issue (.kmovPm f) (runBody (kmovBody f 1)) s

/-- KMOV_ROW_TO_MASK (R130, R142, SEL 1). -/
def execKmovRowToMask (f : Fields) (s : State) : Host.Outcome State Fault Refusal :=
  issue (.kmovRowToMask f) (runBody (kmovBody f 2)) s

/-- KMOV_MASK_TO_ROW (R142, SEL 2). -/
def execKmovMaskToRow (f : Fields) (s : State) : Host.Outcome State Fault Refusal :=
  issue (.kmovMaskToRow f) (runBody (kmovBody f 3)) s

/-! ### Integrity -/

/-- What vcka adds for element `e` (R143). -/
def checksumTerm (vcfg : Word) (w : Bool) (v e : Nat) : Int :=
  let x : Int := if fcOf vcfg % 32 ≤ 6 && fcSigned vcfg then sextN v (ewOf vcfg) else (v % 2 ^ ewOf vcfg : Nat)
  if w then x * (e + 1) else x

/-- VCKA (R143), which the turn can stop at an element boundary (R126). -/
def execVcka (f : Fields) (s : State) : Host.Outcome State Fault Refusal :=
  issue (.vcka f) (runBody (do
    let s ← get
    let vcfg := s.cur.vcfg
    let vg := vgOf vcfg
    let ew := ewOf vcfg
    let _ ← vecChecks { rows := [(f.a, vg, false)], masks := maskOf f, touch := Ctx.reachesFrom f }
    readMasks (maskOf f) vg
    let s ← get
    let ga := rowField f.a
    let es := eltsBefore s.stopsAt
      (eltsOf { f with mz := false } s.cur s.cur.estart.toNat (fun e => (s.elem ga e ew, 0)) (fun e => s.elemPoisoned ga e ew))
    let sum := es.foldl (fun t x => t + checksumTerm vcfg (f.sub 2 1 = 1) x.v x.e) ((s.cur.ckN (f.sub 0 2)).toNat : Int)
    set (s.setCur (fun c =>
      es.foldl (fun c x => if x.pois then Ctx.countPoison c x.e ew else c) (c.setCk (f.sub 0 2) (BitVec.ofInt 128 sum))))
    endElts s.stopsAt)) s

/-- CKCHK (R144): where the trap's record has to wait (R31), nothing has happened yet. -/
def execCkchk (f : Fields) (s : State) : Host.Outcome State Fault Refusal :=
  issue (.ckchk f) (fun s =>
    let i := f.sub 0 2
    let j := f.sub 2 2
    let eq := s.cur.ckN i = s.cur.ckN j
    let s1 := if f.sub 5 1 = 1 then s.setCur (fun c => (c.setCk i 0).setCk j 0) else s
    if f.sub 4 1 = 1 && !eq then Stop.res (.trap (21 * 16 + 1) (BitVec.ofNat 64 (f.sub 0 4)) (some s1)) s
    else .done ((s1.setCur (fun c => { c with estart := 0 })).setReg f.d (boolWord (!eq)))) s

/-- PMCLR (R145): kA names a run under R122; each register of the run clears at its own bit positions. -/
def execPmclr (f : Fields) (s : State) : Host.Outcome State Fault Refusal :=
  issue (.pmclr f) (runBody (do
    let vg := vgOf (← get).cur.vcfg
    let _ ← vecChecks { masks := maskField f.a }
    readMasks (maskField f.a) vg
    modify (fun s => s.setCur (fun c => { c with
      estart := 0
      poisonMask := (List.range vg).foldl (fun p i => p &&& ~~~(c.maskRun (f.a.toNat - 48) i)) c.poisonMask })))) s

end Sys2Proof.Machine
end

