-- ==== Sys2Proof/Machine/RowOps.lean ====
section
/-! DEFINITION. Opening, committing, closing and refreshing groups (R96-R99, R103, R107-R110): the operations behind class 2,
the refresh engine, the save and the end of a context. -/

namespace Sys2Proof.Machine

/-- Undefined contents written over `n` bytes (R5): free values, log entry 8. -/
def State.scribble (s : State) (pa n : Nat) : State :=
  { s.poke pa ((List.range n).map (fun i => Config.freeByte (s.fresh + i))) with fresh := s.fresh + n }

/-- Ends the exposures of a tower that name a group (R203). -/
def State.endExposures (s : State) (k : Nat) : State :=
  s.setTower (k / 256) (fun w => { w with exposures := w.exposures.filter (fun e =>
    !(e.rows.bank == k / 16 % 16 && e.rows.group ≤ k % 16 && k % 16 < e.rows.group + e.rows.len)) })

/-- A group becomes closed now: tRP begins, its exposures end, and a page whose ROW and CACHED uses no longer overlap
stops being in conflict (R33). -/
def State.closeRow (s : State) (k : Nat) : State :=
  match (s.group k).row with
  | none => s
  | some r =>
    let s := s.settleGroup k
    let p := rowBase k r / 4096
    let s := s.setGroup k (fun g => { g with row := none, dirty := false, writable := false, dset := false, free := s.clk, freeFor := 13500 })
    let s := s.endExposures k
    { s with conflict := s.conflict.filter (fun q => s.cachedUse.contains q || !(q == p || q == p + 1)) }

/-- The commit point of a dirty group is now (R98). -/
def State.commitRow (s : State) (k : Nat) : State :=
  let s := s.settleGroup k
  if (s.group k).dirty then s.setGroup k (fun g => { g with dirty := false, commit := s.clk }) else s

/-- pre of one group (R98): commit, then close once tRAS and tWR are met. -/
def State.preGroup (s : State) (k : Nat) : State :=
  let s := s.commitRow k
  (s.waitTo (s.closeAt k)).closeRow k

/-- prex of one group (R98): close once tRAS is met, as its entry says, without a wait for tWR after a commit point (DESIGN CHOICE,
log entry 16); the row then holds undefined contents. -/
def State.prexGroup (s : State) (k : Nat) : State :=
  match (s.group k).row with
  | none => s
  | some r =>
    let s := s.waitTo (s.ends (k / 256) (s.group k).opened 28000)
    (s.closeRow k).scribble (rowBase k r) 8192

/-- An activation that a hart asked for: it has had its turn in the round of its tower (R104). -/
def State.hartActivate (s : State) (k : Nat) : State :=
  ((s.mcClose k).activate k).setTower (k / 256) (fun w => { w with granted := s.cur.part })

/-- Opens physical row `row` of a group (R96). -/
def State.openRow (s : State) (k row : Nat) (va : Word) (writable dirty dset : Bool) : State :=
  let s := s.hartActivate k
  let s := s.setGroup k (fun g => { g with
    row := some row, dirty := dirty, writable := writable, dset := dset, va := va, forced := false, opened := s.clk })
  let p := rowBase k row / 4096
  { s with conflict := [p, p + 1].foldl (fun c q => if s.cachedUse.contains q then insertSorted q c else c) s.conflict }

/-- The contents of a row opened by actn are undefined and unpoisoned until written (R96). -/
def State.blankRow (s : State) (k row : Nat) : State :=
  { s.scribble (rowBase k row) 8192 with poison := clearPoison s.poison (rowBase k row) 8192 }

/-- What act or actn found for one group: its physical row and permissions. -/
structure RowTarget where
  key : Nat
  row : Nat
  va : Word
  writable : Bool
  dset : Bool
  deriving DecidableEq, Repr

/-- The checks of R96 for group `g` of a run, for the virtual row at `va`. -/
def rowTarget (g : Nat) (va : Word) (acc : AccKindT) : M RowTarget := do
  awaitForced g
  let s ← get
  checkM ((s.homeGroup g).row.isNone) 9 1 (BitVec.ofNat 64 g)
  let lo ← translateM va acc
  let hi ← translateM (va + 4096) acc
  checkM (lo.mt == mtRow) 9 3 va
  checkM (hi.mt == mtRow) 9 3 (va + 4096)
  checkM (lo.pa / 8192 == hi.pa / 8192 && lo.pa / 4096 % 2 == 0 && hi.pa / 4096 % 2 == 1) 9 4 va
  checkM (fld lo.pa 31 9 == s.cur.place) 9 5 va
  checkM (fld lo.pa 27 4 == s.cur.home) 9 6 va
  checkM (fld lo.pa 23 4 == g) 9 7 va
  pure { key := groupOf lo.pa, row := rowOf lo.pa, va := va, writable := lo.w && hi.w, dset := lo.d && hi.d }

/-- The checks of R96 for every group of a run, in ascending order. -/
def rowTargets (g0 : Nat) (base : Word) (acc : AccKindT) : Nat → Nat → M (List RowTarget)
  | 0, _ => pure []
  | n + 1, i => do
    let t ← rowTarget (g0 + i) (base + BitVec.ofNat 64 (8192 * i)) acc
    let rest ← rowTargets g0 base acc n (i + 1)
    pure (t :: rest)

/-- Forced close at debt +9 (R110, steps 1, 2 and 4): a group that was open is marked, and the refreshes are due. -/
def State.forceClose (s : State) (k : Nat) : State :=
  let s := if (s.group k).row.isSome then (s.preGroup k).setGroup k (fun g => { g with forced := true }) else s
  s.setGroup k (fun g => { g with forcing := true })

/-- Whether the refresh engine has had the time that R107 gives it to start on a group by the moment `now`: its debt rose above 0,
and its bank was left, at least one tREFIg before. A debt of 1 rose above 0 at the last increment. -/
def State.engineLate (s : State) (k now : Nat) : Bool :=
  0 < (s.group k).debt && (s.group k).row.isNone && !(s.group k).forcing && (s.homeCtx (k / 256) (k / 16 % 16)).isNone &&
    (s.tower (k / 256)).left.get (k / 16 % 16) 0 + refreshInterval (s.bandOf k) ≤ now && (1 < (s.group k).debt || (s.group k).nextInc ≤ now)

/-- The refreshes that the engine owes a group by the moment `now` (R107): before an increment, or when its bank becomes the home bank
of a running hart. -/
def State.engineCatchUp (s : State) (k now : Nat) : State := if s.engineLate k now then s.refreshAll k else s

/-- The refreshes that the engine owes the groups of a bank that a hart takes over (R107). -/
def State.takeBank (s : State) (tower bank : Nat) : State :=
  (List.range 16).foldl (fun s g => State.engineCatchUp s (groupKey tower bank g) s.clk) s

/-- One increment of a group's refresh debt (R108, R109), after the refreshes that the engine owes it (R107). -/
def State.incrementDebt (s : State) (k : Nat) : State :=
  let s := s.engineCatchUp k (s.group k).nextInc
  let g := s.group k
  let s := s.setGroup k (fun g => { g with
    debt := min (g.debt + 1) 9, lastInc := g.nextInc, nextInc := g.nextInc + refreshInterval (s.bandOf k) })
  if g.debt + 1 = 6 then s.pendRefresh k 0
  else if g.debt + 1 = 8 then s.pendRefresh k 1
  else if g.debt + 1 = 9 then s.forceClose k
  else s

/-- Sets the band of a layer of a stack; the next increment of each group falls tREFIg (new) after its last (R106). -/
def State.setBand (s : State) (stack layer band : Nat) : State :=
  let s := { s with bands := s.bands.put (stack * 16 + layer) { band := band, low := none } }
  (List.range 64).foldl (fun s t => (List.range 16).foldl (fun s g =>
    State.setGroup s (groupKey (stack * 64 + t) layer g) (fun x => { x with
      nextInc := Nat.max s.clk (x.lastInc + refreshInterval band) })) s) s

end Sys2Proof.Machine
end

