-- ==== Sys2Proof/Machine/Moves.lean ====
section
/-! DEFINITION. Class 5: copy tags (R198-R202), the Traverse (R203-R206), the transpose tile (R208, R209), gather and scatter
(R217, R218), and the retirement of slice buses (R219, R221). -/

namespace Sys2Proof.Machine

/-! ### Copy tags -/

/-- Whether a tag is busy (R198). -/
def Ctx.busyTag (c : Ctx) (tag : Nat) : Bool := c.transfers.any (fun t => t.tag == tag)

/-- Remote operations and movers outstanding on a tower (R34, R198). -/
def State.outstanding (s : State) (t : Nat) : Nat :=
  ((s.live.filter (fun c => c.kind = .tower && c.place = t)).map (fun c => c.transfers.length)).foldl (· + ·) 0

/-- The first check of a mover: its tag is not busy (R198, R205, R213). -/
def tagFree (tag : Nat) : M Unit := do checkM (!(← get).cur.busyTag tag) 14 0 (BitVec.ofNat 64 tag)

/-- The limit of a tower stalls the head of the queue (R198). -/
def moverRoom : M Unit := do
  let s ← get
  waitUntil (s.cur.kind != .tower || s.outstanding s.cur.place < 2048)

/-- Acceptance of a transfer: its tag is busy and its CTB bit 0 (R198). What an earlier transfer of the tag wrote and nothing
acquired can no longer be acquired through the tag (R202); a chunk mask (R216) and rsync (R275) still acquire it. -/
def Ctx.accept (c : Ctx) (t : Transfer) : Ctx :=
  { c.putCtb (c.ctb &&& ~~~(1#64 <<< t.tag)) with
    transfers := c.transfers ++ [t]
    pubs := (c.pubs.map (fun e => if e.2 % 128 = t.tag then (e.1, e.2 - t.tag + 65) else e)).eraseDups }

/-- A wait that Cirque does not register (R200, R275). -/
def plainWait : M Unit := do
  modify (fun s => s.setCur (fun c => { c with blocked := true }))
  holdKeep

/-- The hart leaves a wait. -/
def Ctx.resumeFrom (c : Ctx) : Ctx := { c with blocked := false }

/-- The tags of a mask. -/
def tagsOf (m : Word) : List Nat := (List.range 64).filter (fun i => m.getLsbD i)

/-- CTWAIT (R200). -/
def execCtwait (f : Fields) (s : State) : Host.Outcome State Fault Refusal :=
  issue (.ctwait f) (runBody (do
    let s ← get
    let m := s.reg f.a
    if m = 0 then set (s.setReg f.d 0)
    else do
      let live := fun (i : Nat) => s.cur.busyTag i || s.cur.ctb.getLsbD i
      let all := f.sub 0 1 = 1
      checkM (if all then (tagsOf m).all live else (tagsOf m).any live) 14 14 m
      let got := s.cur.ctb &&& m
      if (if all then got = m else got ≠ 0) then
        let s := (tagsOf got).foldl (fun s i => State.acquireTag s i) s
        set ((s.setCur (fun c => c.resumeFrom.putCtb (if f.sub 1 1 = 1 then c.ctb &&& ~~~got else c.ctb))).setReg f.d got)
      else plainWait)) s

/-- CTFIND (R201). -/
def execCtfind (f : Fields) (s : State) : Host.Outcome State Fault Refusal :=
  issue (.ctfind f) (runBody (modify (fun s =>
    match tagsOf (s.cur.ctb &&& s.reg f.a) with
    | [] => s.setReg f.d 64
    | i :: _ =>
      ((s.acquireTag i).setCur (fun c => c.putCtb (if f.sub 1 1 = 1 then c.ctb &&& ~~~(1#64 <<< i) else c.ctb))).setReg
        f.d (BitVec.ofNat 64 i)))) s

/-! ### The Traverse -/

/-- Sets the D bits of the leaves of an own run, as its first write would (R203, R205). -/
def dirtyLeaves (g : Nat) : M Unit := fun s =>
  match s.setRowDirtyBits (s.homeKey g) with
  | .error c => .error (.trap c (s.homeGroup g).va none)
  | .ok t => .ok ((), t)

/-- Write permission on every group of a run (class 9, subcode 9), then its D bits. -/
def writableRun (g n : Nat) : M Unit := do
  (List.range n).forM (fun i => do checkM ((← get).homeGroup (g + i)).writable 9 9 (BitVec.ofNat 64 (g + i)))
  (List.range n).forM (fun i => dirtyLeaves (g + i))

/-- XEXP (R203). -/
def execXexp (f : Fields) (s : State) : Host.Outcome State Fault Refusal :=
  issue (.xexp f) (runBody (do
    let vg := vgOf (← get).cur.vcfg
    let g := rowField f.a
    checkRowAlign f.a vg
    checkClass
    checkRun g vg false
    if f.sub 17 1 = 1 then writableRun g vg
    let s ← get
    let etag := f.sub 0 16
    checkM ((s.exposure s.cur.place etag).isNone) 14 11 (BitVec.ofNat 64 etag)
    let e : Exposure :=
      { etag := etag, owner := s.cur.reqid, acc := f.sub 16 2, rows := { tower := s.cur.place, bank := s.cur.home, group := g, len := vg } }
    set (s.setTower s.cur.place (fun w => { w with exposures := w.exposures ++ [e] })))) s

/-- Ends an exposure after the moves accepted against it (R204). -/
def State.hide (s : State) (tower etag : Nat) : State :=
  let s := s.settle (fun m => m.2.2.2.2.1 = tower && m.2.2.2.2.2 = etag)
  s.setTower tower (fun w => { w with exposures := w.exposures.filter (fun e => e.etag != etag) })

/-- XHIDE (R204). -/
def execXhide (f : Fields) (s : State) : Host.Outcome State Fault Refusal :=
  issue (.xhide f) (runBody (do
    let s ← get
    let etag := f.sub 0 16
    checkM (match s.exposure s.cur.place etag with
      | some e => e.owner == s.cur.reqid
      | none => false) 14 12 (BitVec.ofNat 64 etag)
    set (s.hide s.cur.place etag))) s

/-- The rows that a replayable launch may not reach through an exposure (R352). -/
def replayExposed (tower etag : Nat) (write : Bool) : M Unit := do
  let s ← get
  match s.exposure tower etag with
  | none => pure ()
  | some e => e.rows.keys.forM (fun k => checkM (s.replayOk (s.group k).va.toNat 8192 write false) 19 11 (s.group k).va)

/-- xput and xget up to acceptance (R205); `row` names the hart's own run. -/
def moveBody (f : Fields) (put : Bool) (row : BitVec 6) : M Unit := do
  let s ← get
  let tag := f.sub 16 6
  let etag := f.sub 0 16
  tagFree tag
  let b := s.reg f.b
  let target := fld b.toNat 0 9
  checkM (fld b.toNat 9 55 == 0 && target / 64 == s.cur.place / 64) 14 5 b
  let vg := vgOf s.cur.vcfg
  let g := rowField row
  checkRowAlign row vg
  checkClass
  checkRun g vg false
  if put then pure () else writableRun g vg
  replayRun g vg (!put) (fun _ => true)
  replayExposed target etag put
  moverRoom
  let own : RowRun := { tower := s.cur.place, bank := s.cur.home, group := g, len := vg }
  modify (fun s => s.setCur (fun c => c.accept
    { tag := tag, work := .traverse put own target etag, scope := f.sub 22 3, ptroot := c.ptroot, serial := 0, chunks := 0
      done := [], failed := false, expinc := none, flights := [], failing := none }))

/-- XPUT (R205, R206). -/
def execXput (f : Fields) (s : State) : Host.Outcome State Fault Refusal := issue (.xput f) (runBody (moveBody f true f.a)) s

/-- XGET (R205, R206). -/
def execXget (f : Fields) (s : State) : Host.Outcome State Fault Refusal := issue (.xget f) (runBody (moveBody f false f.d)) s

/-! ### The transpose tile -/

/-- XTRW (R208, R209). The group is checked before the wait for the tile (DESIGN CHOICE, log entry 21). -/
def execXtrw (f : Fields) (s : State) : Host.Outcome State Fault Refusal :=
  issue (.xtrw f) (runBody (do
    let g := rowField f.a
    checkRun g 1 false
    replayRun g 1 false (fun q => q == f.sub 0 1)
    let s ← get
    waitUntil (match (s.tower s.cur.place).tpHolder with
      | some h => h == s.cur.reqid
      | none => true)
    let b := 4096 * f.sub 0 1
    let bad := (List.range 4096).filter (fun i => s.elemPoisoned g (b + i) 8)
    let s := s.setTower s.cur.place (fun w => { w with
      tpHolder := some s.cur.reqid, tpData := s.seen (s.runAddr g b) 4096, tpPoison := bad })
    set (s.setCur (fun c => { c with estart := 0 })))) s

/-- XTRC (R208, R209). The group is checked before the holder of the tile (DESIGN CHOICE, log entry 21). -/
def execXtrc (f : Fields) (s : State) : Host.Outcome State Fault Refusal :=
  issue (.xtrc f) (runBody (do
    let s ← get
    let g := rowField f.d
    checkRun g 1 true
    replayRun g 1 true (fun q => q == f.sub 0 1)
    let tw := s.tower s.cur.place
    checkM (tw.tpHolder == some s.cur.reqid) 14 13 0
    let w := 2 ^ f.sub 1 2
    let es : List Elt := (List.range 64).flatMap (fun i => (List.range (64 / w)).map (fun j =>
      let p := 64 * i + j * w
      { e := 4096 * f.sub 0 1 / w + j * 64 + i, v := leValue ((tw.tpData.drop p).take w)
        pois := tw.tpPoison.any (fun q => p ≤ q && q < p + w) }))
    finishWhole g 1 (8 * w) es
    if f.sub 3 1 = 1 then modify (fun s => s.setTower s.cur.place (fun w => { w with tpHolder := none, tpPoison := [] })))) s

/-! ### Gather and scatter -/

/-- Groups of the offset run (R217). -/
def offsetGroups (f : Fields) (vcfg : Word) : Nat := Nat.max 1 (vgOf vcfg * (32 * 2 ^ f.sub 0 1) / ewOf vcfg)

/-- The granules of the offset run that an instruction reads: the offsets of the active elements from ESTART (R352). -/
def Ctx.reachesOffset (f : Fields) (c : Ctx) (q : Nat) : Bool :=
  (List.range (c.vl.toNat - c.estart.toNat)).any (fun i =>
    ((c.estart.toNat + i) * (4 * 2 ^ f.sub 0 1)) / 4096 == q && c.active f.m.toNat (c.estart.toNat + i) (ewOf c.vcfg))

/-- The checks of vgld and vgst (R125, R217). -/
def gatherChecks (f : Fields) (load : Bool) : M Unit := do
  let c := (← get).cur
  let vg := vgOf c.vcfg
  let r := offsetGroups f c.vcfg
  checkM (ewOf c.vcfg != 4) 11 2 c.vcfg
  checkRowAlign f.d vg
  checkM (rowField f.a % r == 0 && rowField f.a + r ≤ 16) 11 4 (f.a.zeroExtend 64)
  let _ ← vecChecks { packed := false, rows := [(f.d, vg, load), (f.a, r, false)], masks := maskOf f,
                       touch := fun c x => if x.1 == f.d && x.2.2 == load then c.reachesFrom f x else c.reachesOffset f }
  readMasks (maskOf f) vg

/-- Address of element `e` (R218). -/
def gatherAddr (f : Fields) (s : State) (base : Word) (e : Nat) : Word :=
  base + toWord (sextN (s.elem (rowField f.a) e (32 * 2 ^ f.sub 0 1)) (32 * 2 ^ f.sub 0 1))

/-- One element load: the bytes, and whether they are poisoned (R130, R218). -/
def elementLoad (va : Word) (n : Nat) : M (Nat × Bool) := do
  checkM (va.toNat % n == 0) 3 7 va
  let leaf ← translateM va .read
  let s ← get
  if leaf.mt = mtDev then
    checkM (s.replayOk va.toNat n false true) 19 11 va
    match s.devLoad leaf.pa n with
    | .error c => trapCode c va
    | .ok (w, t) => do
      set t
      pure (w.toNat, false)
  else do
    accessChecks va leaf n false false
    rowAccess leaf false
    let s ← get
    let (bs, t) := s.readSeen leaf n
    set (t.cacheRead leaf)
    pure (leValue bs, poisoned s.poison leaf.pa n)

/-- One element store (R218): the DRAM address it wrote. -/
def elementStore (va : Word) (n v : Nat) : M (Option Nat) := do
  checkM (va.toNat % n == 0) 3 7 va
  let leaf ← translateM va .write
  let s ← get
  if leaf.mt = mtDev then do
    checkM (s.replayOk va.toNat n true true) 19 11 va
    match s.devStore leaf.pa n (BitVec.ofNat 64 v) with
    | .trap c => trapCode c va
    | .wait => holdM
    | .ok t => set t
    pure none
  else do
    accessChecks va leaf n true false
    rowAccess leaf true
    modify (fun s => s.settleReads s.cur.reqid (groupOf leaf.pa))
    storeAt leaf (leBytes v n)
    pure (some leaf.pa)

/-- The poison that the pieces written by one instruction or chunk leave, in order (R113, R130, R242): a granule that sound bytes
cover whole is sound, and every granule that a poisoned byte reaches is poisoned. `out` gives each piece's DRAM address and which
of its bytes are poisoned. -/
def State.spreadPoison (s : State) (out : List (Nat × List Bool)) : State :=
  if s.poison.isEmpty && !(out.any (fun p => p.2.any id)) then s else
  let sound := fun (a : Nat) => out.any (fun p => p.1 ≤ a && p.2.getD (a - p.1) true = false)
  let covered := fun (g : Nat) => (List.range 32).all (fun i => sound (32 * g + i))
  let hit := out.flatMap (fun p => (p.2.zip (List.range p.2.length)).filterMap (fun q => if q.1 then some (p.1 + q.2) else none))
  { s with poison := hit.foldl (fun p a => insertSorted (a / 32) p) (s.poison.filter (fun g => !covered g)) }

/-- How far a gather or scatter went: the end, a truncation before an element, a stop before one that the turn asks for, or a
fault. -/
inductive Walked where
  | all
  | truncated (e : Nat)
  | stopped (e : Nat)
  | faults (x : Stop)

/-- Runs the accesses of the elements listed, in ascending order (R218); `first` is the lowest active one. A wait is a wait of the
whole instruction, with nothing done but the arrival of the access (R9, R31). -/
def walkElements {α : Type} (acc : Nat → M α) (first : Nat) : List Nat → State → List (Nat × α) × State × Walked
  | [], s => ([], s, .all)
  | e :: es, s =>
    match acc e s with
    | .ok (v, t) =>
      let (r, u, w) := walkElements acc first es t
      ((e, v) :: r, u, w)
    | .error (.hold keep) => ([], s, .faults (.hold keep))
    | .error (.arrive t) => ([], s, .faults (.arrive t))
    | .error (.trap code va keep) => ([], s.noteFault code va, if e = first then .faults (.trap code va keep) else .truncated e)
    | .error x => ([], s, if e = first then .faults x else .truncated e)

/-- How a gather or scatter of the current hart ends when it is not stopped by a wait or a trap: with the bound of the turn. -/
def Walked.bounded (w : Walked) (stop : Option Nat) : Walked :=
  match w, stop with
  | .all, some n => .stopped n
  | .truncated e, some n => if n ≤ e then .stopped n else .truncated e
  | w, _ => w

/-- VL and ESTART where an element-wise instruction of R218 ends. -/
def Ctx.walked (c : Ctx) (w : Walked) : Ctx :=
  match w with
  | .truncated e => { c with vl := BitVec.ofNat 64 e, estart := 0 }
  | .stopped e => { c with estart := BitVec.ofNat 64 e }
  | _ => { c with estart := 0 }

/-- The active elements from ESTART to VL - 1, or to where the turn stops (R126). -/
def activeElements (f : Fields) (s : State) : List Nat :=
  let c := s.cur
  let stop := (s.stopsAt).getD c.vl.toNat
  ((List.range (stop - c.estart.toNat)).map (· + c.estart.toNat)).filter (fun e => c.active f.m.toNat e (ewOf c.vcfg))

/-- The element below which an instruction has taken effect. -/
def Walked.bound (w : Walked) (vl : Nat) : Nat :=
  match w with
  | .truncated e => e
  | .stopped e => e
  | _ => vl

/-- How the instruction ends when an access could not go on: nothing has happened, but a wait keeps its place in the queue of its
group (R31). -/
def stopAccess (x : Stop) : M Unit := fun _ => .error x

/-- Where the turn stops an instruction part-way, it stays to be resumed. -/
def stayIfStopped (w : Walked) : M Unit :=
  match w with
  | .stopped _ => holdKeep
  | _ => pure ()

/-- Whether the run of `n` groups from `g` meets the run of `m` groups from `h`. -/
def runsMeet (g n h m : Nat) : Bool := g < h + m && h < g + n

/-- Where memory of a run of `n` groups from `g` begins at one of the places given, `w` bytes wide. -/
def State.runHit (s : State) (g n w : Nat) (pas : List Nat) : Bool :=
  (List.range n).any (fun i => pas.any (fun a => rangesMeet (s.runAddr (g + i) 0) 8192 a w))

/-- The DRAM places that the elements listed address. -/
def State.placesOf (s : State) (vas : List Word) : List Nat :=
  vas.filterMap (fun va => match translateM va .read s with
    | .ok (leaf, _) => if leaf.mt = mtDev then none else some leaf.pa
    | .error _ => none)

/-- Whether vgld can stop before element `n` with what it would leave without the stop (R126): the later elements then read neither
memory nor offsets that the earlier ones wrote (R9, R218; DEDUCED, log entry 18). -/
def State.gatherFits (s : State) (f : Fields) (n : Nat) : Bool :=
  let ew := ewOf s.cur.vcfg
  let vg := vgOf s.cur.vcfg
  let g := rowField f.d
  let apart := !runsMeet g vg (rowField f.a) (offsetGroups f s.cur.vcfg)
  let later := ((List.range (s.cur.vl.toNat - n)).map (· + n)).filter (fun e => s.cur.active f.m.toNat e ew)
  !s.runHit g vg (ew / 8) (s.placesOf (later.map (gatherAddr f s (s.reg f.b)))) &&
    (if n * ew % 256 = 0 then apart || ew == 32 * 2 ^ f.sub 0 1 else apart && !s.elemPoisoned g n ew)

/-- Whether vgst, having written the elements `got` each to its place, can stop there with what it would leave without the stop
(R126): they wrote no row that the later elements read (R9), and no granule whose poison later elements could clear (R113; DEDUCED, log entry 18). -/
def State.scatterFits (s : State) (f : Fields) (got : List (Nat × Option Nat)) (bad : Nat → Bool) : Bool :=
  let w := ewOf s.cur.vcfg / 8
  let pas := got.filterMap (fun p => p.2)
  !s.runHit (rowField f.d) (vgOf s.cur.vcfg) w pas && !s.runHit (rowField f.a) (offsetGroups f s.cur.vcfg) w pas &&
    !got.any (fun p => bad p.1) && !pas.any (fun a => poisoned s.poison a w)

/-- VGLD (R217, R218): the accesses of the elements, then the writes of the row. -/
def execVgld (f : Fields) (s : State) : Host.Outcome State Fault Refusal :=
  issue (.vgld f) (runBody (do
    gatherChecks f true
    let s ← get
    let ew := ewOf s.cur.vcfg
    let vg := vgOf s.cur.vcfg
    let g := rowField f.d
    waitUntil (s.stopsAt.all (s.gatherFits f))
    let act := activeElements f s
    let acc := fun (e : Nat) => (do
      let (v, bad) ← elementLoad (gatherAddr f s (s.reg f.b) e) (ew / 8)
      pure (v, bad || s.elemPoisoned (rowField f.a) e (32 * 2 ^ f.sub 0 1)) : M (Nat × Bool))
    let (got, t, end_) := walkElements acc (act.headD 0) act s
    let w := end_.bounded s.stopsAt
    match w with
    | .faults x => stopAccess x
    | _ => do
      set t
      let bound := w.bound s.cur.vl.toNat
      let es : List Elt := (List.range (bound - s.cur.estart.toNat)).filterMap (fun i =>
        let e := s.cur.estart.toNat + i
        match got.find? (fun p => p.1 == e) with
        | some p => some { e := e, v := p.2.1, pois := p.2.2 }
        | none => if f.mz then some { e := e, v := 0 } else none)
      (touched vg ew es).forM (fun i => dirtyRow (g + i))
      modify (fun s => (s.writeElts g vg ew es).setCur (fun c => c.walked w))
      stayIfStopped w)) s

/-- VGST (R217, R218): every element is read before any is written (R9). -/
def execVgst (f : Fields) (s : State) : Host.Outcome State Fault Refusal :=
  issue (.vgst f) (runBody (do
    gatherChecks f false
    let s ← get
    let ew := ewOf s.cur.vcfg
    let act := activeElements f s
    let bad := fun (e : Nat) => s.elemPoisoned (rowField f.d) e ew || s.elemPoisoned (rowField f.a) e (32 * 2 ^ f.sub 0 1)
    let acc := fun (e : Nat) =>
      (elementStore (gatherAddr f s (s.reg f.b) e) (ew / 8) (s.elem (rowField f.d) e ew) : M (Option Nat))
    let (got, t, end_) := walkElements acc (act.headD 0) act s
    let w := end_.bounded s.stopsAt
    match w with
    | .faults x => stopAccess x
    | _ => do
      waitUntil (s.stopsAt.isNone || s.scatterFits f got bad)
      set (t.spreadPoison (got.filterMap (fun p => p.2.map (fun pa => (pa, List.replicate (ew / 8) (bad p.1))))))
      modify (fun t => t.setCur (fun c => (got.filter (fun p => bad p.1)).foldl (fun c p => Ctx.countPoison c p.1 ew) (c.walked w)))
      stayIfStopped w)) s

/-! ### Slice buses -/

/-- The slice that a bus of a tower carries as its own: buses 32 and 33 are the spares (R219, R221). A bus out of service, or a
spare not yet taken, carries none. -/
def sliceOf (v : Word) (bus : Nat) : Option Nat :=
  let j0 := fld v.toNat 11 5
  let j1 := fld v.toNat 17 5
  let u0 := v.getLsbD 10
  let u1 := v.getLsbD 16
  let rr := fun (j : Nat) => v.getLsbD (32 + j)
  if bus < 32 then (if (u0 && j0 = bus) || (u1 && j1 = bus) || rr bus then none else some bus)
  else if bus = 32 then (if !u0 || (u1 && j1 = j0) || rr j0 then none else some j0)
  else if !u1 || rr j1 then none else some j1

/-- VBHEALTH after a slice is retired (R219, R221): spare 0, then spare 1, then a reroute. -/
def retireSlice (v : Word) (j : Nat) : Word :=
  let n := Nat.min 255 (fld v.toNat 0 8 + 1)
  let v := (v &&& ~~~(0xFF#64)) ||| BitVec.ofNat 64 n
  if !v.getLsbD 10 then (v &&& ~~~(0x1F#64 <<< 11)) ||| BitVec.ofNat 64 (2 ^ 10 + j * 2 ^ 11)
  else if !v.getLsbD 16 then (v &&& ~~~(0x1F#64 <<< 17)) ||| BitVec.ofNat 64 (2 ^ 16 + j * 2 ^ 17)
  else v ||| (1#64 <<< (32 + j))

/-- SLICE_BUS_RETIREMENT (R219-R221): the slice of bus n2 of tower n1, a bus in service with a wire that fails; the retirement is
reported. Results never change. -/
def execSliceBusRetirement (s : State) : Host.Outcome State Fault Refusal :=
  .next (s.setTower (s.input.n1 % 512) (fun w =>
    let bus := s.input.n2 % 34
    if !w.failing.contains bus then w else
    let w := { w with failing := w.failing.filter (· != bus) }
    match sliceOf w.vbHealth bus with
    | some j => { w with vbHealth := retireSlice w.vbHealth j, retired := bus :: w.retired }
    | none => w))

end Sys2Proof.Machine
end

