-- ==== Sys2Proof/Machine/Copy.lean ====
section
/-! DEFINITION. The copy engine (R210-R216): tensor descriptors, element sequences, overlap, and the reading and writing of one
chunk on behalf of a context. -/

namespace Sys2Proof.Machine

/-! ### Tensor descriptors -/

/-- Field of `n` bytes at offset `o` of a descriptor. -/
def dNum (r : List Byte) (o n : Nat) : Nat := leValue ((r.drop o).take n)

/-- A signed 32-bit field. -/
def dInt (r : List Byte) (o : Nat) : Int := sextN (dNum r o 4) 32

/-- RANK. -/
def dRank (r : List Byte) : Nat := dNum r 49 1

/-- SIZEd; dimensions at or above RANK count as size 1 (R211). -/
def dSize (r : List Byte) (d : Nat) : Nat := if d < dRank r then dNum r (8 + 4 * d) 4 else 1

/-- STRIDEd. -/
def dStride (r : List Byte) (d : Nat) : Int := if d < dRank r then dInt r (28 + 4 * d) else 0

/-- Block extent b of R211. -/
def dBlock (r : List Byte) (d : Nat) : Nat := if d < dRank r && dNum r (50 + 2 * d) 2 != 0 then dNum r (50 + 2 * d) 2 else dSize r d

/-- esize of R210. -/
def dEsize (r : List Byte) : Nat := fcWidth (dNum r 48 1) / 8

/-- Whether an address is canonical (R29). -/
def canonical (v : Nat) : Bool := fld v 57 7 = (if bitAt v 56 then 127 else 0)

/-- The failing fields of a descriptor by byte offset (R210, R213 check 2); an invalid RANK is reported alone. -/
def descFault (r : List Byte) : Option Nat :=
  let rank := dRank r
  if !canonical (dNum r 0 8) then some 0
  else if rank = 0 || 5 < rank then some 49
  else match (List.range 5).find? (fun d => (dNum r (8 + 4 * d) 4 = 0) = decide (d < rank)) with
    | some d => some (8 + 4 * d)
    | none => match (List.range 5).find? (fun d => rank ≤ d && dNum r (28 + 4 * d) 4 != 0) with
      | some d => some (28 + 4 * d)
      | none =>
        if 64 ≤ dNum r 48 1 || !fcValid (dNum r 48 1) || dNum r 48 1 = 11 then some 48
        else match (List.range 3).find? (fun d => if d < rank then dNum r (8 + 4 * d) 4 < dNum r (50 + 2 * d) 2 else dNum r (50 + 2 * d) 2 != 0) with
          | some d => some (50 + 2 * d)
          | none => if dInt r 56 < dInt r 60 then none else some 56

/-- Elements of a descriptor. -/
def dCount (r : List Byte) : Nat := dSize r 0 * dSize r 1 * dSize r 2 * dSize r 3 * dSize r 4

/-- Byte offsets from BASE of the element sequence, block by block (R211). -/
def dOffsets (r : List Byte) : List Int :=
  let part := fun (d b : Nat) => List.range (Nat.min (dBlock r d) (dSize r d - b * dBlock r d))
  let blocks := fun (d : Nat) => List.range (ceilDiv (dSize r d) (dBlock r d))
  let at_ := fun (d i : Nat) => dStride r d * (i : Int)
  (List.range (dSize r 4)).flatMap (fun i4 => (List.range (dSize r 3)).flatMap (fun i3 =>
    (blocks 2).flatMap (fun b2 => (blocks 1).flatMap (fun b1 => (blocks 0).flatMap (fun b0 =>
      (part 2 b2).flatMap (fun j2 => (part 1 b1).flatMap (fun j1 => (part 0 b0).map (fun j0 =>
        at_ 0 (b0 * dBlock r 0 + j0) + at_ 1 (b1 * dBlock r 1 + j1) + at_ 2 (b2 * dBlock r 2 + j2) + at_ 3 i3 + at_ 4 i4))))))))

/-- Chunks of a copy (R211). -/
def chunkCount (r : List Byte) : Nat := ceilDiv (dCount r * dEsize r) 4096

/-- The elements of chunk `c` of a list in sequence order. -/
def chunkOf {α : Type} (es c : Nat) (xs : List α) : List α := (xs.drop (c * (4096 / es))).take (4096 / es)

/-- The virtual address of an element. -/
def elemVa (r : List Byte) (off : Int) : Word := BitVec.ofNat 64 (dNum r 0 8) + toWord off

/-- The addresses of chunk `c` of a descriptor. -/
def chunkVas (r : List Byte) (c : Nat) : List Word := (chunkOf (dEsize r) c (dOffsets r)).map (elemVa r)

/-- The lowest chunk with an element out of bounds (R210, R213 check 6). -/
def boundsFault (r : List Byte) : Option Nat :=
  (findIdx (fun o => o < dInt r 56 || dInt r 60 < o + (dEsize r : Int)) (dOffsets r) 0).map (fun i => i * dEsize r / 4096)

/-! ### Overlap -/

/-- Byte intervals [lo, hi) of elements in order, neighbours joined. -/
def intervals (es : Int) : List Int → List (Int × Int)
  | [] => []
  | a :: rest =>
    match intervals es rest with
    | (lo, hi) :: more => if a + es = lo then (a, hi) :: more else (a, a + es) :: (lo, hi) :: more
    | [] => [(a, a + es)]

/-- Whether two sets of intervals meet. -/
def meets (xs ys : List (Int × Int)) : Bool := xs.any (fun x => ys.any (fun y => x.1 < y.2 && y.1 < x.2))

/-- Whether elements of one sequence overlap one another. -/
def selfOverlap : List (Int × Int) → Bool
  | [] => false
  | x :: rest => rest.any (fun y => x.1 < y.2 && y.1 < x.2) || selfOverlap rest

/-- The intervals of every chunk of a descriptor, by address. -/
def chunkIntervals (r : List Byte) : List (List (Int × Int)) :=
  let base : Int := sextN (dNum r 0 8) 64
  let offs := (dOffsets r).map (fun o => base + o)
  (List.range (chunkCount r)).map (fun c => intervals (dEsize r) (chunkOf (dEsize r) c offs))

/-- For each destination chunk, the source chunks it overlaps, which are read before it is written (R214). -/
def chunkDeps (src dst : List Byte) : List (List Nat) :=
  let ss := chunkIntervals src
  let n := ss.length
  (chunkIntervals dst).map (fun d => (List.range n).filter (fun c => meets d (ss.getD c [])))

/-- Chunks left once every chunk with no dependence left has been taken out, at most `n` rounds. -/
def removeReady (deps : List (List Nat)) : Nat → List Nat → List Nat
  | 0, left => left
  | n + 1, left =>
    removeReady deps n (left.filter (fun c => (deps.getD c []).any (fun d => d != c && left.contains d)))

/-- Check 7 of R213: an overlap that no chunk order resolves (R214). `local_` tells whether both sides are on this device. -/
def overlapFault (src dst : List Byte) (local_ : Bool) : Bool :=
  let all := (chunkIntervals dst).flatten
  selfOverlap all ||
    (local_ &&
      (let deps := chunkDeps src dst
       let n := deps.length
       (List.range n).any (fun c => (deps.getD c []).contains c) || !(removeReady deps n (List.range n)).isEmpty))

/-! ### One chunk -/

/-- The TLBs through which a copy engine translates for a context: the stack's, or the hub's (R358). -/
def engineUnits (c : Ctx) : List Nat := if c.kind = .tower then [512 + c.place / 64] else [536]

/-- Translation on another agent's behalf in a body (R215, R264); the walk of one that faults has read its entries (R360). -/
def engineTranslate (units : List Nat) (root va : Word) (acc : AccKindT) : M Leaf := fun s =>
  match s.translateAt units root va acc with
  | .error c => .error (.trap c va (some (s.noteWalk units root va)))
  | .ok (l, t) => .ok (l, t)

/-- Whether a context belongs to a replayable launch (R352). -/
def State.replayingLaunch (s : State) (id : Nat) : Bool :=
  match s.ctx? id with
  | some c => match s.launchOf c with
    | some l => l.replayable
    | none => false
  | none => false

/-- Reads `n` bytes for a requester, and which of them come from a poisoned granule (R215, R242, R245); `who` is the waiter of
R31. -/
def engineRead (units : List Nat) (root : Word) (id who : Nat) (va : Word) (n : Nat) : M (List Byte × List Bool) := do
  let leaf ← engineTranslate units root va .read
  let s ← get
  if leaf.mt = mtDev then
    checkM (!s.replayingLaunch id) 19 11 va
    match s.devLoad leaf.pa n with
    | .error c => trapCode c va
    | .ok (w, t) => do
      set t
      pure (leBytes w.toNat n, List.replicate n false)
  else do
    checkM (!s.unpublished id leaf n) 15 1 va
    rowAccessFor who leaf false
    let s ← get
    let (bs, t) := s.readPhys leaf n
    set t
    pure (bs, (List.range n).map (fun i => !s.poison.isEmpty && poisoned s.poison (leaf.pa + i) 1))

/-- Writes bytes for a requester (R206, R215, R243, R248): the DRAM address they went to. `code` marks the lines (R244). -/
def engineWrite (units : List Nat) (root : Word) (id who code : Nat) (va : Word) (bs : List Byte) : M (Option Nat) := do
  let leaf ← engineTranslate units root va .write
  let s ← get
  if leaf.mt = mtDev then do
    checkM (!s.replayingLaunch id) 19 11 va
    match s.devStore leaf.pa bs.length (BitVec.ofNat 64 (leValue bs)) with
    | .trap c => trapCode c va
    | .wait => holdM
    | .ok t => set t
    pure none
  else do
    checkM (!s.unpublished id leaf bs.length) 15 1 va
    rowAccessFor who leaf true
    modify (fun s =>
      let s := if leaf.mt = mtRow then s.settleReads id (groupOf leaf.pa) else s
      let s := s.writePhys (some id) code leaf bs
      if leaf.mt = mtCached then s.disownLine (leaf.pa / 128) else s)
    pure (some leaf.pa)

/-- The bytes of a chunk and which of them come from poisoned granules (R242). -/
def readChunk (units : List Nat) (root : Word) (id who : Nat) (r : List Byte) (c : Nat) : M (List Byte × List Bool) := do
  let got ← (chunkVas r c).mapM (fun va => engineRead units root id who va (dEsize r))
  pure ((got.map (fun p => p.1)).flatten, (got.map (fun p => p.2)).flatten)

/-- The poison map of chunk data: the 32-byte pieces with a byte from a poisoned granule (R409). -/
def poisonPieces (bad : List Bool) : List Nat := (List.range (ceilDiv bad.length 32)).filter (fun g => ((bad.drop (32 * g)).take 32).any id)

/-- The bytes that a poison map marks, of a chunk of `n` bytes (R409, R410). -/
def piecesBad (n : Nat) (pieces : List Nat) : List Bool := (List.range n).map (fun i => pieces.contains (i / 32))

/-- Writes the bytes of a chunk whole (R113, R214, R242): every granule that a poisoned byte reaches is poisoned, and one that the
chunk covers whole with sound bytes is sound. -/
def writeChunk (units : List Nat) (root : Word) (id who code : Nat) (r : List Byte) (c : Nat) (bs : List Byte) (bad : List Bool) : M Unit := do
  let es := dEsize r
  let vas := chunkVas r c
  let out ← (vas.zip (List.range vas.length)).mapM (fun p => do
    let pa ← engineWrite units root id who code p.1 ((bs.drop (p.2 * es)).take es)
    pure (pa.map (fun a => (a, (bad.drop (p.2 * es)).take es))))
  modify (fun s => s.spreadPoison (out.filterMap (fun o => o)))

/-- The transfer of the current context under a tag, while it has not failed. -/
def Ctx.transfer (c : Ctx) (tag : Nat) : Option Transfer := c.transfers.find? (fun t => t.tag == tag && !t.failed)

/-- Changes a transfer of a context. -/
def State.mapTransfer (s : State) (id tag : Nat) (f : Transfer → Transfer) : State :=
  s.mapCtx id (fun c => { c with transfers := c.transfers.map (fun t => if t.tag = tag then f t else t) })

/-- Gives a context the turn for as long as an operation on its behalf takes. -/
def State.onBehalf (s : State) (id : Nat) (f : State → State) : State := (f (s.switchTo id)).switchTo s.cur.reqid

/-- A chunk has performed: its bit of the chunk mask (R216). -/
def State.chunkDone (s : State) (id tag c : Nat) (km : Option Nat) : State :=
  let s := s.mapTransfer id tag (fun t => { t with done := insertSorted c t.done, flights := t.flights.filter (fun f => f.chunk != c) })
  match km with
  | some k => s.mapCtx id (fun x => x.setMask k (bitPut (x.mask k) c true))
  | none => s

/-- TVAL of an asynchronous class 14 trap (R199). -/
def moveTval (tag chunk code : Nat) : Word := BitVec.ofNat 64 (tag + chunk * 2 ^ 8 + code * 2 ^ 32)

/-- How the attempt to perform a chunk ends. -/
inductive ChunkRes where
  | ok (s : State)
  | fault (chunk code : Nat) (s : State)
  | wait (s : State)

/-- Runs a body of the copy engine for a chunk: of one that faults only the uses of its pages are kept (R33), and of one that waits only
its arrival (R31). -/
def engineRun (c : Nat) (m : M Unit) (s : State) : ChunkRes :=
  match m s with
  | .ok (_, t) => .ok t
  | .error (.trap code _ keep) => .fault c code (s.usesOf (keep.getD s))
  | .error (.arrive t) => .wait (s.arrived t)
  | .error _ => .wait s

/-- The waiter that chunk `c` of a transfer of the current context is (R31). -/
def State.ownWaiter (s : State) (tag c : Nat) : Nat := chunkWaiter (s.cur.reqid * 128 + tag) c

/-- The bytes of a chunk that were read before its turn. -/
def State.heldChunk (s : State) (tag c : Nat) : Option Flight :=
  (s.cur.transfer tag).bind (fun t => t.flights.find? (fun f => f.chunk == c))

/-- Whether a chunk of a copy within the device touches DEV memory (R215). -/
def State.copyDev (s : State) (t : Transfer) (src dst : List Byte) (c : Nat) : Bool :=
  let dev := fun (r : List Byte) (acc : AccKindT) => (chunkVas r c).any (fun va => match s.translateAt (engineUnits s.cur) t.ptroot va acc with
    | .ok (l, _) => l.mt == mtDev
    | .error _ => false)
  dev src .read || dev dst .write

/-- Reads and writes a chunk of a copy within the device for the current context; one that was read before its turn is only
written. -/
def State.localChunk (s : State) (t : Transfer) (src dst : List Byte) (km : Option Nat) (c : Nat) : ChunkRes :=
  let units := engineUnits s.cur
  let id := s.cur.reqid
  let who := s.ownWaiter t.tag c
  engineRun c (do
    let (bs, bad) ← match s.heldChunk t.tag c with
      | some f => pure (f.bytes, (List.range f.bytes.length).map (fun i => f.pois.contains i))
      | none => readChunk units t.ptroot id who src c
    writeChunk units t.ptroot id who (pubCode t.tag c (km.getD 0)) dst c bs bad) s

/-- A chunk read before its turn: no packet, with the places of its poisoned bytes. -/
def readFlight (c : Nat) (bs : List Byte) (bad : List Bool) : Flight :=
  { chunk := c, sends := 0, next := 0, interval := 0, status := 0, bytes := bs
    pois := (List.range bad.length).filter (fun i => bad.getD i false) }

/-- Reads chunks of a copy within the device before their turn (R214). -/
def readAhead (t : Transfer) (src : List Byte) : List Nat → State → ChunkRes
  | [], s => .ok s
  | c :: rest, s =>
    match engineRun c (do
        let (bs, bad) ← readChunk (engineUnits s.cur) t.ptroot s.cur.reqid (s.ownWaiter t.tag c) src c
        modify (fun s => s.mapTransfer s.cur.reqid t.tag (fun x => { x with flights := x.flights ++ [readFlight c bs bad] }))) s with
    | .ok u => readAhead t src rest u
    | r => r

/-- Whether the source of a chunk has been read. -/
def Transfer.hasRead (t : Transfer) (c : Nat) : Bool := t.done.contains c || t.flights.any (fun f => f.chunk == c)

/-- The chunks that have to be read before a chunk of DEV memory is written (R214): those that its destination overlaps, and the
chunks of DEV memory below them (R215). -/
def State.chunkAhead (s : State) (t : Transfer) (src dst : List Byte) (c : Nat) : List Nat :=
  if !s.copyDev t src dst c then [] else
  let deps := (chunkDeps src dst).getD c []
  (List.range t.chunks).filter (fun d => !t.hasRead d && ((d == c && !deps.isEmpty) || deps.contains d || (deps.any (fun e => d < e) && s.copyDev t src dst d)))

/-- Whether a chunk may be performed now: what its destination overlaps has been read (R214), or is read before their turn where it
touches DEV memory, of which every lower chunk has then been performed (R215). -/
def State.chunkReady (s : State) (t : Transfer) (src dst : List Byte) (c : Nat) : Bool :=
  c < t.chunks && !t.done.contains c &&
    (if s.copyDev t src dst c then (List.range c).all (fun d => t.done.contains d || !s.copyDev t src dst d)
     else ((chunkDeps src dst).getD c []).all (fun d => d = c || t.hasRead d))

/-- A copy within the device fails at a chunk (R215). -/
def State.failCopy (s : State) (tag chunk code : Nat) : State := s.failTag s.cur.reqid tag (14 * 16 + 8) (moveTval tag chunk code) 0

/-- Performs one chunk of a local copy of the current context, with the failure of R215 and the completion of R199. -/
def State.stepCopy (s : State) (tag c : Nat) : State :=
  match s.cur.transfer tag with
  | some t => match t.work with
    | .copy src dst 0 _ km =>
      if !s.chunkReady t src dst c then s else
      match readAhead t src (s.chunkAhead t src dst c) s with
      | .wait s1 => s1
      | .fault e code s1 => s1.failCopy tag e code
      | .ok s1 => match s1.localChunk t src dst km c with
        | .wait s2 => s2
        | .fault e code s2 => s2.failCopy tag e code
        | .ok s2 =>
          let s2 := s2.chunkDone s.cur.reqid tag c km
          if t.done.length + 1 = t.chunks then s2.completeTag s.cur.reqid tag else s2
    | _ => s
  | none => s

/-- Performs every chunk left of a local copy, in an order that R214 allows: `n` rounds, each of every chunk in ascending
order. -/
def State.runCopy (s : State) (tag chunks : Nat) : Nat → State
  | 0 => s
  | n + 1 => ((List.range chunks).foldl (fun s c => State.stepCopy s tag c) s).runCopy tag chunks n

/-- The lowest chunk of a local copy that may be written now. -/
def State.nextChunk (s : State) (t : Transfer) (src dst : List Byte) : Option Nat :=
  (List.range t.chunks).find? (fun c => s.chunkReady t src dst c)

/-- What a transfer of the current context does when it performs (R199, R205, R214). -/
def State.performTransfer (s : State) (tag : Nat) : State :=
  match s.cur.transfer tag with
  | none => s
  | some t => match t.work with
    | .traverse put own tower etag => s.performTraverse s.cur.reqid tag put own tower etag
    | .copy _ _ 0 _ _ => s.runCopy tag t.chunks t.chunks
    | _ => s

/-- Whether a transfer of a context has failed and its trap is not taken. -/
def State.hasFailed (s : State) (id tag : Nat) : Bool :=
  match s.ctx? id with
  | some c => c.transfers.any (fun t => t.tag == tag && t.failed)
  | none => false

/-- TRANSFER_COMPLETE (R199): the transfer of context n1 under tag n2 performs. Remote transfers complete by their packets. -/
def execTransferComplete (s : State) : Host.Outcome State Fault Refusal :=
  .next (s.onBehalf s.input.n1 (fun t => if t.cur.reqid = s.input.n1 then t.performTransfer s.input.n2 else t))

/-- TRANSFER_FAIL (R199): the same transfer, where it fails: a Traverse move, or a copy at its next chunk. -/
def execTransferFail (s : State) : Host.Outcome State Fault Refusal :=
  let tag := s.input.n2
  let t := s.onBehalf s.input.n1 (fun t => if t.cur.reqid = s.input.n1 then (match t.cur.transfer tag with
    | some x => match x.work with
      | .copy src dst 0 _ _ => match t.nextChunk x src dst with
        | some c => t.stepCopy tag c
        | none => t
      | _ => t.performTransfer tag
    | none => t) else t)
  .next (if t.hasFailed s.input.n1 tag then t else s)

/-- COPY_CHUNK_PERFORMED (R214-R216): chunk n3 of the copy of context n1 under tag n2. -/
def execCopyChunkPerformed (s : State) : Host.Outcome State Fault Refusal :=
  .next (s.onBehalf s.input.n1 (fun t => if t.cur.reqid = s.input.n1 then t.stepCopy s.input.n2 s.input.n3 else t))

end Sys2Proof.Machine
end

