-- ==== Sys2Proof/Machine/Requester.lean ====
section
/-! DEFINITION. The requester side of remote work (R263-R277, R409, R410): serials, packets sent, the schedule of R271,
incarnations, completion and failure of remote operations and of copies with a remote side, beacons and rsync. -/

namespace Sys2Proof.Machine

/-! ### Serials and packets -/

/-- Destination, TYPE, requester ID, and flits of a packet (R407, R409): the header of 32 bytes, the payload and the
CRC. -/
def Packet.facts (p : Packet) : Nat × Nat × Nat × Nat :=
  let copyFlits := fun (q : CopyPacket) => ceilDiv (132 + q.data.length) 64
  match p with
  | .request d q => (d, 0, q.reqid, Config.packetFlits 0)
  | .response d q => (d, 1, q.reqid, Config.packetFlits 1)
  | .beacon d q => (d, 2, q.reqid, Config.packetFlits 2)
  | .beaconAck d q => (d, 3, q.reqid, Config.packetFlits 3)
  | .probe d q => (d, 4, q.reqid, Config.packetFlits 4)
  | .probeAnswer d q => (d, 5, q.reqid, Config.packetFlits 5)
  | .copyData d q => (d, 6, q.reqid, copyFlits q)
  | .copyRead d q => (d, 7, q.reqid, copyFlits q)
  | .copyAck d q => (d, 8, q.reqid, 1)
  | .paceRequest d _ => (d, 9, 0, 1)
  | .paceAgreement d _ => (d, 10, 0, 1)
  | .paceAck d _ => (d, 11, 0, 1)
  | .timeSync port _ _ => (2 ^ 13, 12, port, 1)

/-- Adds to an Efpo counter of a port (R412). -/
def State.efCount (s : State) (port i n : Nat) : State :=
  let k := port % 16 * 8 + i
  let v := (s.efpo.cnt.get k 0).toNat + n
  { s with efpo := { s.efpo with cnt := s.efpo.cnt.put k (BitVec.ofNat 64 (Nat.min v (2 ^ 64 - 1))) } }

/-- The port a packet leaves by: a hash over the ports whose links are up (R408); a time-sync packet its own. -/
def State.portOf (s : State) (key : Nat) (p : Packet) : Nat :=
  let x := p.facts
  let up := (List.range 16).filter (fun i => s.efpo.links.getLsbD i)
  match p with
  | .timeSync port _ _ => port % 16
  | _ => up.getD (Config.portHash x.1 s.devId key % up.length) 0

/-- Sends a packet over Efpo (R408), its port chosen with a requester ID or copy tag: it joins what has left the device and counts at
its port (R412). A packet for this device loops back (R263); with no link up it is lost. -/
def State.emitBy (s : State) (key : Nat) (p : Packet) : State :=
  if p.facts.1 = s.devId then { s with efpo := { s.efpo with loop := s.efpo.loop ++ [p] } }
  else if s.efpo.links = 0 then s
  else
    let s1 := { s with efpo := { s.efpo with out := s.efpo.out ++ [p] } }
    (s1.efCount (s.portOf key p) 0 1).efCount (s.portOf key p) 2 p.facts.2.2.2

/-- Sends a packet that its requester ID spreads over the ports. -/
def State.emit (s : State) (p : Packet) : State := s.emitBy p.facts.2.2.1 p

/-- The Efpo port by which the packet being taken arrived; where the agenda names none, a free value (log entry 10). -/
def State.arrivedBy (s : State) : Nat := s.inPort.getD (Config.arrivalPort s.fresh)

/-- Counts a packet received from a device at the port by which it arrived (R412), unless it looped back. -/
def State.received (s : State) (src flits : Nat) : State :=
  if src = s.devId then s else
  let port := s.arrivedBy
  (({ s with fresh := s.fresh + 1, inPort := none }).efCount port 1 1).efCount port 3 flits

/-- Flits of a copy packet received. -/
def copyFlits (q : CopyPacket) : Nat := ceilDiv (132 + q.data.length) 64

/-- The first interval of R271, in ps. -/
def firstInterval : Nat := 8000000

/-- The interval doubles up to 1 ms (R271). -/
def nextInterval (i : Nat) : Nat := Nat.min (2 * i) 1000000000

/-- A flight at its first send. -/
def State.newFlight (s : State) (chunk : Nat) (bs : List Byte) (pois : List Nat) : Flight :=
  { chunk := chunk, sends := 1, next := s.clk + firstInterval, interval := firstInterval, status := 0, bytes := bs, pois := pois }

/-- The flight after another send. -/
def State.resent (s : State) (f : Flight) : Flight :=
  { f with sends := f.sends + 1, next := s.clk + nextInterval f.interval, interval := nextInterval f.interval }

/-- Whether a remote operation is idempotent: rget and rput (R263). -/
def idempotent (kind : Nat) : Bool := kind = 5 || kind = 6

/-- The request packet of an operation (R270, R271): a fresh SENT and the current SFLOOR. -/
def State.requestOf (s : State) (c : Ctx) (t : Transfer) : Option Packet :=
  match t.work with
  | .remote kind sz u owner addr opnd exp _ => some (.request owner
      { src := s.devId, kind := kind, sz := sz, u := u, reqid := c.reqid, reply := c.reply, serial := t.serial, floor := c.sfloor
        expinc := t.expinc.getD 0, sent := s.time, job := jobOf c.launch, addr := addr.extractLsb' 0 57, opnd := opnd, exp := exp })
  | _ => none

/-- A copy packet of a chunk of a copy with a remote side (R409): a read request (SIDE 1) or copy data (SIDE 2). -/
def State.chunkPacket (s : State) (c : Ctx) (t : Transfer) (chunk : Nat) (bs : List Byte) (pois : List Nat) : Option Packet :=
  match t.work with
  | .copy src dst side dev _ =>
    let p : CopyPacket :=
      { src := s.devId, reqid := c.reqid, serial := t.serial, chunk := chunk, incarn := t.expinc.getD 0, status := 0, cause := 0
        sent := s.time.extractLsb' 0 32, desc := if side = 1 then src else dst, job := jobOf c.launch, floor := c.sfloor
        poison := if side = 1 then [] else pois, data := if side = 1 then [] else bs }
    some (if side = 1 then .copyRead dev p else .copyData dev p)
  | _ => none

/-- Emits a packet, if there is one, for a key of R408. -/
def State.emitOpt (s : State) (key : Nat) (p : Option Packet) : State :=
  match p with
  | some p => s.emitBy key p
  | none => s

/-- The owner device of a transfer. -/
def Transfer.owner (t : Transfer) : Option Nat :=
  match t.work with
  | .remote _ _ _ owner _ _ _ _ => some owner
  | .copy _ _ side dev _ => if side = 0 then none else some dev
  | _ => none

/-- Sends an incarnation probe to an owner, unless one is under way (R273). -/
def State.probe (s : State) (owner reqid : Nat) : State :=
  if s.hub.probes.any (fun p => p.1 == owner) then s else
  let s := s.setHub (fun h => { h with probes := h.probes ++ [(owner, 1, s.clk + firstInterval, firstInterval, reqid)] })
  s.emit (.probe owner { src := s.devId, reqid := reqid, floor := 0, incarn := 0, sent := s.time, reply := s.devId })

/-! ### Completion and failure -/

/-- A (owner, serial) pair enters the beacon set, replacing an older pair of that owner (R269); a newer pair of that owner, of
an operation that completed out of order, stays as it is. A full set of 64 loses its oldest pair. -/
def Ctx.addBeacon (c : Ctx) (owner : Nat) (serial : BitVec 32) : Ctx :=
  if c.beacons.any (fun b => b.1 == owner && !below b.2 serial) then c else
  let rest := c.beacons.filter (fun b => b.1 != owner)
  { c with beacons := (rest.drop (rest.length - 63)) ++ [(owner, serial)] }

/-- TVAL of an asynchronous class 17 trap (R278). -/
def remoteTval (tag owner cause : Nat) : Word := BitVec.ofNat 64 (tag + owner * 2 ^ 8 + cause * 2 ^ 32)

/-- A remote operation fails (R265): sD receives 0, the tag stays busy until the trap is taken. -/
def State.failRemote (s : State) (id : Nat) (t : Transfer) (code : Nat) (tval extra : Word) : State :=
  let s := s.failTag id t.tag code tval extra
  s.mapCtx id (fun c => match t.work with
    | .remote _ _ _ _ _ _ _ d => (c.setReg (BitVec.ofNat 6 d) 0).refloor
    | _ => c.refloor)

/-- A remote operation or a copy with a remote side fails with a class and subcode of its own (R278, R410). -/
def State.failOut (s : State) (id : Nat) (t : Transfer) (remoteSub copySub chunk cause : Nat) : State :=
  match t.work with
  | .remote _ _ _ owner _ _ _ _ => s.failRemote id t (17 * 16 + remoteSub) (remoteTval t.tag owner cause) 0
  | _ => (s.failTag id t.tag (14 * 16 + copySub) (moveTval t.tag chunk cause) 0).mapCtx id Ctx.refloor

/-- A copy that is to fail does so once none of its chunks is under way (R215). -/
def State.settleFail (s : State) (id tag : Nat) : State :=
  match (s.ctx? id).bind (fun c => c.transfer tag) with
  | some t => match t.failing with
    | some (sub, chunk, cause) =>
      if t.flights.isEmpty then (s.failTag id tag (14 * 16 + sub) (moveTval tag chunk cause) 0).mapCtx id Ctx.refloor else s
    | none => s
  | none => s

/-- A chunk of a copy with a remote side fails (R215, R410): no further chunk is sent, and the chunks that the owner may be writing
come to their end before the copy fails. -/
def State.failChunk (s : State) (id : Nat) (t : Transfer) (copySub chunk cause : Nat) : State :=
  match t.work with
  | .copy _ _ 2 _ _ =>
    (s.mapTransfer id t.tag (fun x => { x with
      flights := x.flights.filter (fun f => f.chunk != chunk), failing := some (x.failing.getD (copySub, chunk, cause)) })).settleFail id t.tag
  | _ => s.failOut id t 0 copySub chunk cause

/-- A result is zero-extended from w bits (R263). -/
def zeroExtended (sz : Nat) (result : Word) : Word := BitVec.ofNat 64 (result.toNat % 2 ^ (8 * 2 ^ sz))

/-- Completes a remote operation (R265, R269): the result, the CTB bit, and a beacon for an operation that is not idempotent. -/
def State.completeRemote (s : State) (id : Nat) (t : Transfer) (result : Word) : State :=
  match t.work with
  | .remote kind sz _ owner _ _ _ d =>
    (s.completeTag id t.tag).mapCtx id (fun c =>
      let c := c.setReg (BitVec.ofNat 6 d) (zeroExtended sz result)
      (if idempotent kind then c else c.addBeacon owner t.serial).refloor)
  | _ => s

/-- Completes a copy with a remote side (R410). -/
def State.completeOut (s : State) (id : Nat) (t : Transfer) : State :=
  match t.owner with
  | some owner => (s.completeTag id t.tag).mapCtx id (fun c => (c.addBeacon owner t.serial).refloor)
  | none => s

/-- Whether a change of incarnation fails a transfer: all but rget and rput (R273, R410). -/
def Transfer.guarded (t : Transfer) : Bool :=
  match t.work with
  | .remote kind _ _ _ _ _ _ _ => !idempotent kind
  | .copy _ _ side _ _ => side != 0
  | _ => false

/-- A changed incarnation of an owner (R273, R410): recorded, and every outstanding operation accepted with the old value
fails. -/
def State.changeIncarnation (s : State) (owner : Nat) (inc : BitVec 16) : State :=
  let s := s.setHub (fun h => { h with incarnations := h.incarnations.put owner inc })
  let hit := s.live.flatMap (fun c => (c.transfers.filter (fun t =>
    t.serialOut && t.guarded && t.owner == some owner && (t.expinc.map (fun e => e != inc)).getD false)).map (fun t => (c.reqid, t)))
  hit.foldl (fun s p => match p.2.work with
    | .remote _ _ _ _ _ _ _ _ => State.failOut s p.1 p.2 2 15 0 inc.toNat
    | _ => State.failOut s p.1 p.2 2 15 0 0x112) s

/-! ### Sending -/

/-- Whether a chunk of a descriptor touches DEV memory through a context's engine. -/
def State.localDev (s : State) (units : List Nat) (root : Word) (r : List Byte) (c : Nat) (acc : AccKindT) : Bool :=
  (chunkVas r c).any (fun va => match s.translateAt units root va acc with
    | .ok (l, _) => l.mt == mtDev
    | .error _ => false)

/-- The PTROOT of this device's live job with an ID (R264). -/
def State.jobRoot (s : State) (job : Nat) : Option Word :=
  (s.hub.entities.find? (fun e => e.level = 3 && jobOf e.key = job && !e.done)).map (fun e => e.ptroot)

/-- Whether a chunk of the remote side of a copy touches DEV memory on the owner. Where the owner is this device its own tables tell;
what the engine knows of the memory on another device is free (log entry 8). -/
def State.ownerDev (s : State) (dev : Nat) (r : List Byte) (c : Nat) (acc : AccKindT) : Bool :=
  if dev = s.devId then
    match s.jobRoot (jobOf s.cur.launch) with
    | some root => s.localDev [536] root r c acc
    | none => false
  else Config.remoteDev dev (dNum r 0 8) c

/-- Whether a chunk of a copy of the current context is one of DEV memory on either side (R215, R410). -/
def State.devChunk (s : State) (t : Transfer) (c : Nat) : Bool :=
  match t.work with
  | .copy src dst side dev _ =>
    let here := s.localDev (engineUnits s.cur) t.ptroot
    if side = 1 then here dst c .write || s.ownerDev dev src c .read else here src c .read || s.ownerDev dev dst c .write
  | _ => false

/-- Whether every lower chunk of DEV memory has been performed: such chunks go one at a time in ascending order (R215, R410). -/
def State.devTurn (s : State) (t : Transfer) (c : Nat) : Bool :=
  !s.devChunk t c || (List.range c).all (fun d => t.done.contains d || !s.devChunk t d)

/-- The lowest chunks of a copy of the current context that are neither done nor in flight and may be sent, as many as the window
of 64 leaves room for (R410); none of a copy that is to fail (R215). -/
def State.toSend (s : State) (t : Transfer) : List Nat :=
  if t.failing.isSome then [] else
  ((List.range t.chunks).filter (fun c =>
    !t.done.contains c && !(t.flights.any (fun f => f.chunk == c)) && s.devTurn t c)).take (64 - t.flights.length)

/-- Sends one chunk of a copy of the current context for the first time: a read request, or the bytes of the local source. -/
def State.sendChunk (s : State) (tag chunk : Nat) : State :=
  match s.cur.transfer tag with
  | none => s
  | some t => match t.work with
    | .copy src _ side _ _ =>
      let id := s.cur.reqid
      if side = 1 then
        (s.emitOpt tag (s.chunkPacket s.cur t chunk [] [])).mapTransfer id tag (fun t => { t with flights := t.flights ++ [s.newFlight chunk [] []] })
      else if t.failing.isSome then s
      else match readChunk (engineUnits s.cur) t.ptroot id (s.ownWaiter tag chunk) src chunk s with
        | .ok ((bs, bad), s2) =>
          let pois := poisonPieces bad
          (s2.emitOpt tag (s2.chunkPacket s2.cur t chunk bs pois)).mapTransfer id tag (fun t => { t with
            flights := t.flights ++ [s2.newFlight chunk bs pois] })
        | .error (.trap code _ keep) => (s.usesOf (keep.getD s)).failChunk id t 8 chunk code
        | .error (.arrive s2) => s.arrived s2
        | .error _ => s
    | _ => s

/-- Sends what a transfer of the current context may send now; an owner with no recorded incarnation is probed first (R271,
R273, R410). -/
def State.pump (s : State) (tag : Nat) : State :=
  match s.cur.transfer tag with
  | none => s
  | some t =>
    if t.guarded && t.expinc.isNone then s.probe (t.owner.getD 0) s.cur.reqid
    else match t.work with
      | .remote _ _ _ _ _ _ _ _ =>
        if t.flights.isEmpty then
          (s.emitOpt s.cur.reqid (s.requestOf s.cur t)).mapTransfer s.cur.reqid tag (fun t => { t with flights := [s.newFlight 0 [] []] })
        else s
      | .copy _ _ _ _ _ => (s.toSend t).foldl (fun s c => State.sendChunk s tag c) s
      | _ => s

/-- The recorded incarnation of an owner is known: what waited for it is sent (R273). -/
def State.incarnationKnown (s : State) (owner : Nat) (inc : BitVec 16) : State :=
  let s := s.setHub (fun h => { h with
    incarnations := h.incarnations.put owner inc, probes := h.probes.filter (fun p => p.1 != owner) })
  let waiting := s.live.flatMap (fun c => (c.transfers.filter (fun t =>
    t.serialOut && t.guarded && t.expinc.isNone && t.owner == some owner)).map (fun t => (c.reqid, t.tag)))
  waiting.foldl (fun s p =>
    (s.mapTransfer p.1 p.2 (fun t => { t with expinc := some inc })).onBehalf p.1 (fun s => s.pump p.2)) s

/-! ### Acceptance -/

/-- Whether a device can be reached (R263): itself, or any with an Efpo link up. -/
def State.routed (s : State) (dev : Nat) : Bool := dev = s.devId || (s.efpo.lock && s.efpo.links != 0)

/-- Acceptance of a transfer that takes a serial (R265, R269, R409), and its first packets. -/
def acceptOut (tag : Nat) (work : Work) (scope chunks : Nat) (owner : Nat) : M Unit :=
  modify (fun s =>
    let s := s.setCur (fun c =>
      ({ c.accept { tag := tag, work := work, scope := scope, ptroot := c.ptroot, serial := c.snext, chunks := chunks, done := []
                    failed := false, expinc := s.hub.incarnations.find owner, flights := [], failing := none } with snext := c.snext + 1 }).refloor)
    s.pump tag)

/-- The body of radd to rput (R263, R265): `kind` is OP - 11. -/
def remoteBody (f : Fields) (kind : Nat) : M Unit := do
  let s ← get
  let sz := f.sub 11 2
  let w := 2 ^ sz
  let a := s.reg f.a
  let e := s.reg (BitVec.ofNat 6 (f.sub 0 5))
  let owner := fld e.toNat 0 13
  checkM (a.toNat % w == 0) 3 4 a
  checkM (fld e.toNat 13 51 == 0 && s.routed owner) 17 0 e
  checkM (idempotent kind || !s.replayingLaunch s.cur.reqid) 19 11 a
  let tag := f.sub 5 6
  tagFree tag
  moverRoom
  acceptOut tag (.remote kind sz (f.sub 13 1 = 1) owner a (if kind = 5 then 0 else s.reg f.b) (if kind = 2 then s.reg f.d else 0)
    (if kind = 6 then 0 else f.d.toNat)) 4 1 owner

/-- RADD (R263, R265). -/
def execRadd (f : Fields) (s : State) : Host.Outcome State Fault Refusal := issue (.radd f) (runBody (remoteBody f 0)) s

/-- RSWAP (R263, R265). -/
def execRswap (f : Fields) (s : State) : Host.Outcome State Fault Refusal := issue (.rswap f) (runBody (remoteBody f 1)) s

/-- RCAS (R263, R265). -/
def execRcas (f : Fields) (s : State) : Host.Outcome State Fault Refusal := issue (.rcas f) (runBody (remoteBody f 2)) s

/-- RMAX (R263, R265). -/
def execRmax (f : Fields) (s : State) : Host.Outcome State Fault Refusal := issue (.rmax f) (runBody (remoteBody f 3)) s

/-- RPUSH (R263, R267). -/
def execRpush (f : Fields) (s : State) : Host.Outcome State Fault Refusal := issue (.rpush f) (runBody (remoteBody f 4)) s

/-- RGET (R263, R265). -/
def execRget (f : Fields) (s : State) : Host.Outcome State Fault Refusal := issue (.rget f) (runBody (remoteBody f 5)) s

/-- RPUT (R263, R265). -/
def execRput (f : Fields) (s : State) : Host.Outcome State Fault Refusal := issue (.rput f) (runBody (remoteBody f 6)) s

/-! ### copy -/

/-- A descriptor read as one 64-byte load of the hart (R213). -/
def descRecord (va : Word) : M (List Byte) := do
  checkM (va.toNat % 64 == 0) 3 8 va
  let leaf ← translateM va .read
  if leaf.mt = mtDev then fun s => .error (.trap (14 * 16 + 1) (Config.freeTval s.fresh) (some { s with fresh := s.fresh + 1 }))
  else do
    let (v, _) ← loadM va 64 .read
    pure (leBytes v 64)

/-- The copy chunk clamp of a latency class (R344). -/
def chunkClamp (lclass : Nat) : Option Nat :=
  match lclass with
  | 0 => some 4
  | 1 => some 32
  | 2 => some 480
  | _ => none

/-- Whether an address lies on a DEV page. -/
def State.onDev (s : State) (acc : AccKindT) (va : Word) : Bool :=
  match s.translate va acc with
  | .ok (leaf, _) => leaf.mt == mtDev
  | .error _ => false

/-- The data a replayable launch may move (R352): nothing on another device or in DEV memory, its regions on this one. -/
def replayCopy (src dst : List Byte) (side : Nat) : M Unit := do
  let s ← get
  if s.replayingLaunch s.cur.reqid then do
    checkM (side = 0) 19 11 0
    let bad := fun (r : List Byte) (w : Bool) => ((dOffsets r).map (elemVa r)).find? (fun va =>
      !s.replayOk va.toNat (dEsize r) w (s.onDev (if w then .write else .read) va))
    match bad src false with
    | some va => trapM 19 11 va
    | none => match bad dst true with
      | some va => trapM 19 11 va
      | none => pure ()

/-- The checks of R213 on two descriptors, in order. -/
def copyChecks (f : Fields) (b : Word) (src dst : List Byte) : M Unit := do
  let c := (← get).cur
  let tag := f.sub 0 6
  tagFree tag
  match descFault dst with
  | some o => trapM 14 1 (BitVec.ofNat 64 (64 + o))
  | none => pure ()
  match descFault src with
  | some o => trapM 14 1 (BitVec.ofNat 64 o)
  | none => pure ()
  checkM (dEsize src = dEsize dst && dCount src = dCount dst) 14 2 (BitVec.ofNat 64 tag)
  let n := chunkCount src
  checkM (((chunkClamp c.lclass).map (fun k => decide (n ≤ k))).getD true && (f.sub 9 1 = 0 || n ≤ 8192)) 14 3 (BitVec.ofNat 64 n)
  let side := fld b.toNat 13 2
  checkM (side != 3 && fld b.toNat 15 49 = 0 && (side != 0 || b = 0) && (side = 0 || f.sub 6 3 = 4)) 14 4 b
  match boundsFault src, boundsFault dst with
  | some x, some y => trapM 14 6 (moveTval tag (Nat.min x y) 0)
  | some x, none => trapM 14 6 (moveTval tag x 0)
  | none, some y => trapM 14 6 (moveTval tag y 0)
  | none, none => pure ()
  checkM (!overlapFault src dst (side = 0)) 14 7 0

/-- The bits of the chunks below `n` of a chunk mask are those of another copy: they acquire nothing of an earlier one (R216). -/
def Ctx.dropMaskCodes (c : Ctx) (k n : Nat) : Ctx :=
  { c with pubs := (c.pubs.map (fun e => if e.2 / 2 ^ 40 = k && e.2 / 128 % 2 ^ 33 < n then (e.1, e.2 % 128) else e)).eraseDups }

/-- COPY (R212-R216, R409). -/
def execCopy (f : Fields) (s : State) : Host.Outcome State Fault Refusal :=
  issue (.copy f) (runBody (do
    let s ← get
    let b := s.reg f.b
    let dst ← descRecord (s.reg f.d)
    let src ← descRecord (s.reg f.a)
    copyChecks f b src dst
    let side := fld b.toNat 13 2
    replayCopy src dst side
    moverRoom
    let n := chunkCount src
    let km := if f.sub 9 1 = 1 then some (f.sub 10 3) else none
    match km with
    | some k => modify (fun s => s.setCur (fun c => (c.setMask k ((c.mask k >>> n) <<< n)).dropMaskCodes k n))
    | none => pure ()
    modify State.fenceStores
    let work := Work.copy src dst side (fld b.toNat 0 13) km
    if side = 0 then
      modify (fun s => s.setCur (fun c => c.accept
        { tag := f.sub 0 6, work := work, scope := f.sub 6 3, ptroot := c.ptroot, serial := 0, chunks := n, done := []
          failed := false, expinc := none, flights := [], failing := none }))
    else acceptOut (f.sub 0 6) work (f.sub 6 3) n (fld b.toNat 0 13))) s

/-! ### Answers -/

/-- The context and the transfer that a (REQID, SERIAL) pair names. -/
def State.findSerial (s : State) (id : Nat) (serial : BitVec 32) : Option Transfer :=
  match s.ctx? id with
  | some c => c.transfers.find? (fun t => t.serialOut && t.serial == serial)
  | none => none

/-- FLOORSEEN removes the beacon pairs of an owner below it (R274). -/
def State.floorSeen (s : State) (id owner : Nat) (floor : BitVec 32) : State :=
  s.mapCtx id (fun c => { c with beacons := c.beacons.filter (fun b => !(b.1 == owner && below b.2 floor)) })

/-- Whether an answer of an owner shows a changed incarnation (R273). -/
def State.incarnationChanged (s : State) (owner : Nat) (inc : BitVec 16) (status : Nat) : Bool :=
  match s.hub.incarnations.find owner with
  | some i => i != inc || status = 7
  | none => false

/-- Counts a packet dropped at the hub (R277). -/
def State.remDropped (s : State) : State := s.setHub (fun h => { h with remDrop := satInc h.remDrop })

/-- Records the status of the last answer of a flight (R271). -/
def State.noteStatus (s : State) (id tag chunk status : Nat) : State :=
  s.mapTransfer id tag (fun t => { t with flights := t.flights.map (fun f => if f.chunk = chunk then { f with status := status } else f) })

/-- What a response makes of the operation it answers (R265, R270, R278). -/
def State.answerRemote (s : State) (t : Transfer) (p : RemoteResponse) : State :=
  let owner := t.owner.getD 0
  match p.status with
  | 0 => s.completeRemote p.reqid t p.result
  | 1 => s.noteStatus p.reqid t.tag 0 1
  | 2 => s.failOut p.reqid t 4 0 0 p.cause
  | 3 => s.failOut p.reqid t 5 0 0 0
  | 4 => s.failOut p.reqid t 7 0 0 0
  | 5 => match t.work with
    | .remote _ _ _ _ addr _ _ _ => s.failRemote p.reqid t (15 * 16 + 1) addr (remoteTval t.tag owner 0)
    | _ => s
  | 6 => s.failOut p.reqid t 8 0 0 0
  | 8 => s.failOut p.reqid t 10 0 0 0
  | _ => s

/-- REMOTE_RESPONSE_RECEIVED (R271, R273, R274). -/
def execRemoteResponseReceived (s : State) : Host.Outcome State Fault Refusal :=
  .next (match s.input with
    | .response p =>
      let s := s.received p.src (Config.packetFlits 1)
      if 9 ≤ p.status then s.remDropped else
      match s.findSerial p.reqid p.serial with
      | none => s
      | some t => match t.work with
        | .remote _ _ _ _ _ _ _ _ =>
          let s := s.floorSeen p.reqid p.src p.floorseen
          let s := if s.incarnationChanged p.src p.incarn p.status then s.changeIncarnation p.src p.incarn else s
          match s.findSerial p.reqid p.serial with
          | none => s
          | some t => s.answerRemote t p
        | _ => s
    | _ => s)

/-- BEACON_ACK_RECEIVED (R274). -/
def execBeaconAckReceived (s : State) : Host.Outcome State Fault Refusal :=
  .next (match s.input with
    | .floor p => (s.received p.src (Config.packetFlits 3)).floorSeen p.reqid p.src p.floor
    | _ => s)

/-- PROBE_ANSWER_RECEIVED (R273): the answer of a probe under way. -/
def execProbeAnswerReceived (s : State) : Host.Outcome State Fault Refusal :=
  .next (match s.input with
    | .floor p =>
      let s := s.received p.src (Config.packetFlits 5)
      if s.hub.probes.any (fun q => q.1 == p.src) then s.incarnationKnown p.src p.incarn else s
    | _ => s)

/-- A floor beacon of a context to an owner (R274). -/
def State.beaconTo (s : State) (c : Ctx) (owner : Nat) : State :=
  s.emit (.beacon owner { src := s.devId, reqid := c.reqid, floor := c.sfloor, incarn := 0, sent := s.time, reply := s.devId })

/-- The length in ps of an interval of R274. -/
def beaconPeriod : Nat := 100000000

/-- FLOOR_BEACON_TIMER (R274): once for each 100 us of device time. -/
def execFloorBeaconTimer (s : State) : Host.Outcome State Fault Refusal :=
  .next (if s.clk / beaconPeriod ≤ s.hub.beaconed then s else
    let s := s.setHub (fun h => { h with beaconed := h.beaconed + 1 })
    s.live.foldl (fun s c => c.beacons.foldl (fun s b => State.beaconTo s c b.1) s) s)

/-! ### The schedule -/

/-- Resends one flight of a transfer of the current context, or fails it after the 16th interval (R271, R410). -/
def State.resend (s : State) (t : Transfer) (f : Flight) : State :=
  let id := s.cur.reqid
  if 16 ≤ f.sends then
    match t.work with
    | .remote _ _ _ _ _ _ _ _ => s.failOut id t (if f.status = 1 then 3 else 1) 0 0 0
    | _ => s.failChunk id t 15 f.chunk (if f.status = 1 then 0x113 else 0x111)
  else
    let p := match t.work with
      | .remote _ _ _ _ _ _ _ _ => (id, s.requestOf s.cur t)
      | _ => (t.tag, s.chunkPacket s.cur t f.chunk f.bytes f.pois)
    (s.emitOpt p.1 p.2).mapTransfer id t.tag (fun t => { t with flights := t.flights.map (fun g => if g.chunk = f.chunk then s.resent g else g) })

/-- The expiry of a flight of the current context, once its interval has passed. -/
def State.expire (s : State) (t : Transfer) (chunk : Nat) : State :=
  match t.flights.find? (fun f => f.chunk == chunk) with
  | none => s
  | some f => if f.next ≤ s.clk then s.resend t f else s

/-- The expiry of a probe (R273): resent, or its waiting operations unreachable. -/
def State.expireProbe (s : State) (owner : Nat) : State :=
  match s.hub.probes.find? (fun p => p.1 == owner) with
  | none => s
  | some (_, n, next, iv, reqid) =>
    if s.clk < next then s
    else if 16 ≤ n then
      let s := s.setHub (fun h => { h with probes := h.probes.filter (fun p => p.1 != owner) })
      (s.live.flatMap (fun c => (c.transfers.filter (fun t =>
        t.serialOut && t.guarded && t.expinc.isNone && t.owner == some owner)).map (fun t => (c.reqid, t)))).foldl
          (fun s p => State.failOut s p.1 p.2 1 15 0 (match p.2.work with
            | .remote _ _ _ _ _ _ _ _ => 0
            | _ => 0x111)) s
    else
      let s := s.setHub (fun h => { h with
        probes := h.probes.map (fun p => if p.1 = owner then (owner, n + 1, s.clk + nextInterval iv, nextInterval iv, reqid) else p) })
      s.emit (.probe owner { src := s.devId, reqid := reqid, floor := 0, incarn := 0, sent := s.time, reply := s.devId })

/-- The expiry of an rsync beacon of the current context to an owner (R275). -/
def State.expireDrain (s : State) (owner : Nat) : State :=
  match s.cur.drain.find? (fun d => d.1 == owner) with
  | none => s
  | some (_, n, next, iv) =>
    if s.clk < next || 16 ≤ n then s
    else (s.beaconTo s.cur owner).setCur (fun c => { c with
      drain := c.drain.map (fun d => if d.1 = owner then (owner, n + 1, s.clk + nextInterval iv, nextInterval iv) else d) })

/-- RETRANSMISSION_TIMER (R271, R273, R275): n3 = 0 the operation of context n1 with serial n2; 1 the probe of owner n1; 2 the
beacon of context n1's rsync to owner n2. -/
def execRetransmissionTimer (s : State) : Host.Outcome State Fault Refusal :=
  let x := s.input
  .next (match x.n3 with
    | 0 => s.onBehalf x.n1 (fun s => if s.cur.reqid = x.n1 then (match s.findSerial x.n1 (BitVec.ofNat 32 x.n2) with
        | some t => match t.work with
          | .remote _ _ _ _ _ _ _ _ => s.expire t 0
          | _ => s
        | none => s) else s)
    | 1 => s.expireProbe x.n1
    | _ => s.onBehalf x.n1 (fun s => if s.cur.reqid = x.n1 then s.expireDrain x.n2 else s))

/-- COPY_CHUNK_RETRANSMIT (R410): chunk n3 of the copy of context n1 under tag n2; chunks not yet sent are sent. -/
def execCopyChunkRetransmit (s : State) : Host.Outcome State Fault Refusal :=
  let x := s.input
  .next (s.onBehalf x.n1 (fun s => if s.cur.reqid = x.n1 then (match s.cur.transfer x.n2 with
    | some t => match t.work with
      | .copy _ _ side _ _ => if side = 0 then s else (s.expire t x.n3).pump x.n2
      | _ => s
    | none => s) else s))

/-! ### Copy packets at the requester -/

/-- What the status of a copy packet makes of the copy (R410): `none` where the chunk was taken or read. -/
def State.copyStatus (s : State) (t : Transfer) (p : CopyPacket) : Option State :=
  match p.status with
  | 0 => none
  | 1 => some (s.noteStatus p.reqid t.tag p.chunk 1)
  | 2 => some (s.failChunk p.reqid t 8 p.chunk p.cause)
  | 5 => some (s.failChunk p.reqid t 8 p.chunk 0x0F1)
  | 8 => some (s.failChunk p.reqid t 8 p.chunk 0x11A)
  | _ => some s

/-- A chunk of a copy with a remote side is done: the copy completes, fails for an earlier fault (R215), or sends more (R410). -/
def State.chunkAnswered (s : State) (t : Transfer) (chunk : Nat) (km : Option Nat) : State :=
  let s := s.chunkDone s.cur.reqid t.tag chunk km
  if t.failing.isSome then s.settleFail s.cur.reqid t.tag
  else if t.done.length + 1 = t.chunks then s.completeOut s.cur.reqid t else s.pump t.tag

/-- Handles a copy packet of SIDE `side` for the current context (R410): `act` performs a chunk that was answered. -/
def State.copyAnswer (s : State) (p : CopyPacket) (side : Nat) (act : State → Transfer → State) : State :=
  match s.findSerial p.reqid p.serial with
  | none => s
  | some t => match t.work with
    | .copy _ _ sd _ _ =>
      if 9 ≤ p.status then s.remDropped
      else if sd != side || t.chunks ≤ p.chunk || t.done.contains p.chunk then s
      else if s.incarnationChanged p.src p.incarn p.status then s.changeIncarnation p.src p.incarn
      else match s.copyStatus t p with
        | some s2 => s2
        | none => act s t
    | _ => s

/-- COPY_DATA_AT_REQUESTER (R410): the first match is written to the local destination; chunks of DEV memory in ascending order
(R215). -/
def execCopyDataAtRequester (s : State) : Host.Outcome State Fault Refusal :=
  .next (match s.input with
    | .copy p => (s.received p.src (copyFlits p)).onBehalf p.reqid (fun s => if s.cur.reqid = p.reqid then s.copyAnswer p 1 (fun s t => match t.work with
        | .copy _ dst _ _ km =>
          if !s.devTurn t p.chunk then s else
          match engineRun p.chunk (writeChunk (engineUnits s.cur) t.ptroot p.reqid (s.ownWaiter t.tag p.chunk) (pubCode t.tag p.chunk (km.getD 0)) dst
            p.chunk p.data (piecesBad p.data.length p.poison)) s with
          | .ok s2 => s2.chunkAnswered t p.chunk km
          | .fault c code s2 => s2.failOut p.reqid t 0 8 c code
          | .wait s2 => s2
        | _ => s) else s)
    | _ => s)

/-- COPY_ACKNOWLEDGEMENT_RECEIVED (R410). -/
def execCopyAcknowledgementReceived (s : State) : Host.Outcome State Fault Refusal :=
  .next (match s.input with
    | .copy p => (s.received p.src 1).onBehalf p.reqid (fun s => if s.cur.reqid = p.reqid then s.copyAnswer p 2 (fun s t => match t.work with
        | .copy _ _ _ _ km => s.chunkAnswered t p.chunk km
        | _ => s) else s)
    | _ => s)

/-! ### rsync -/

/-- Beacons to owners that the drain has not reached yet (R275). -/
def State.startDrain (s : State) : State :=
  (s.cur.beacons.filter (fun b => !(s.cur.drain.any (fun d => d.1 == b.1)))).foldl (fun s b =>
    (State.beaconTo s s.cur b.1).setCur (fun c => { c with drain := c.drain ++ [(b.1, 1, s.clk + firstInterval, firstInterval)] })) s

/-- The owner whose schedule has run out. -/
def Ctx.drainFailed (c : Ctx) (now : Nat) : Option Nat :=
  (c.drain.find? (fun d => 16 ≤ d.2.1 && d.2.2.1 ≤ now && c.beacons.any (fun b => b.1 == d.1))).map (fun d => d.1)

/-- The acquire of every completed remote operation of a context (R275). -/
def Ctx.acquireRemote (c : Ctx) : Ctx :=
  c.acquireCodes (fun e => e / 2 ^ 50 = 1 && !c.transfers.any (fun t => t.tag == e % 128))

/-- RSYNC (R275): an acquire of every completed remote operation. -/
def execRsync (f : Fields) (s : State) : Host.Outcome State Fault Refusal :=
  issue (.rsync f) (runBody (do
    let s ← get
    if s.cur.transfers.any (fun t => !t.failed && (match t.work with
      | .remote _ _ _ _ _ _ _ _ => true
      | _ => false)) then plainWait
    else if s.cur.beacons.isEmpty then
      set (s.setCur (fun c => { c.acquireRemote.resumeFrom with drain := [] }))
    else match s.cur.drainFailed s.clk with
      | some owner => fun s => .error (.trap (17 * 16 + 1) (remoteTval 0 owner 0) (some (s.setCur (fun c => { c with drain := [] }))))
      | none => do
        set s.startDrain
        plainWait)) s

end Sys2Proof.Machine
end

