-- ==== Sys2Proof/Machine/Fabric.lean ====
section
/-! DEFINITION. Efpo links and time synchronisation (R408, R411-R413), and start-up (R415-R418). An event whose condition does
not hold changes nothing (log entry 9). -/

namespace Sys2Proof.Machine

/-- EFPO_LINK_CHANGE (R408, R412): no port comes up until LOCK = 1. -/
def execEfpoLinkChange (s : State) : Host.Outcome State Fault Refusal :=
  let port := s.input.n1 % 16
  let bit := 1#16 <<< port
  let was := s.efpo.links.getLsbD port
  .next (if s.input.n2 = 1 then (if s.efpo.lock then { s with efpo := { s.efpo with links := s.efpo.links ||| bit } } else s)
    else if was then State.efCount { s with efpo := { s.efpo with links := s.efpo.links &&& ~~~bit } } port 6 1
    else s)

/-- TIME_SYNC_EXCHANGE (R411, R413): a time-sync packet leaves by a port that is up; an older one of its SEQ is forgotten. -/
def execTimeSyncExchange (s : State) : Host.Outcome State Fault Refusal :=
  let port := s.input.n1 % 16
  let seq := s.efpo.nextSeq
  let t1 := s.time.toNat
  .next (if s.efpo.links.getLsbD port then
      State.emit { s with efpo := { s.efpo with
        exchanges := s.efpo.exchanges.filter (fun e => e.2.1 != seq) ++ [(port, seq, t1)], nextSeq := (seq + 1) % 65536 } } (.timeSync port seq t1)
    else s)

/-- A switch's answer to an exchange that was sent at `t1` (R411): discarded when the round trip is above 1 us; else the
counter slews toward the offset and TSYNC is 1 (R413). -/
def State.timeAnswer (s : State) (t1 ta tb : Nat) : State :=
  let t4 : Int := s.time.toNat
  let trip := (t4 - t1) - ((tb : Int) - ta)
  let twice := ((ta : Int) - t1) + ((tb : Int) - t4)
  if 1000 < trip then s
  else { s with efpo := { s.efpo with slew := 500 * twice, lastSync := s.clk, tsync := true } }

/-- TIME_SYNC_ANSWER (R411). -/
def execTimeSyncAnswer (s : State) : Host.Outcome State Fault Refusal :=
  .next (match s.input with
    | .answer port seq ta tb =>
      let s1 := (s.efCount port 1 1).efCount port 3 1
      match s1.efpo.exchanges.find? (fun e => e.1 == port % 16 && e.2.1 == seq) with
      | some e =>
        let t1 := e.2.2
        let rest := s1.efpo.exchanges.filter (fun x => x != e)
        State.timeAnswer { s1 with efpo := { s1.efpo with exchanges := rest } } t1 ta tb
      | none => s1
    | _ => s)

/-- TSYNC_LOSS (R413): no completed exchange for 10 ms. -/
def execTsyncLoss (s : State) : Host.Outcome State Fault Refusal :=
  .next (if s.efpo.tsync && s.efpo.lastSync + 10000000000 < s.clk then
      State.raiseMip { s with efpo := { s.efpo with tsync := false, slew := 0 } } 10 (BitVec.ofNat 64 s.devId)
    else s)

/-! ### Start-up -/

/-- What the repair record keeps of the towers over a device reset: VBHEALTH (R221). -/
def State.repaired (s : State) : SMap Tower :=
  s.towers.map (fun e => (e.1, { Tower.blank with vbHealth := e.2.vbHealth }))

/-- The incarnation of the next start-up (R273): from 0xFFFF it goes to 1, since 0 is never used. -/
def nextIncarnation (i : BitVec 16) : BitVec 16 := if i = 0xFFFF then 1 else i + 1

/-- Start-up from measurement `m` (R415): where no slot passes the machine stops; else the state of R415-R418 with the next
incarnation, at the device time reached (R19: the counter never moves backward). -/
def State.startUp (s : State) (m : BitVec 512 × List (BitVec 16 × BitVec 512)) : State :=
  let ok := s.hub.bootSlot.isSome
  let inc := if ok then nextIncarnation s.hub.incarnation else s.hub.incarnation
  let x := (s.loadSlot m).hub
  let hub := { Hub.blank with
    incarnation := inc, measure := x.measure, attLog := x.attLog, booted := x.booted, slots := s.hub.slots,
    startStat := if ok then 0 else 1 }
  let power := { Power.blank with govMoved := s.clk, boundary := s.clk / 10000000, ticked := s.clk / 1000000000 }
  { State.reset with
    mem := Memory.writeN [] (Config.residentBase + 2) (leBytes inc.toNat 2), hub := hub, power := power,
    towers := s.repaired, clk := s.clk, resetAt := s.clk, agenda := s.agenda, input := s.input, fresh := s.fresh }

/-- POWER_ON (R415): start-up with MEAS at zero (R416). -/
def execPowerOn (s : State) : Host.Outcome State Fault Refusal := .next (s.startUp (0, []))

/-- MODULE_RESET (R415): start-up; MEAS, which is zero at power-on only (R416), is extended further. -/
def execModuleReset (s : State) : Host.Outcome State Fault Refusal := .next (s.startUp (s.hub.measure, s.hub.attLog))

end Sys2Proof.Machine
end

