-- ==== Sys2Proof/Machine/Matrix.lean ====
section
/-! DEFINITION. Class 4, OPs 2 to 10: the weight-stationary array (R166-R197). -/

namespace Sys2Proof.Machine

/-- The ownership checks that every matrix instruction makes first (R171). -/
def matrixOwner : M Unit := do
  let s ← get
  let c := s.cur
  checkM (c.part = 0) 12 0 (s.crRead 0x22)
  checkM c.mownEn 12 1 0

/-! ### Tiles -/

/-- The carried TCFG value of a tile. -/
def tileOf (f : Fields) : Nat := f.d.toNat - 60

/-- TCFG (R175): a new OWN of 0b00 empties the tile. -/
def execTcfg (f : Fields) (s : State) : Host.Outcome State Fault Refusal :=
  issue (.tcfg f) (runBody (do
    matrixOwner
    let s ← get
    let v := s.reg f.a
    match tcfgFault s.cur.lclass v with
    | some sub => trapM 12 sub (tcfgTval sub v)
    | none => set (s.setCur (fun c =>
        let c := c.putTcfg (tileOf f) v
        if fld v.toNat 24 2 = 0 then c.setTile (tileOf f) Tile.blank else c)))) s

/-- The tile that a row of 8,192 bytes with its poisoned granules gives under a TCFG value (R176, R177). -/
def loadTile (cfg : Nat) (row : List Byte × List Nat) : Tile :=
  let rows := fld cfg 6 8
  let cols := fld cfg 14 7
  let bytes := (row.1.zip (List.range 8192)).map (fun p => if p.2 / 64 < rows && p.2 % 64 < cols then p.1 else 0)
  let bad := fun n => (List.range rows).any (fun k => row.2.contains (2 * k + n / 32))
  { wt := BitVec.ofNat 65536 (leValue bytes), loaded := true, fc := fld cfg 0 6, rows := rows, cols := cols
    scale := BitVec.ofNat 32 (fld cfg 32 32)
    pcol := (List.range cols).foldl (fun p n => bitPut p n (bad n)) (0#64) }

/-- The checks of tld that its TCFG value decides (R177): the value. -/
def tldChecks (f : Fields) : M Nat := do
  matrixOwner
  let c := (← get).cur
  let cfg := (c.tcfgN (tileOf f)).toNat
  let tv := BitVec.ofNat 64 (tileOf f)
  checkM (fld cfg 24 2 != 0) 12 5 tv
  checkM (fld cfg 24 2 != 2) 12 15 tv
  checkM (fld cfg 6 8 ≤ tileRowClamp c.lclass) 12 14 (BitVec.ofNat 64 (fld cfg 6 8))
  pure cfg

/-- TLD, FORM 0b00 (R177): from the hart's own open row, one group whatever vg is. -/
def execTld (f : Fields) (s : State) : Host.Outcome State Fault Refusal :=
  issue (.tld f) (runBody (do
    let cfg ← tldChecks f
    let g := rowField f.a
    checkRun g 1 false
    replayRun g 1 false (fun _ => true)
    modify (fun s => s.setCur (fun c => c.setTile (tileOf f) (loadTile cfg (s.seenRow (s.homeKey g))))))) s

/-- TLD_EXPOSED, FORM 0b11 (R177): from the row exposed on this tower under the tag of IMM28[15:0], which a replayable launch may read
only inside its regions (R352). -/
def execTldExposed (f : Fields) (s : State) : Host.Outcome State Fault Refusal :=
  issue (.tldExposed f) (runBody (do
    let cfg ← tldChecks f
    let s ← get
    let tv := BitVec.ofNat 64 (f.sub 0 16)
    match s.exposure s.cur.place (f.sub 0 16) with
    | none => trapM 12 13 tv
    | some e => do
      checkM (bitAt e.acc 0) 12 13 tv
      let k := groupKey e.rows.tower e.rows.bank e.rows.group
      checkM (s.replayOk (s.group k).va.toNat 8192 false false) 19 11 (s.group k).va
      modify (fun s => (s.waitTo (s.usableAt k)).setCur (fun c => c.setTile (tileOf f) (loadTile cfg (s.seenRow k)))))) s

/-! ### Sums -/

/-- q of an array format (R167): the exponent of its least significant weight. -/
def arrayQ (fc : Nat) : Int :=
  match fc % 32 with
  | 17 => -32
  | 18 => -17
  | 19 => -10
  | 20 => -7
  | 21 => -6
  | 11 => -2
  | _ => 0

/-- m of an array format (R167): magnitude bits above 2^q. -/
def arrayM (fc : Nat) : Nat :=
  match fc % 32 with
  | 17 => 64
  | 18 => 33
  | 19 => 18
  | 20 => 11
  | 11 => 4
  | _ => 8

/-- Whether the array multiplies a pair of formats (R167): a window of at most 80 bits. -/
def formatsFit (fa fb : Nat) : Bool := arrayM fa + arrayM fb + 8 + (if fa = 11 || fb = 11 then 1 else 0) ≤ 80

/-- A factor of a product: its kind, and its finite value as a multiple of 2^q. -/
structure Factor where
  kind : AccKind
  v : Int
  deriving DecidableEq, Repr, Inhabited

/-- The value of a code of an array format (R164, R173). -/
def factorOf (code fc : Nat) : Factor :=
  match valueOf code fc (fcWidth fc) with
  | .nan _ => { kind := .nan, v := 0 }
  | .inf neg => { kind := if neg then .negInf else .posInf, v := 0 }
  | .zero _ => { kind := .finite, v := 0 }
  | .fin neg m e =>
    let x : Int := (m * 2 ^ (e - arrayQ fc).toNat : Nat)
    { kind := .finite, v := if neg then -x else x }

/-- Whether a factor is below zero. -/
def Factor.negative (x : Factor) : Bool := x.kind = .negInf || (x.kind = .finite && x.v < 0)

/-- A product (R183), and whether it raises NV. -/
def mulFactor (x y : Factor) : Factor × Bool :=
  if x.kind = .finite && y.kind = .finite then ({ kind := .finite, v := x.v * y.v }, false)
  else if x.kind = .nan || y.kind = .nan then ({ kind := .nan, v := 0 }, false)
  else if (x.kind = .finite && x.v = 0) || (y.kind = .finite && y.v = 0) then ({ kind := .nan, v := 0 }, true)
  else ({ kind := if x.negative != y.negative then .negInf else .posInf, v := 0 }, false)

/-- Kinds combine as in IEEE 754 addition (R183); whether NV is raised. -/
def addKind (a b : AccKind) : AccKind × Bool :=
  if a = .finite then (b, false)
  else if b = .finite || a = .nan || a = b then (a, false)
  else (.nan, b != .nan)

/-- The weight of input `k` in column `n` of a tile (R176). -/
def Tile.weight (t : Tile) (k n : Nat) : Factor :=
  let byte := fun (i : Nat) => (t.wt.extractLsb' (8 * i) 8).toNat
  if t.fc = 11 then factorOf (fld (byte (k / 2 * 64 + n)) (4 * (k % 2)) 4) 11 else factorOf (byte (k * 64 + n)) t.fc

/-- KT (R176). -/
def Tile.inputs (t : Tile) : Nat := if t.fc = 11 then 2 * t.rows else t.rows

/-- The bounds of V (R179). -/
def accHigh : Int := 2 ^ 95 - 1

/-- The lower bound of V (R179). -/
def accLow : Int := -(2 ^ 95)

/-- One column: the element after the sum of its products, whether V was clamped, whether NV was raised (R182, R183). -/
def columnSum (t : Tile) (n : Nat) (xs : List Factor) (el : AccElem) : AccElem × Bool × Bool :=
  let r := (xs.zip (List.range xs.length)).foldl (fun (acc : AccKind × Int × Bool) p =>
    let q := mulFactor (t.weight p.2 n) p.1
    let k := addKind acc.1 q.1.kind
    (k.1, acc.2.1 + q.1.v, acc.2.2 || q.2 || k.2)) (el.kind, 0, false)
  if r.1 = .finite then
    let v := el.v + r.2.1
    ({ el with v := clampInt accLow accHigh v }, v < accLow || accHigh < v, r.2.2)
  else ({ el with kind := r.1 }, false, r.2.2)

/-- The combined scale TS x 2^SX as an exact value (R180). -/
def scaleNum (ts : BitVec 32) (sx : Int) : Num :=
  match valueOf ts.toNat 10 32 with
  | .fin neg m e => .fin neg m (e + sx)
  | x => x

/-- Whether a unit and scale match those an accumulator records (R180). -/
def Acc.matchesScale (a : Acc) (q : Int) (ts : BitVec 32) (sx : Int) : Bool :=
  a.empty || (a.q = q && eqNum (scaleNum a.ts a.sx) (scaleNum ts sx))

/-- TVAL of class 12, subcode 7 (R197). -/
def scaleTval (a : Acc) (q : Int) (ts : BitVec 32) (sx : Int) : Word :=
  BitVec.ofNat 64 (lowN a.q 8 + lowN a.sx 8 * 2 ^ 8 + lowN q 8 * 2 ^ 16 + lowN sx 8 * 2 ^ 24 + ts.toNat * 2 ^ 32)

/-- The accumulator that a segment leaves, and the lowest column that raised NV (R182, R183). A poisoned column or segment raises NV
like any other (DESIGN CHOICE, log entry 18). -/
def Acc.multiply (a : Acc) (t : Tile) (xs : List Factor) (bad : Bool) (fca : Nat) (sx : Int) : Acc × Option Nat :=
  let cols := (List.range 64).map (fun n =>
    let el := a.elems.toArray.getD n { v := 0, kind := .finite, poison := false }
    let el := { el with poison := el.poison || bad || t.pcol.getLsbD n }
    if n < t.cols then columnSum t n xs el else (el, false, false))
  let a2 : Acc := { a with
    elems := Vector.ofFn (fun (i : Fin 64) => (cols.getD i.val default).1)
    sat := a.sat || cols.any (fun c => c.2.1)
    empty := false
    q := if a.empty then arrayQ t.fc + arrayQ fca else a.q
    ts := if a.empty then t.scale else a.ts
    sx := if a.empty then sx else a.sx }
  (a2, findIdx (fun c => c.2.2) cols 0)

/-- The checks of a multiply after the row state, and its effect (R180, R182, R183, R187). -/
def multiplyBody (f : Fields) (clear : Bool) (fca : Nat) (sx : Int) (seg : State → Nat → List Factor × Bool) : M Unit := do
  let s ← get
  let c := s.cur
  let t := c.tile (f.b.toNat - 60)
  let n := f.d.toNat - 56
  checkM t.loaded 12 5 (BitVec.ofNat 64 (f.b.toNat - 60))
  checkM (formatsFit t.fc fca) 12 6 (BitVec.ofNat 64 (t.fc + fca * 2 ^ 8))
  let a := if clear then Acc.blank else c.acc n
  let q := arrayQ t.fc + arrayQ fca
  checkM (a.matchesScale q t.scale sx) 12 7 (scaleTval a q t.scale sx)
  let (xs, bad) := seg s t.inputs
  let (a2, nv) := a.multiply t xs bad fca sx
  match nv with
  | none => set (s.setCur (fun c => c.setAcc n a2))
  | some col =>
    match trappingFlag (enabledFlags c.frm) flagNV with
    | some k => trapM 13 k (numericTval col flagNV)
    | none => set (s.setCur (fun c => { c.setAcc n a2 with fflags := c.fflags ||| BitVec.ofNat 64 flagNV }))

/-- Elements `off` to `off + n - 1` of a group, and whether one is poisoned. -/
def segmentOf (g off fca : Nat) (s : State) (n : Nat) : List Factor × Bool :=
  let w := fcWidth fca
  ((List.range n).map (fun i => factorOf (s.elem g (off + i) w) fca),
   (List.range n).any (fun i => s.elemPoisoned g (off + i) w))

/-- mvm and mvmz (R181, R182). -/
def mvmBody (f : Fields) (clear : Bool) : M Unit := do
  matrixOwner
  let fca := f.sub 0 6
  let off := f.sub 6 14
  checkM (tileFormat fca) 12 3 (BitVec.ofNat 64 fca)
  let kt := ((← get).cur.tile (f.b.toNat - 60)).inputs
  checkM (off + kt ≤ 65536 / fcWidth fca && (fca != 11 || off % 2 = 0)) 12 8 (BitVec.ofNat 64 off)
  let g := rowField f.a
  checkRun g 1 false
  replayRun g 1 false (bytesTouch (off * fcWidth fca / 8) (kt * fcWidth fca / 8))
  multiplyBody f clear fca (sextN (f.sub 20 8) 8) (segmentOf g off fca)

/-- MVM (R181-R183). -/
def execMvm (f : Fields) (s : State) : Host.Outcome State Fault Refusal := issue (.mvm f) (runBody (mvmBody f false)) s

/-- MVMZ (R181-R183). -/
def execMvmz (f : Fields) (s : State) : Host.Outcome State Fault Refusal := issue (.mvmz f) (runBody (mvmBody f true)) s

/-! ### Windows -/

/-- Field of `n` bytes at offset `o` of a record. -/
def recNum (r : List Byte) (o n : Nat) : Nat := leValue ((r.drop o).take n)

/-- Output size along one axis (R186). -/
def outSize (size pads dil ker str : Nat) : Int := ((size : Int) + pads - dil * (ker - 1) - 1) / str + 1

/-- Output height of a shape record (R186). -/
def shapeOH (r : List Byte) : Int := outSize (recNum r 0 2) (recNum r 12 1 + recNum r 13 1) (recNum r 10 1) (recNum r 6 1) (recNum r 8 1)

/-- Output width of a shape record (R186). -/
def shapeOW (r : List Byte) : Int := outSize (recNum r 2 2) (recNum r 14 1 + recNum r 15 1) (recNum r 11 1) (recNum r 7 1) (recNum r 9 1)

/-- The first failing field of a shape record (R185, R186): its byte offset, or 0x40 for OH and OW. Of reserved bytes 24-63 it is the
offset of the first that is not zero (DESIGN CHOICE, log entry 18). -/
def shapeFault (r : List Byte) : Option Nat :=
  match [0, 2, 4].find? (fun o => recNum r o 2 = 0) with
  | some o => some o
  | none =>
    match [6, 7, 8, 9, 10, 11].find? (fun o => recNum r o 1 = 0) with
    | some o => some o
    | none =>
      if fld (recNum r 17 1) 0 6 = 11 && 16 ≤ recNum r 16 1 then some 16
      else if !tileFormat (recNum r 17 1) then some 17
      else if recNum r 19 1 != 0 then some 19
      else if recNum r 6 1 * recNum r 7 1 * recNum r 4 2 ≤ recNum r 20 4 then some 20
      else match ((List.range 40).map (· + 24)).find? (fun o => recNum r o 1 != 0) with
        | some o => some o
        | none => if shapeOH r < 1 || shapeOW r < 1 then some 0x40 else none

/-- Bytes of the input tensor (R186). -/
def shapeBytes (r : List Byte) : Nat := ceilDiv (recNum r 0 2 * recNum r 2 2 * recNum r 4 2 * fcWidth (recNum r 17 1)) 8

/-- The input element that place `k` of a window reads (R187): outside the window, outside the input (the pad), or an
element. -/
inductive WindowElt where
  | past
  | pad
  | elt (e : Nat)
  deriving DecidableEq, Repr

/-- Place `k` of window `w` (R187). -/
def windowElt (r : List Byte) (w k : Nat) : WindowElt :=
  let cc := recNum r 4 2
  let kw := recNum r 7 1
  let ow := (shapeOW r).toNat
  let j := recNum r 20 4 + k
  if recNum r 6 1 * kw * cc ≤ j then .past else
  let q := j / cc
  let y : Int := (w / ow * recNum r 8 1 : Nat) - (recNum r 12 1 : Int) + (q / kw * recNum r 10 1 : Nat)
  let x : Int := (w % ow * recNum r 9 1 : Nat) - (recNum r 14 1 : Int) + (q % kw * recNum r 11 1 : Nat)
  if 0 ≤ y && y < recNum r 0 2 && 0 ≤ x && x < recNum r 2 2 then .elt ((y.toNat * recNum r 2 2 + x.toNat) * cc + j % cc) else .pad

/-- The segment of a window (R187) from the run at group `g`, and whether an input byte it reads is poisoned. -/
def windowSegment (r : List Byte) (w g : Nat) (s : State) (n : Nat) : List Factor × Bool :=
  let fca := recNum r 17 1
  let es := (List.range n).map (windowElt r w)
  (es.map (fun x => match x with
    | .past => { kind := .finite, v := 0 }
    | .pad => factorOf (recNum r 16 1) fca
    | .elt e => factorOf (s.elem g e (fcWidth fca)) fca),
   es.any (fun x => match x with
    | .elt e => s.elemPoisoned g e (fcWidth fca)
    | _ => false))

/-- The shape record of mvmw: one 64-byte load of the hart (R184). -/
def shapeRecord (va : Word) : M (List Byte) := do
  checkM (va.toNat % 64 == 0) 3 9 va
  let leaf ← translateM va .read
  if leaf.mt = mtDev then fun s => .error (.trap (12 * 16 + 9) (Config.freeTval s.fresh) (some { s with fresh := s.fresh + 1 }))
  else do
    let (v, _) ← loadM va 64 .read
    pure (leBytes v 64)

/-- MVMW (R184-R187). -/
def execMvmw (f : Fields) (s : State) : Host.Outcome State Fault Refusal :=
  issue (.mvmw f) (runBody (do
    matrixOwner
    let s ← get
    let w := s.reg (BitVec.ofNat 6 (f.sub 0 5))
    let r ← shapeRecord (s.reg (BitVec.ofNat 6 (f.sub 5 5)))
    match shapeFault r with
    | some o => trapM 12 9 (BitVec.ofNat 64 o)
    | none => do
      let g := rowField f.a
      let groups := ceilDiv (shapeBytes r) 8192
      checkM (g + groups ≤ 16) 12 11 (BitVec.ofNat 64 (shapeBytes r))
      checkM (w.toNat < (shapeOH r * shapeOW r).toNat) 12 10 w
      checkRun g groups false
      replayRun g groups false (bytesTouch 0 (shapeBytes r))
      multiplyBody f false (recNum r 17 1) (sextN (recNum r 18 1) 8) (windowSegment r w.toNat g))) s

/-! ### Reading out -/

/-- What acrd makes of element `el` (R189): the code and the flags; a poisoned element raises none (R130). -/
def readElement (a : Acc) (el : AccElem) (fd wd : Nat) (rm : RoundMode) (ov : Bool) : Nat × Nat :=
  let x : Num := match el.kind with
    | .nan => .nan false
    | .posInf => .inf false
    | .negInf => .inf true
    | .finite => if a.empty || el.v = 0 then .zero (rm = 3) else (mulNum (finOf el.v a.q false) (scaleNum a.ts a.sx)).1
  let r := convert x 10 fd wd rm ov
  let atBound := el.kind = .finite && a.sat && (el.v = accLow || el.v = accHigh)
  (r.1, if el.poison then 0 else if atBound then r.2 ||| flagOF ||| flagNX else r.2)

/-- ACRD (R188, R189). OFFSET is checked before the row state and FRM (DESIGN CHOICE, log entry 18). -/
def execAcrd (f : Fields) (s : State) : Host.Outcome State Fault Refusal :=
  issue (.acrd f) (runBody (do
    matrixOwner
    let fd := f.sub 0 6
    let off := f.sub 10 14
    checkM (fcValid fd) 11 0 (BitVec.ofNat 64 f.immN)
    let wd := fcWidth fd
    checkM (off + 64 ≤ 65536 / wd && (wd != 4 || off % 2 = 0)) 12 8 (BitVec.ofNat 64 off)
    let g := rowField f.d
    checkRun g 1 true
    replayRun g 1 true (bytesTouch (off * wd / 8) (64 * wd / 8))
    let c := (← get).cur
    match roundingMode (f.sub 6 3) c.frm with
    | none => trapM 11 9 c.frm
    | some rm => do
      let a := c.acc (f.a.toNat - 56)
      let es : List Elt := (List.range 64).map (fun n =>
        let el := a.elems.toArray.getD n default
        let r := readElement a el fd wd rm (f.sub 9 1 = 1)
        { e := n, v := r.1, flags := r.2, pois := el.poison })
      match trapElt c.frm es with
      | some (x, k) => trapM 13 k (numericTval x.e x.flags)
      | none => finishWhole g 1 wd (es.map (fun x => { x with e := off + x.e })))) s

/-- ACLR (R190). -/
def execAclr (f : Fields) (s : State) : Host.Outcome State Fault Refusal :=
  issue (.aclr f) (runBody (do
    matrixOwner
    modify (fun s => s.setCur (fun c => c.setAcc (f.d.toNat - 56) Acc.blank)))) s

/-- ACKX (R191). -/
def execAckx (f : Fields) (s : State) : Host.Outcome State Fault Refusal :=
  issue (.ackx f) (runBody (do
    matrixOwner
    let c := (← get).cur
    let es := (c.acc (f.a.toNat - 56)).elems.toList
    match findIdx (fun (el : AccElem) => el.kind != .finite) es 0 with
    | some e => trapM 12 12 (BitVec.ofNat 64 e)
    | none =>
      let sum := (es.zip (List.range 64)).foldl (fun (t : Int) p => t + p.1.v * ((if f.sub 2 1 = 1 then p.2 + 1 else 1 : Nat) : Int))
        ((c.ckN (f.sub 0 2)).toNat : Int)
      modify (fun s => s.setCur (fun c =>
        (es.filter (fun el => el.poison)).foldl (fun c _ => { c with pmcnt := satInc c.pmcnt })
          (c.setCk (f.sub 0 2) (BitVec.ofInt 128 sum)))))) s

/-- tstat of a tile (R192). -/
def Ctx.tileStat (c : Ctx) (n : Nat) : Word :=
  let t := c.tile n
  BitVec.ofNat 64 (t.fc + t.rows * 2 ^ 6 + t.cols * 2 ^ 14 + fld (c.tcfgN n).toNat 24 2 * 2 ^ 24 + t.scale.toNat * 2 ^ 32) |||
    boolWord t.loaded <<< 26 ||| boolWord (t.pcol != 0) <<< 27

/-- tstat of an accumulator (R192). -/
def Acc.stat (a : Acc) : Word :=
  let es := a.elems.toList
  let low := boolWord a.empty ||| boolWord a.sat <<< 1 ||| boolWord (es.any (fun e => e.kind != .finite)) <<< 2 |||
    boolWord (es.any (fun e => e.poison)) <<< 3
  if a.empty then low else low ||| BitVec.ofNat 64 (lowN a.q 8 * 2 ^ 16 + lowN a.sx 8 * 2 ^ 24 + a.ts.toNat * 2 ^ 32)

/-- TSTAT (R192). -/
def execTstat (f : Fields) (s : State) : Host.Outcome State Fault Refusal :=
  issue (.tstat f) (runBody (do
    matrixOwner
    modify (fun s => s.setReg f.d
      (if 60 ≤ f.a.toNat then s.cur.tileStat (f.a.toNat - 60) else (s.cur.acc (f.a.toNat - 56)).stat)))) s

end Sys2Proof.Machine
end

