-- ==== Sys2Proof/Machine/Rows.lean ====
section
/-! DEFINITION. Class 2 (R93-R101, R345). -/

namespace Sys2Proof.Machine

/-- act and actn (R96): every check of the run, then the opening of each group. -/
def openBody (f : Fields) (acc : AccKindT) (blank : Bool) : M Unit := do
  let s ← get
  let vg := vgOf s.cur.vcfg
  checkRowAlign f.d vg
  checkClass
  let base := s.reg f.a + immS f <<< 13
  checkM (base.toNat % 8192 == 0) 3 6 base
  (List.range vg).forM (fun i => awaitAccesses (rowField f.d + i))
  let ts ← rowTargets (rowField f.d) base acc vg 0
  ts.forM (fun t => do checkM ((← get).replayOk t.va.toNat 8192 true false || !blank) 19 11 t.va)
  modify (fun s => ts.foldl (fun s t =>
    let s := State.openRow s t.key t.row t.va t.writable blank t.dset
    if blank then s.blankRow t.key t.row else s) s)

/-- A class 2 instruction over the open run that D names (R98). -/
def closeBody (f : Fields) (op : State → Nat → State) : M Unit := do
  let s ← get
  let vg := vgOf s.cur.vcfg
  checkRowAlign f.d vg
  checkClass
  (List.range vg).forM (fun i => checkRow (rowField f.d + i) false)
  modify (fun s => (List.range vg).foldl (fun s i => op s (s.homeKey (rowField f.d + i))) s)

/-- WAITACT of R100. -/
def State.waitAct (s : State) (k : Nat) : Nat :=
  let g := s.group k
  if g.row.isSome then 0 else
  let t := (s.tower (k / 256)).acts.foldl (fun t a =>
    if a.2.1 = k / 16 % 16 ∧ a.2.2 ≠ k % 16 then Nat.max t (s.ends (k / 256) a.1 3000) else t) (s.freeAt k)
  Nat.min 0xFFFF (cyclesOf (t - s.clk) (s.clock (k / 256)))

/-- The value rstat writes (R100). -/
def State.rstatOf (s : State) (k : Nat) : Word :=
  let g := s.group k
  let st := if g.row.isNone then 0 else if g.dirty then 2 else 1
  BitVec.ofNat 64 (st + lowN g.debt 5 * 2 ^ 5 + s.bandOf k * 2 ^ 10 + g.rptr * 2 ^ 12 + s.waitAct k * 2 ^ 32) |||
    boolWord g.forced <<< 2 ||| boolWord g.mc.isSome <<< 3 ||| boolWord (g.row.isSome && g.writable) <<< 4

/-- The value rplace writes (R101). -/
def State.rplaceOf (s : State) (k : Nat) : Word :=
  let g := s.group k
  match g.row with
  | none => 0
  | some r => BitVec.ofNat 64 (k * 1024 + r) ||| boolWord g.writable <<< 62 ||| 1#64 <<< 63

/-- ACT (R96). -/
def execAct (f : Fields) (s : State) : Host.Outcome State Fault Refusal := issue (.act f) (runBody (openBody f .read false)) s

/-- ACTN (R96). -/
def execActn (f : Fields) (s : State) : Host.Outcome State Fault Refusal := issue (.actn f) (runBody (openBody f .write true)) s

/-- WB (R98). -/
def execWb (f : Fields) (s : State) : Host.Outcome State Fault Refusal :=
  issue (.wb f) (runBody (closeBody f State.commitRow)) s

/-- PRE (R98). -/
def execPre (f : Fields) (s : State) : Host.Outcome State Fault Refusal :=
  issue (.pre f) (runBody (closeBody f State.preGroup)) s

/-- PREX (R98). -/
def execPrex (f : Fields) (s : State) : Host.Outcome State Fault Refusal :=
  issue (.prex f) (runBody (closeBody f State.prexGroup)) s

/-- One ref of a group of the home bank (R99): it clears the mark of a forced close, and what such a close still owes comes
first (R104). -/
def State.refHart (s : State) (g : Nat) : State :=
  let k := s.homeKey g
  let s := (s.settleForced k).refreshGroup k
  (s.setGroup k (fun x => { x with forced := false })).setTower (k / 256) (fun w => { w with granted := s.cur.part })

/-- REF (R99). -/
def execRef (f : Fields) (s : State) : Host.Outcome State Fault Refusal :=
  issue (.ref f) (runBody (do
    let vg := vgOf (← get).cur.vcfg
    checkRowAlign f.d vg
    checkClass
    (List.range vg).forM (fun i => do
      let g := rowField f.d + i
      awaitForced g
      awaitAccesses g
      checkM (((← get).homeGroup g).row.isNone) 9 8 (BitVec.ofNat 64 g))
    modify (fun s => (List.range vg).foldl (fun s i => State.refHart s (rowField f.d + i)) s))) s

/-- REFA (R99). -/
def execRefa (f : Fields) (s : State) : Host.Outcome State Fault Refusal :=
  issue (.refa f) (runBody (do
    (List.range 16).forM awaitAccesses
    modify (fun s => (List.range 16).foldl (fun s g => if (s.homeGroup g).row.isSome then s else State.refHart s g) s))) s

/-- RSTAT (R100). -/
def execRstat (f : Fields) (s : State) : Host.Outcome State Fault Refusal :=
  issue (.rstat f) (runBody (do
    awaitForced (rowField f.a)
    modify (fun s => s.setReg f.d (s.rstatOf (s.homeKey (rowField f.a)))))) s

/-- RPLACE (R101). -/
def execRplace (f : Fields) (s : State) : Host.Outcome State Fault Refusal :=
  issue (.rplace f) (runBody (do
    awaitForced (rowField f.a)
    modify (fun s => s.setReg f.d (s.rplaceOf (s.homeKey (rowField f.a)))))) s

end Sys2Proof.Machine
end

