-- ==== Sys2Proof/Machine/Save.lean ====
section
/-! DEFINITION. The save image (R348, R349), the save of a context (R340, R341), its restoration (R343) and the end of a
context (R310, R332, R297): what ctxsave, ctxrst, yield, the regions, the scheduler and every stop share. -/

namespace Sys2Proof.Machine

/-! ### Writing the image -/

/-- Bytes padded with zeros to a length. -/
def padTo (n : Nat) (bs : List Byte) : List Byte := (bs ++ List.replicate n 0).take n

/-- Words as bytes. -/
def wordsLe (ws : List Nat) : List Byte := ws.flatMap (fun w => leBytes w 8)

/-- The 40 words at 0x0140 (R348). -/
def Ctx.imageWords (c : Ctx) : List Nat :=
  [c.vl.toNat, c.vcfg.toNat, c.estart.toNat, c.ctb.toNat, c.fflags.toNat, c.frm.toNat] ++
    (List.range 4).map (fun i => (c.ckN i).toNat % 2 ^ 64) ++ (List.range 4).map (fun i => (c.ckN i).toNat / 2 ^ 64) ++
    [c.pmcnt.toNat] ++ (List.range 4).map (fun i => (c.tcfgN i).toNat) ++
    [c.mown.toNat, c.snext.toNat, c.sfloor.toNat, c.vset.length, c.prio, c.lclass, if c.strict then 1 else 0, c.tstat.toNat,
     c.tcause.toNat, c.tpc.toNat, c.tval.toNat, c.tvec.toNat, c.trec.toNat, c.tscratch.toNat, c.ptroot.toNat, c.ctxsave.toNat] ++
    (List.range 4).map (fun i => (vget c.facc i).toNat) ++ [c.pdeadln]

/-- GANGINFO with the saved active stack in [25:18], the bit pushed first lowest (R348). -/
def Ctx.gangWord (c : Ctx) : Nat :=
  match c.gang with
  | none => 0
  | some g => c.ganginfo.toNat + ((g.stack.reverse.zip (List.range 8)).map (fun p => if p.1 then 2 ^ (18 + p.2) else 0)).foldl (· + ·) 0

/-- The barad record that a save writes (R288): that of the resume address, else that of the address a trap interrupted. -/
def Ctx.savedArrival (c : Ctx) (pc : Word) : Option Arrival :=
  match c.barad.find? (fun r => r.pc == pc && r.tl == c.tl) with
  | some r => some r
  | none => c.barad.find? (fun r => c.tl && !r.tl && r.pc == c.tpc)

/-- The wait key and the wait word (R348, R288): a barad record is written as kind barad with g, with key 0 where Cirque holds no
entry for it. -/
def Ctx.waitWords (c : Ctx) (pc : Word) : List Nat :=
  match c.savedArrival pc with
  | some r =>
    [match c.entryOf with
      | some w => if w.kind = .barad then w.obj.word else 0
      | none => 0, 2 + r.gen.toNat * 2 ^ 32]
  | none => match c.entryOf with
    | some w => [w.obj.word, w.kind.num]
    | none => [0, 15]

/-- An accumulator's 64 elements (R348). -/
def Acc.image (a : Acc) : List Byte := a.elems.toList.flatMap (fun e =>
  leBytes (lowN e.v 96) 12 ++ leBytes ((match e.kind with
    | .finite => 0
    | .posInf => 1
    | .negInf => 2
    | .nan => 3) + (if e.poison then 4 else 0)) 4)

/-- The lines of a publication list, in order (R244). -/
def Ctx.pubLines (c : Ctx) : List Nat := (c.pubs.map (fun e => e.1)).eraseDups

/-- The open-row table of the home bank (R349). -/
def State.openTable (s : State) : List Nat := (List.range 16).flatMap (fun g =>
  let gr := s.homeGroup g
  if gr.row.isSome then [gr.va.toNat / 8192 * 8192 + 1 + (if gr.writable then 2 else 0), (s.rplaceOf (s.homeKey g)).toNat]
  else [if gr.forced then 4 else 0, 0])

/-- The 32,768 bytes of an image before the tiles, with CSUM 0. `rows` is the open-row table taken before the rows closed. -/
def State.imageHead (s : State) (rows : List Nat) (pc : Word) (forced held y : Bool) : List Byte :=
  let c := s.cur
  let flag := fun (b : Bool) (i : Nat) => if b then 2 ^ i else 0
  let w0 := 1 + flag c.beacons.isEmpty 16 + flag forced 17 + flag held 18 + flag y 19 + flag c.tl 20 + flag c.gang.isSome 21 + s.devId * 2 ^ 32
  let place := if c.kind = .tower then c.place else 0xFFFF
  wordsLe [w0, c.reqid, c.launch.toNat, pc.toNat, c.skip.toNat, s.time.toNat, place, 0] ++
    padTo 256 (wordsLe ((List.range 32).map (fun i => if i = 0 then 0 else (c.reg (BitVec.ofNat 6 i)).toNat))) ++
    padTo 320 (wordsLe c.imageWords) ++
    padTo 48 (wordsLe ([c.home, c.gangWord] ++ c.waitWords pc ++ [c.pubLines.length + c.pend.length * 2 ^ 16])) ++
    padTo 32 (wordsLe ((List.range 4).map (fun n => (c.tileStat n).toNat))) ++
    padTo 48 (wordsLe ((List.range 4).map (fun n => ((c.acc n).stat).toNat))) ++
    padTo 128 (wordsLe (c.vset.flatMap (fun e => [e.1.toNat * 128 % 2 ^ 64, e.2.2]))) ++
    padTo 128 (wordsLe ((List.range 4).map (fun n => (c.tile n).pcol.toNat))) ++
    padTo 1024 (wordsLe rows) ++
    padTo 2048 (wordsLe (c.pend.flatMap (fun p => [p.code, p.tval.toNat]))) ++
    padTo 4096 ((List.range 4).flatMap (fun n => (c.acc n).image)) ++
    padTo 8192 ((List.range 8).flatMap (fun k => leBytes (c.masks[k % 8]'(Nat.mod_lt _ (by decide))).toNat 1024)) ++
    leBytes c.poisonMask.toNat 1024 ++
    padTo 15360 (wordsLe (c.pubLines.map (· * 128)))

/-- The sum of the 8-byte words of a list (R349, CSUM). -/
def wordSum : List Byte → Nat
  | a :: b :: c :: d :: e :: f :: g :: h :: r => leValue [a, b, c, d, e, f, g, h] + wordSum r
  | _ => 0

/-- The leaves of the 16 pages of an image, or none where one faults. -/
def State.imageLeaves (s : State) (va : Word) (acc : AccKindT) : Nat → Option (List Leaf × State)
  | 0 => some ([], s)
  | n + 1 =>
    match s.translate (va + BitVec.ofNat 64 (4096 * (16 - (n + 1)))) acc with
    | .error _ => none
    | .ok (l, t) =>
      if l.mt = mtDev then none else
      match t.imageLeaves va acc n with
      | some (ls, u) => some (l :: ls, u)
      | none => none

/-- Brings the pages of an image to their sense amplifiers, for the stores of a save or the reads of a resume (R31); `error` holds
the state in which the first access that finds another row open waits. -/
def State.serveImage (s : State) (write : Bool) : List Leaf → Except State State
  | [] => .ok s
  | l :: ls =>
    if l.mt = mtRow then
      match s.rowServe l.pa write with
      | some t => t.serveImage write ls
      | none => .error (s.rowJoin l.pa (hartWaiter s.cur.reqid))
    else s.serveImage write ls

/-- What became of the stores of a save. -/
inductive ImageWritten where
  | fault
  | waits (s : State)
  | ok (s : State)

/-- Writes the image of the current context (R341 step 5, R348). -/
def State.writeImage (s : State) (head : List Byte) : ImageWritten :=
  match s.imageLeaves s.cur.ctxsave .write 16 with
  | none => .fault
  | some (ls, s0) =>
    if ls.any (fun l => s0.unpublished s0.cur.reqid l 4096) then .fault else
    match s0.serveImage true ls with
    | .error t => .waits t
    | .ok s1 =>
    let tiles := (List.range 8).map (fun h =>
      let t := s1.cur.tile (h / 2)
      let n := if t.loaded then Nat.min 4096 (t.rows * 64 - 4096 * (h % 2)) else 0
      ((leBytes (t.wt.toNat / 2 ^ (8 * 4096 * (h % 2))) n) : List Byte))
    let kept := ((ls.drop 8).zip tiles).map (fun p => p.2 ++ s1.bytes (p.1.pa + p.2.length) (4096 - p.2.length))
    let sum := (wordSum head + (kept.map wordSum).foldl (· + ·) 0) % 2 ^ 64
    let full := head.take 0x38 ++ leBytes (2 ^ 64 - sum) 8 ++ head.drop 0x40
    let pieces := (List.range 8).map (fun i => (full.drop (4096 * i)).take 4096) ++ tiles
    .ok ((ls.zip pieces).foldl (fun t p =>
      if p.2.isEmpty then t else State.writePhys t (some t.cur.reqid) 64 p.1 p.2) s1)

/-! ### The save -/

/-- Whether the word at the program counter is a blocking wait (R291). -/
def State.atBlockingWait (s : State) : Bool :=
  match decodeWord (s.wordAt s.cur.pc) with
  | .semt _ => true
  | .lkw _ => true
  | .qwait _ => true
  | .barw _ => true
  | .barad _ => true
  | .jrecv _ => true
  | _ => false

/-- Performs every transfer of the current context that needs no other device (R341 step 2). -/
def State.performLocals (s : State) : State := s.cur.transfers.foldl (fun s t => State.performTransfer s t.tag) s

/-- Commits and closes the rows of the home bank; exposures and the transpose tile go (R341 step 3). -/
def State.leaveBank (s : State) : State :=
  if s.cur.kind != .tower then s else
  let s := (List.range 16).foldl (fun s g =>
    let k := State.homeKey s g
    (if (s.group k).row.isSome then s.preGroup k else s).setGroup k (fun g => { g with forced := false })) s
  s.setTower s.cur.place (fun w => { w with
    left := w.left.put s.cur.home s.clk
    exposures := w.exposures.filter (fun e => e.owner != s.cur.reqid),
    tpHolder := if w.tpHolder = some s.cur.reqid then none else w.tpHolder })

/-- The context as it stands once its image is written (R341 step 6). -/
def Ctx.parked (c : Ctx) (pc : Word) (held : Bool) (now order : Nat) : Ctx :=
  { c with
    run := if held then .held else .saved, pc := pc, preq := false, pdeadln := 0, pdeadFrac := 0, wantHeld := false, readySince := now, readyOrder := order,
    pend := c.pend.filter (fun p => p.code / 16 != 10) }

/-- The save or the end of the current context ends its hold of its island (R393): level 7 goes once no other context holds it. -/
def State.endRegionHold (s : State) : State :=
  let n := islandOf s.cur.place
  if !s.cur.regionHold then s else
  let t := s.setCur (fun c => { c with regionHold := false })
  if t.live.any (fun c => c.regionHold && islandOf c.place = n) then t
  else t.putHold7 n (fun i => { i with hold7Region := false }) (t.towersAbove n 1680) (t.islandBand3 n)

/-- The current context as its image is about to be written (R341 steps 1 to 4): its transfers performed, its stores visible, its rows
closed. A request abandons its wait, after which it is ready; one that is only moved out of its partition stays blocked (R291, R318). -/
def State.unloaded (s0 : State) : State :=
  let s := s0.performLocals.fenceStores
  let waits := s.cur.blocked && s.atBlockingWait && !s.cur.preq
  s.leaveBank.setCur (fun c => { c with blocked := waits, drain := [], lwait := none, pend := c.pend.filter (fun p => p.code / 16 != 10), npr := none })

/-- Saves the current context with its resume address (R341). It stays in the state of `error` while a tag is outstanding, or while
a store of its image waits for a group that holds another row (R31). An image that cannot be written retires the hart (R332). -/
def State.saveCur (pc : Word) (forced held y : Bool) (s0 : State) : Except State State :=
  let s := s0.performLocals.fenceStores
  if s.cur.transfers.any (fun t => !t.failed) then .error s0 else
  let held := held || s.cur.wantHeld
  let rows := if s.cur.kind = .tower then s.openTable else []
  let s := s0.unloaded
  match s.writeImage (s.imageHead rows pc forced held y) with
  | .fault => .ok (s.setCur (fun c => c.end_ { cause := 0x149, exit := 0, failed := true, cancel := false, replay := false }))
  | .waits t => .error (s0.arrived t)
  | .ok t => .ok (((t.rowForget t.cur.reqid).setCur (fun c => c.parked pc held t.clk t.nextReady)).endRegionHold)

/-- The state that a save leaves, made or not. -/
def savedOr (r : Except State State) : State :=
  match r with
  | .ok t => t
  | .error t => t

/-- Whether the current context can be saved as regions go: neither it nor a member of its gang is inside one, for the members are
saved together and none inside a region (R339, R347). -/
def State.mayStop (s : State) : Bool :=
  s.cur.npr.isNone && (s.cur.gang.isNone ||
    !(s.live.any (fun c => c.gang.isSome && c.launch = s.cur.launch && c.run != .ended && c.npr.isSome)))

/-- Saves every member of the current context's gang, or the context alone (R339). While one has to wait, or is inside a
non-preemptible region (R347), none is saved. -/
def State.saveAll (pc : Word) (forced held y : Bool) (s : State) : Except State State :=
  match s.cur.gang with
  | none => s.saveCur pc forced held y
  | some _ =>
    let me := s.cur.reqid
    let members := s.live.filter (fun c => c.gang.isSome && c.launch = s.cur.launch && c.run = .running)
    if !s.mayStop then .error s else
    match members.foldl (fun (r : Except State State) c => match r with
      | .error t => .error t
      | .ok t => (t.switchTo c.reqid).saveCur pc forced held y) (.ok s) with
    | .ok t => .ok (t.switchTo me)
    | .error t => .error (s.arrived t)

/-- A pre-emption point of the current context (R339): saved with a resume address, or it stays until it can be. -/
def savePoint (pc : Word) (s : State) : Res := .stay (savedOr (s.saveAll pc false false false))

/-! ### Reading the image -/

/-- A number in an image. -/
def imgNum (img : List Byte) (off n : Nat) : Nat := leValue ((img.drop off).take n)

/-- A word in an image as a register. -/
def imgWord (img : List Byte) (off : Nat) : Word := BitVec.ofNat 64 (imgNum img off 8)

/-- Word `i` of the 40 at 0x0140. -/
def imgReg (img : List Byte) (i : Nat) : Word := imgWord img (0x140 + 8 * i)

/-- What a read of an image found: its bytes, and whether one of them is poisoned; or that it waits (R31). -/
inductive ImageRead where
  | fault (code : Nat) (va : Word)
  | waits (s : State)
  | ok (img : List Byte) (bad : Bool) (s : State)

/-- The bytes of an image, page by page (R33). -/
def State.imageBytes (s : State) : List Leaf → List Byte × State
  | [] => ([], s)
  | l :: ls =>
    let (bs, t) := s.readPhys l 4096
    let (rest, u) := t.imageBytes ls
    (bs ++ rest, u)

/-- Reads an image by pages as the current context. -/
def State.readImage (s : State) (va : Word) : ImageRead :=
  match s.imageLeaves va .read 16 with
  | none =>
    match (List.range 16).find? (fun i => match s.translate (va + BitVec.ofNat 64 (4096 * i)) .read with
      | .ok (l, _) => l.mt = mtDev
      | .error _ => true) with
    | some i => match s.translate (va + BitVec.ofNat 64 (4096 * i)) .read with
      | .error c => .fault c (va + BitVec.ofNat 64 (4096 * i))
      | .ok _ => .fault (20 * 16 + 5) va
    | none => .fault (20 * 16 + 5) va
  | some (ls, t0) =>
    match t0.serveImage false ls with
    | .error t => .waits t
    | .ok t =>
      let (img, u) := t.imageBytes ls
      .ok img (ls.any (fun l => poisoned t.poison l.pa 4096)) u

/-- Whether a byte above byte 12 of one of the 16-byte elements of the accumulators is not zero (R348). -/
def elemsReserved (bs : List Byte) : Bool := (bs.zip (List.range bs.length)).any (fun p => 12 < p.2 % 16 && p.1 != 0)

/-- The offsets whose bytes R348 reserves. -/
def imageReserved (img : List Byte) : Bool :=
  let set_ := fun (lo n : Nat) => ((img.drop lo).take n).any (fun b => b != 0)
  set_ 0x06 2 || set_ 0x21 7 || set_ 0x281 7 || set_ 0x299 3 || set_ 0x2A3 5 || set_ 0x2A8 8 || set_ 0x2F0 16 || set_ 0x3A0 96 || set_ 0x500 0x300 || set_ 0x4C00 0x3400 ||
    elemsReserved ((img.drop 0x1000).take 0x1000)

/-- Whether an image is valid (R351 check 1). -/
def imageValid (img : List Byte) : Bool := imgNum img 0 2 = 1 && wordSum img % 2 ^ 64 = 0 && !imageReserved img

/-- Tile `n` of an image: rows at or above ROWS load as zero; an empty or released tile is empty (R173, R348). -/
def imgTile (img : List Byte) (n : Nat) : Tile :=
  let st := imgNum img (0x2B0 + 8 * n) 8
  if !bitAt st 26 || fld st 24 2 = 0 then Tile.blank else
  let rows := fld st 6 8
  { wt := BitVec.ofNat 65536 (leValue ((img.drop (0x8000 + 8192 * n)).take (64 * rows))), loaded := true, fc := fld st 0 6, rows := rows
    cols := fld st 14 7, scale := BitVec.ofNat 32 (fld st 32 32), pcol := imgWord img (0x380 + 8 * n) }

/-- Element `i` of accumulator `n` of an image. -/
def imgElem (img : List Byte) (n i : Nat) : AccElem :=
  let a := 0x1000 + 1024 * n + 16 * i
  let k := imgNum img (a + 12) 1
  { v := sextN (imgNum img a 12) 96
    kind := match k % 4 with
      | 0 => .finite
      | 1 => .posInf
      | 2 => .negInf
      | _ => .nan
    poison := bitAt k 2 }

/-- Accumulator `n` of an image. -/
def imgAcc (img : List Byte) (n : Nat) : Acc :=
  let st := imgNum img (0x2D0 + 8 * n) 8
  { elems := Vector.ofFn (fun (i : Fin 64) => imgElem img n i.val), empty := bitAt st 0, sat := bitAt st 1, q := sextN (fld st 16 8) 8
    ts := BitVec.ofNat 32 (fld st 32 32), sx := sextN (fld st 24 8) 8 }

/-- The resume PC of an image. PC holds a multiple of 8 (R40): the low 3 bits of the word are ignored (DESIGN CHOICE, log entry 22). -/
def imgPc (img : List Byte) : Word := imgWord img 0x18 &&& ~~~7#64

/-- The gang place of an image (R317, R348). DEPTH 8 reads as 0 in its 3 bits; `old` is the place that the context kept, with what it
keeps of R313 and R316. -/
def imgGang (img : List Byte) (old : Option Gang) : Option Gang :=
  let w := imgNum img 0x288 8
  let depth := if fld w 15 3 = 0 ∧ old.any (fun g => g.stack.length = 8) then 8 else fld w 15 3
  if !bitAt w 0 then none else
  some { index := fld w 1 6, count := fld w 7 7, active := bitAt w 14, done := old.bind (fun g => g.done), kept := old.bind (fun g => g.kept)
         stack := ((List.range depth).map (fun i => bitAt w (18 + i))).reverse }

/-- Every register of an image in a context (R343); what the requester table, the work table and Cirque keep is the
context's. VCFG is installed by its layout and VL lowered to the VLMAX that the restored context has, so that R118's VL ≤ VLMAX stands,
and PDEADLN is the image's even where a request reached the saved context, whose REQ stays (DESIGN CHOICE, log entry 22). -/
def Ctx.fromImage (c : Ctx) (img : List Byte) : Ctx :=
  let t := (imgReg img 26).toNat
  Ctx.clampVl { c with
    pc := imgPc img, skip := BitVec.ofNat 2 (imgNum img 0x20 1), home := imgNum img 0x280 1 % 16, gang := imgGang img c.gang,
    regs := Vector.ofFn (fun (i : Fin 32) => if i.val = 0 then 0 else imgWord img (0x40 + 8 * i.val)),
    vl := imgReg img 0, vcfg := vcfgLayout (imgReg img 1), estart := imgReg img 2, ctb := imgReg img 3, ctbDone := c.ctbDone &&& imgReg img 3, fflags := imgReg img 4, frm := imgReg img 5,
    ck := Vector.ofFn (fun (i : Fin 4) => imgReg img (10 + i.val) ++ imgReg img (6 + i.val)),
    pmcnt := imgReg img 14, tcfg := Vector.ofFn (fun (i : Fin 4) => imgReg img (15 + i.val)), mownEn := (imgReg img 19).getLsbD 0,
    prio := fld (imgReg img 23).toNat 0 3, lclass := fld (imgReg img 24).toNat 0 2, strict := (imgReg img 25).getLsbD 0,
    pm := bitAt t 0, tl := bitAt t 1, half := bitAt t 3, hv := bitAt t 4, hdone := BitVec.ofNat 2 (t / 32), async := bitAt t 7, sup := bitAt t 9,
    npr := none, tcause := imgReg img 27, tpc := imgReg img 28, tval := imgReg img 29, tvec := imgReg img 30, trec := imgReg img 31,
    tscratch := imgReg img 32, ptroot := imgReg img 33, ctxsave := imgReg img 34,
    facc := Vector.ofFn (fun (i : Fin 4) => imgReg img (35 + i.val)),
    pdeadln := fld (imgReg img 39).toNat 0 32, pdeadFrac := 0
    masks := Vector.ofFn (fun (k : Fin 8) => BitVec.ofNat 8192 (imgNum img (0x2000 + 1024 * k.val) 1024)),
    poisonMask := BitVec.ofNat 8192 (imgNum img 0x4000 1024),
    tiles := Vector.ofFn (fun (n : Fin 4) => imgTile img n.val), accs := Vector.ofFn (fun (n : Fin 4) => imgAcc img n.val) }

/-- Bytes 72-79 of the record of a restored trap of which the context kept nothing: a tag and an owner for class 15 (R265), whose
values the image does not hold. -/
def freeExtra (code : Nat) (w : Word) : Word := if code / 16 = 15 then w &&& 0x1FFF3F else 0

/-- Traps of an image as code and TVAL, each with the first one that the context kept of the same code and TVAL and that no earlier one
has taken (R265, R331); `free` gives what it kept nothing of. -/
def matchPend (free : Nat → Word) : List (Nat × Word) → List Pending → Nat → List Pending
  | [], _, _ => []
  | p :: ps, kept, i =>
    match kept.find? (fun q => q.code == p.1 && q.tval == p.2) with
    | some q => q :: matchPend free ps (kept.erase q) (i + 1)
    | none => { code := p.1, tval := p.2, extra := freeExtra p.1 (free i) } :: matchPend free ps kept (i + 1)

/-- The pending traps of an image, oldest first, with what the context kept beside them (R331), then those that came after the save. -/
def Ctx.imgPend (c : Ctx) (img : List Byte) (fresh : Nat) : List Pending :=
  let n := imgNum img 0x2A2 1
  matchPend (fun i => Config.freeTval (fresh + i))
    ((List.range n).map (fun i => (imgNum img (0x800 + 16 * i) 8, imgWord img (0x808 + 16 * i)))) (c.pend.take n) 0 ++ c.pend.drop n

/-- The publication list of an image; a line the context kept keeps the tags it waits for (R243, R244). -/
def Ctx.imgPubs (c : Ctx) (img : List Byte) : List (Nat × Nat) :=
  ((List.range (imgNum img 0x2A0 2 % 512)).map (fun i => imgNum img (0x4400 + 8 * i) 8 / 128)).eraseDups.flatMap (fun l =>
    let own := c.pubs.filter (fun e => e.1 == l)
    if own.isEmpty then [(l, 64)] else own)

/-- The validation set of an image for the current context, its lines translated again (R249, R343). -/
def State.imgVset (s : State) (img : List Byte) : List (Word × Nat × Nat) :=
  (List.range (Nat.min 8 (imgReg img 22).toNat)).map (fun i =>
    let va := imgWord img (0x300 + 16 * i)
    let line := match s.translate va .read with
      | .ok (l, _) => l.pa / 128
      | .error _ => 2 ^ 41
    (va >>> 7, line, imgNum img (0x308 + 16 * i) 8))

/-- The lists of an image that live partly outside the registers: pending traps, publications, validation set. -/
def State.restoreLists (s : State) (img : List Byte) : State :=
  let s := { s.setCur (fun c => { c with pend := c.imgPend img s.fresh, pubs := c.imgPubs img }) with fresh := s.fresh + imgNum img 0x2A2 1 }
  let s := s.setCur (fun c => { c with vset := s.imgVset img })
  let id := s.cur.reqid
  s.setHub (fun h => { h with published := h.published.filter (fun e => e.2 != id) ++ s.cur.pubLines.map (fun l => (l, id)) })

/-- The first words of the open-row table of an image. -/
def imgRows (img : List Byte) : List Nat := (List.range 16).map (fun g => imgNum img (0x400 + 16 * g) 8)

/-- Reopens group `g` of the home bank from its word of the open-row table (R349, R111). -/
def State.reopenRow (s : State) (g w : Nat) : State :=
  let k := s.homeKey g
  if bitAt w 0 then
    let va := BitVec.ofNat 64 (w / 8192 * 8192)
    match rowTarget g va .read s with
    | .ok (t, s2) => s2.openRow t.key t.row va (bitAt w 1) false t.dset
    | .error _ => s.setGroup k (fun g => { g with forced := true })
  else s.setGroup k (fun g => { g with forced := bitAt w 2 })

/-- Class 10 traps re-armed from the debts of the home bank (R343, R109): those whose level the debt stands at or above. -/
def State.rearmRefresh (s : State) : State :=
  (List.range 16).foldl (fun s g =>
    let k := State.homeKey s g
    let d := (s.group k).debt
    let s := if 6 ≤ d then s.pendRefresh k 0 else s
    if 8 ≤ d then s.pendRefresh k 1 else s) s

/-- The rows and the refresh of the new home bank (R349, R343). -/
def State.enterBank (s : State) (rows : List Nat) : State :=
  if s.cur.kind != .tower then s
  else ((rows.zip (List.range 16)).foldl (fun s p => State.reopenRow s p.2 p.1) s).rearmRefresh

/-- Restores the current context from its image and lets it run in a partition (R343). A poisoned image retires it (R356); one
that cannot be read leaves it saved. -/
def State.resumeCur (s : State) (part : Nat) : State :=
  match s.readImage s.cur.ctxsave with
  | .fault _ _ => s
  | .waits t => s.arrived t
  | .ok img bad t =>
    if bad then takeTrap (21 * 16 + 4) s.cur.ctxsave {} s else
    let t := if t.cur.kind = .tower then t.takeBank t.cur.place (imgNum img 0x280 1 % 16) else t
    let t := t.setCur (fun c => { c.fromImage img with run := .running, part := part, runSince := t.clk, migrate := none })
    (t.restoreLists img).enterBank (imgRows img)

/-! ### The end of a context -/

/-- A context's wait on a device barrier that is destroyed ends (R284): one that blocks traps when it runs on (R287). A wait whose
generation has ended is over already. -/
def Ctx.loseBarrier (c : Ctx) (id now order : Nat) : Ctx :=
  if !c.wokenUp && (c.waitsOn .barw { cls := 2, key := id } || c.waitsOn .barad { cls := 2, key := id }) then
    Ctx.readied { c with wait := none, blocked := false, gone := if c.blocked then some id else c.gone } now order
  else c

/-- Destroys a device barrier (R284). -/
def State.destroyBarrier (s : State) (id : Nat) : State :=
  let s := s.mapAll (fun c => if c.run = .ended then c else c.loseBarrier id s.clk s.nextReady)
  s.setHub (fun h => { h with barriers := h.barriers.filter (fun b => b.id != id) })

end Sys2Proof.Machine
end

