-- ==== Sys2Proof/Machine/Work.lean ====
section
/-! DEFINITION. The work hierarchy (R302-R309, R312): the work table, launch records and their checks, admission, completion,
cancellation and the status that lwait returns; the accounting of harts that end (R310, R311, R354). -/

namespace Sys2Proof.Machine

/-! ### Entities -/

/-- The LAUNCHID cut to a level: 0 launch, 1 graph, 2 phase, 3 job (R302). -/
def levelKey (level : Nat) (id : Word) : Word := (id >>> (16 * level)) <<< (16 * level)

/-- An entity above a launch. -/
def State.entity (s : State) (level : Nat) (id : Word) : Option Entity :=
  s.hub.entities.find? (fun e => e.level == level && e.key == levelKey level id)

/-- A launch, live or retained. -/
def State.launch (s : State) (id : Word) : Option Launch := s.hub.launches.find? (fun l => l.id == id)

/-- Changes a launch. -/
def State.setLaunch (s : State) (id : Word) (f : Launch → Launch) : State :=
  s.setHub (fun h => { h with launches := h.launches.map (fun l => if l.id = id then f l else l) })

/-- Changes the entities that pass a test. -/
def State.setEntities (s : State) (p : Entity → Bool) (f : Entity → Entity) : State :=
  s.setHub (fun h => { h with entities := h.entities.map (fun e => if p e then f e else e) })

/-- Of two codes with their places in the hub's order, the first that is not zero (R304). -/
def firstCode (x y : Nat × Nat) : Nat × Nat := if y.1 = 0 then x else if x.1 = 0 || y.2 < x.2 then y else x

/-- Records status bits, a cause and an exit code in a launch, next in the hub's order (R304). -/
def State.recordStatus (s : State) (id : Word) (bits cause exit : Nat) : State :=
  let n := s.hub.codes + 1
  (s.setHub (fun h => { h with codes := n })).setLaunch id (fun l =>
    let c := firstCode (l.cause, l.causeAt) (cause, n)
    let e := firstCode (l.exit, l.exitAt) (exit, n)
    { l with bits := l.bits ||| bits, cause := c.1, causeAt := c.2, exit := e.1, exitAt := e.2 })

/-- The status of a completed launch enters the entities above it (R304). -/
def State.foldStatus (s : State) (l : Launch) : State :=
  s.setEntities (fun e => e.key == levelKey e.level l.id) (fun e =>
    let c := firstCode (e.cause, e.causeAt) (l.cause, l.causeAt)
    let x := firstCode (e.exit, e.exitAt) (l.exit, l.exitAt)
    { e with bits := e.bits ||| l.bits, cause := c.1, causeAt := c.2, exit := x.1, exitAt := x.2 })

/-- Whether everything directly below an entity has completed (R303). -/
def State.childrenDone (s : State) (e : Entity) : Bool :=
  if e.level = 1 then s.hub.launches.all (fun l => !(levelKey 1 l.id == e.key) || l.phase == 2)
  else s.hub.entities.all (fun x => !(x.level + 1 == e.level && levelKey e.level x.key == e.key) || x.done)

/-- The status word (R304). -/
def statusWord (done : Bool) (bits cause exit : Nat) : Word :=
  BitVec.ofNat 64 ((if done then 1 else 0) + bits % 16 / 2 * 2 + fld cause 0 9 * 2 ^ 16 + fld exit 0 16 * 2 ^ 32)

/-- A hart that waits in lwait for an entity keeps the status with which it completes, though the entity may be freed (R308). -/
def State.tellWaiters (s : State) (level : Nat) (key w : Word) : State :=
  s.mapAll (fun c => if c.lwait = some (level, key, none) then { c with lwait := some (level, key, some w), lwaitFreed := false } else c)

/-- Completes the closed entities of a level, and drops what they retained below them (R303). Job 0 never completes (R418). -/
def State.completeLevel (s : State) (level : Nat) : State :=
  let now := s.hub.entities.filter (fun e =>
    e.level == level && e.closed && !e.done && !(level == 3 && e.key == 0) && s.childrenDone e)
  let hit := fun (lv : Nat) (key : Word) => now.any (fun e => levelKey lv key == e.key)
  if now.isEmpty then s else
  let s := now.foldl (fun s e => State.tellWaiters s e.level e.key (statusWord true e.bits e.cause e.exit)) s
  s.setHub (fun h => { h with
    launches := if level = 1 then h.launches.filter (fun l => !hit 1 l.id) else h.launches,
    entities := (h.entities.filter (fun e => !(e.level + 1 == level && hit level e.key))).map (fun e =>
      if e.level == level && hit level e.key then { e with done := true } else e) })

/-- What the work table makes of a completion or a closing (R303). -/
def State.settleWork (s : State) : State := ((s.completeLevel 1).completeLevel 2).completeLevel 3

/-- BAR0-BAR3 of a record (R305). -/
def Launch.bars (l : Launch) : List Nat := (List.range (fld l.ctrl 20 3)).map (fun j => l.num (128 + 8 * j) 8)

/-- A launch completes (R303): its status enters the table, its barriers are destroyed (R284), its log is freed (R353). -/
def State.completeLaunch (s : State) (id : Word) : State :=
  match s.launch id with
  | none => s
  | some l =>
    if l.phase = 2 then s else
    let used := ((l.logs.flatMap (fun p => p.2)).map (fun e => e.value.length + 16)).foldl (· + ·) 0
    let s := s.setLaunch id (fun l => { l with phase := 2, logs := [] })
    let s := s.setHub (fun h => { h with recUsed := h.recUsed - used })
    let s := (s.hub.barriers.filter (fun b => b.creator == id)).foldl (fun s b => State.destroyBarrier s b.id) s
    ((s.foldStatus l).tellWaiters 0 id (statusWord true l.bits l.cause l.exit)).settleWork

/-- A replay after an integrity failure (R354): once its harts have ended the launch is ready again, or after the third failure
complete. -/
def State.replayAgain (s : State) (l : Launch) : State :=
  let s := s.setLaunch l.id (fun l => { l with replaying := false })
  if 2 ≤ l.replays then (s.recordStatus l.id 4 0x156 0).completeLaunch l.id
  else
    let s := (s.hub.barriers.filter (fun b => b.creator == l.id)).foldl (fun s b => State.destroyBarrier s b.id) s
    s.setLaunch l.id (fun l => { l with phase := 0, bits := 8, cause := 0, exit := 0, causeAt := 0, exitAt := 0, ended := 0, replays := l.replays + 1 })

/-- A hart of a launch has ended (R310, R311, R332). -/
def State.accountEnd (s : State) (c : Ctx) (e : Ending) : State :=
  match s.launchOf c with
  | none => s
  | some _ =>
    let bits := (if e.failed then 4 else 0) + (if e.cancel then 2 else 0)
    let s := if e.replay then s else s.recordStatus c.launch bits e.cause e.exit
    let s := s.setLaunch c.launch (fun l => { l with ended := l.ended + 1, logs := l.logs.put c.rank (c.recorded ++ c.replay) })
    match s.launch c.launch with
    | none => s
    | some l => if l.ended < l.harts then s else if l.replaying then s.replayAgain l else s.completeLaunch l.id

/-! ### The end of a context -/

/-- The end of the current context once nothing of it is outstanding (R310 steps 3 to 5, R244, R297, R393). -/
def State.finishEnd (s : State) (e : Ending) : State :=
  let s := if s.cur.run = .running then s.leaveBank else s
  let id := s.cur.reqid
  let s := (((s.rowForget id).publish id (fun _ => true)).endHolds id).endRegionHold
  (s.accountEnd s.cur e).setCur (fun c => { c with run := .ended })

/-- One turn of the end of the current context (R310): tags, rsync, then the end. An owner that answers no beacon is given up,
since an ending context takes no trap. -/
def State.endStep (s : State) : State :=
  match s.cur.ending with
  | none => s
  | some e =>
    let s := s.performLocals
    if s.cur.transfers.any (fun t => !t.failed) then s
    else if s.cur.beacons.isEmpty then s.finishEnd e
    else match s.cur.drainFailed s.clk with
      | some owner =>
        s.setCur (fun c => { c with beacons := c.beacons.filter (fun b => b.1 != owner), drain := c.drain.filter (fun d => d.1 != owner) })
      | none => s.startDrain

/-- Begins the end of the current context and takes its first turn. -/
def State.beginEnd (s : State) (e : Ending) : State := (s.setCur (fun c => c.end_ e)).endStep

/-- CAUSE and bits of a cancelled hart (R309, R310). -/
def Ending.cancelled : Ending := { cause := 0x130, exit := 0, failed := false, cancel := true, replay := false }

/-- Of a hart that a replay ends (R354). -/
def Ending.replayed : Ending := { cause := 0x156, exit := 0, failed := false, cancel := false, replay := true }

/-- The end of a context that is cancelled: by lcancel (R309), or for the replay of its launch (R354). -/
def State.stopEnding (s : State) (c : Ctx) : Ending :=
  match s.launchOf c with
  | some l => if l.replaying then .replayed else .cancelled
  | none => .cancelled

/-- HEXIT (R311); the context ends in this turn or in later ones. -/
def execHexit (f : Fields) (s : State) : Host.Outcome State Fault Refusal :=
  issue (.hexit f) (fun s =>
    let code := fld (s.reg f.a).toNat 0 16
    .stay (s.beginEnd { cause := 0, exit := code, failed := code != 0, cancel := false, replay := false })) s

/-- Whether a context is cancelled and may stop now: not inside a region (R310, R347). -/
def Ctx.stops (c : Ctx) : Bool := c.cancelled && c.npr.isNone && c.ending.isNone && c.run != .ended

/-- CANCELLED_HART_STOP (R310): the context of requester ID n1. -/
def execCancelledHartStop (s : State) : Host.Outcome State Fault Refusal :=
  .next (s.onBehalf s.input.n1 (fun s => if s.cur.reqid = s.input.n1 && s.cur.stops then s.beginEnd (s.stopEnding s.cur) else s))

/-! ### launch -/

/-- A number in a record read by launch. -/
def recField (r : List Byte) (off n : Nat) : Nat := leValue ((r.drop off).take n)

/-- The offset of the first field of a record that is out of its limits (R305, R306 check 3). An IN or OUT entry past the count must have
a base of 0 beside the length of 0 that R305 states (DESIGN CHOICE, log entry 24). -/
def recordFault (r : List Byte) (sup : Bool) (prio : Nat) : Option Nat :=
  let q := fun (o : Nat) => recField r o 8
  let c := q 16
  let hub := q 40
  let mode := fld c 0 2
  let hpt := fld c 2 3 + 1
  let npred := fld c 17 3
  let nbar := fld c 20 3
  let jobZero := q 24 / 2 ^ 48 = 0
  let ctrlOk := c / 2 ^ 35 = 0 && npred ≤ 4 && nbar ≤ 4 && fld c 23 4 ≤ 8 && fld c 27 4 ≤ 8 && (!bitAt c 15 || bitAt c 14) &&
    (!bitAt c 16 || bitAt c 15) && !(bitAt c 16 && jobZero) && hpt ≤ 2 ^ mode && (hub = 0 || (mode = 0 && hpt = 1)) &&
    (sup || fld c 8 3 ≤ prio)
  let barOk := fun (w : Nat) => 0x1000 ≤ fld w 0 18 && (fld w 18 3 = 2 || fld w 18 3 = 3) && fld w 24 8 = 0 && fld w 32 32 != 0
  let region := fun (base n i : Nat) =>
    let b := q (base + 16 * i)
    let l := q (base + 16 * i + 8)
    if (if i < n then b % 4096 != 0 || l % 4096 != 0 || l < 4096 else b != 0 || l != 0) then some (base + 16 * i) else none
  let outs := (List.range (fld c 27 4)).map (fun i => (384 + 16 * i, q (384 + 16 * i), q (392 + 16 * i)))
  let ins := (List.range (fld c 23 4)).map (fun i => (256 + 16 * i, q (256 + 16 * i), q (264 + 16 * i)))
  let laps := fun (x y : Nat × Nat × Nat) => x.2.1 < y.2.1 + y.2.2 && y.2.1 < x.2.1 + x.2.2
  let first := fun (xs : List (Option Nat)) => xs.findSome? id
  first ([if q 0 % 8 != 0 || !canonical (q 0) then some 0 else none, if ctrlOk then none else some 16] ++
    (List.range 4).map (fun i => if npred ≤ i && recField r (32 + 2 * i) 2 != 0 then some (32 + 2 * i) else none) ++
    [if hub / 2 ^ 16 = 0 then none else some 40, if q 48 % 256 = 0 then none else some 48, if q 56 % 4096 = 0 then none else some 56] ++
    (List.range 4).map (fun i => if (if i < nbar then barOk (q (128 + 8 * i)) else q (128 + 8 * i) = 0) then none else some (128 + 8 * i)) ++
    (List.range 12).map (fun i => if q (160 + 8 * i) = 0 then none else some (160 + 8 * i)) ++
    (List.range 8).map (region 256 (fld c 23 4)) ++ (List.range 8).map (region 384 (fld c 27 4)) ++
    [if bitAt c 6 then (outs.find? (fun o => (ins ++ outs).any (fun x => x.1 != o.1 && laps x o))).map (fun o => o.1) else none])

/-- The towers of a record's TSET, rising (R305). -/
def recTowers (r : List Byte) : List Nat :=
  let t := recField r 64 64
  (List.range 512).filter (fun g => bitAt t g)

/-- The control harts of HUBSET. -/
def recHubs (r : List Byte) : List Nat := (List.range 16).filter (fun n => bitAt (recField r 40 2) n)

/-- Check 4 of R306 and the gang rules of R313: TVAL. -/
def towerSetFault (r : List Byte) (gangs : Bool) : Option Nat :=
  let c := recField r 16 8
  let ts := recTowers r
  let hub := recField r 40 2
  if ts.isEmpty = (hub = 0) then some 64
  else if !bitAt c 5 then none
  else if !gangs || fld c 2 3 != 0 then some 16
  else if hub != 0 then some 40
  else if 64 < ts.length || (ts.map (· / 64)).eraseDups.length != 1 then some 64 else none

/-- The barrier IDs of a record. -/
def recBars (r : List Byte) : List Nat := (List.range (fld (recField r 16 8) 20 3)).map (fun i => fld (recField r (128 + 8 * i) 8) 0 18)

/-- The first barrier ID of a record that is in use, or named twice (R306 check 7). -/
def State.barClash (s : State) (r : List Byte) : Option Nat :=
  let used := (s.hub.launches.filter (fun l => l.phase != 2)).flatMap (fun l => l.bars.map (fun w => fld w 0 18))
  let ids := recBars r
  (List.range ids.length).findSome? (fun i =>
    let x := ids.getD i 0
    if used.contains x || (ids.take i).contains x then some x else none)

/-- The LNUMs of a record's predecessors as LAUNCHIDs. -/
def recPreds (r : List Byte) : List Word :=
  (List.range (fld (recField r 16 8) 17 3)).map (fun i =>
    levelKey 1 (BitVec.ofNat 64 (recField r 24 8)) ||| BitVec.ofNat 64 (recField r (32 + 2 * i) 2))

/-- The lowest level without a free entry that a launch needs (R303, R306 check 9). -/
def State.tableFullAt (s : State) (id : Word) : Option Nat :=
  let count := fun (lv : Nat) => (s.hub.entities.filter (fun e => e.level == lv)).length
  if 4096 ≤ s.hub.launches.length then some 0
  else if (s.entity 1 id).isNone && 1024 ≤ count 1 then some 1
  else if (s.entity 2 id).isNone && 256 ≤ count 2 then some 2
  else if (s.entity 3 id).isNone && 64 ≤ count 3 then some 3 else none

/-- The checks 3 to 9 of R306, in order. -/
def launchChecks (r : List Byte) : M Unit := do
  let s ← get
  let c := s.cur
  let id := BitVec.ofNat 64 (recField r 24 8)
  match recordFault r c.sup c.prio with
  | some o => trapM 19 2 (BitVec.ofNat 64 o)
  | none => pure ()
  match towerSetFault r ((vget c.facc 0).getLsbD 4) with
  | some o => trapM 19 3 (BitVec.ofNat 64 o)
  | none => pure ()
  checkM (c.sup || (jobOf id = jobOf c.launch && jobOf id != 0)) 19 6 (BitVec.ofNat 64 (jobOf id))
  checkM (!([1, 2, 3].any (fun lv => ((s.entity lv id).map (fun e => e.closed)).getD false))) 19 8 id
  checkM (s.launch id).isNone 19 7 (BitVec.ofNat 64 (fld id.toNat 0 16))
  match s.barClash r with
  | some b => trapM 19 7 (BitVec.ofNat 64 b)
  | none => pure ()
  match (recPreds r).find? (fun p => (s.launch p).isNone) with
  | some p => trapM 19 4 (BitVec.ofNat 64 (fld p.toNat 0 16))
  | none => pure ()
  match s.tableFullAt id with
  | some lv => trapM 19 5 (BitVec.ofNat 64 lv)
  | none => pure ()

/-- The entity of a level that a launch needs, created when it does not exist, and closed by the record (R303, R306). -/
def State.needEntity (s : State) (level : Nat) (id : Word) (close : Bool) (root : Word) : State :=
  match s.entity level id with
  | some _ => if close then s.setEntities (fun e => e.level == level && e.key == levelKey level id) (fun e => { e with closed := true }) else s
  | none => s.setHub (fun h => { h with entities := h.entities ++
      [{ level := level, key := levelKey level id, closed := close, done := false, bits := 0, cause := 0, exit := 0, causeAt := 0, exitAt := 0, ptroot := root }] })

/-- Harts of a launch (R305). -/
def recHarts (r : List Byte) : Nat := (recTowers r).length * (fld (recField r 16 8) 2 3 + 1) + (recHubs r).length

/-- The acceptance of a launch (R306). What R307 copies from the launching context is copied here, as it stands when the launch is
accepted (DESIGN CHOICE, log entry 24). -/
def State.acceptLaunch (s : State) (r : List Byte) : State :=
  let c := recField r 16 8
  let id := BitVec.ofNat 64 (recField r 24 8)
  let root := s.cur.ptroot
  let s := ((s.needEntity 3 id (bitAt c 16) root).needEntity 2 id (bitAt c 15) root).needEntity 1 id (bitAt c 14) root
  let l : Launch :=
    { id := id, record := r, phase := 0, bits := 0, cause := 0, exit := 0, causeAt := 0, exitAt := 0, harts := recHarts r, ended := 0, replays := 0, replaying := false
      lostLog := false, logs := [], tvec := s.cur.tvec, tscratch := s.cur.tscratch, strict := s.cur.strict, facc := s.cur.facc }
  s.setHub (fun h => { h with launches := h.launches ++ [l] })

/-- LP of the issuing context's launch (R305, R306). -/
def State.mayLaunch (s : State) : Bool :=
  s.cur.sup || (match s.launchOf s.cur with
    | some l => bitAt l.ctrl 13
    | none => false)

/-- LAUNCH (R306): a release at .d. R352's refusal in a replayable launch follows the privilege check and comes before the others
(DESIGN CHOICE, log entry 24). -/
def execLaunch (f : Fields) (s : State) : Host.Outcome State Fault Refusal :=
  issue (.launch f) (runBody (do
    let s ← get
    checkM s.mayLaunch 1 3 0
    checkM (!s.replayingLaunch s.cur.reqid) 19 11 0
    let a := s.reg f.a
    checkM (a.toNat % 64 == 0) 3 9 a
    let r ← loadBlock a (fun s => .error (.trap (19 * 16 + 2) (Config.freeTval s.fresh) (some { s with fresh := s.fresh + 1 }))) 64
    launchChecks r
    modify (fun s => ((s.release 3).acceptLaunch r).setReg f.d (BitVec.ofNat 64 (recField r 24 8))))) s

/-! ### Admission -/

/-- The harts a launch names: kind, place, tower index, in order of rank (R305). -/
def Launch.places (l : Launch) : List (HartKind × Nat × Nat) :=
  (recTowers l.record).flatMap (fun t => (List.range (fld l.ctrl 2 3 + 1)).map (fun j => (HartKind.tower, t, j))) ++
    (recHubs l.record).map (fun n => (HartKind.control, n, 0))

/-- Contexts in the slots of a place (R22): all but held and ended ones. -/
def State.slotsUsed (s : State) (kind : HartKind) (place : Nat) : Nat :=
  (s.live.filter (fun c => c.kind = kind && c.place = place && c.run != .held)).length

/-- Whether a context number of this device is allocated (R268). -/
def State.numberUsed (s : State) (n : Nat) : Bool := s.live.any (fun c => c.kind != .cairn && c.reqid = s.devId * 2 ^ 15 + n)

/-- The lowest free context number (R268). -/
def State.freeNumber (s : State) : Nat := ((List.range 32768).find? (fun n => !s.numberUsed n)).getD 0

/-- The lowest free requester-table entry. -/
def State.freeEntry (s : State) : Nat := ((List.range 32768).find? (fun n => (s.entryCtx n).isNone)).getD 0

/-- Whether the towers and control harts of a launch and the requester table have room for it (R307). -/
def State.launchFits (s : State) (l : Launch) : Bool :=
  let used := (s.live.filter (fun c => c.kind != .cairn)).length
  l.places.length + used ≤ 32768 &&
  (List.range 32768).foldl (fun n i => if s.numberUsed i then n - 1 else n) 32768 ≥ l.places.length &&
  l.places.all (fun p => if p.1 = .tower then
      s.slotsUsed .tower p.2.1 + fld l.ctrl 2 3 + 1 ≤ 16 && ((s.tower p.2.1).mode = fld l.ctrl 0 2 || s.slotsUsed .tower p.2.1 = 0)
    else s.slotsUsed .control p.2.1 = 0)

/-- Whether a launch is ready: accepted, and every predecessor completed sound (R307). -/
def State.launchReady (s : State) (l : Launch) : Bool :=
  l.phase = 0 && (recPreds l.record).all (fun p => match s.launch p with
    | some q => q.phase = 2 && q.bits &&& 6 = 0
    | none => true)

/-- Whether a launch may be admitted before those ahead of it in the order of R307. -/
def State.mayPass (s : State) (l : Launch) : Bool :=
  let before := s.hub.launches.takeWhile (fun x => x.id != l.id)
  s.hub.launches.all (fun x =>
    x.id == l.id || !s.launchReady x ||
    !(fld l.ctrl 8 3 < fld x.ctrl 8 3 || (fld l.ctrl 8 3 = fld x.ctrl 8 3 && before.any (fun y => y.id == x.id))) ||
    x.places.all (fun p => !(l.places.any (fun q => p.1 = q.1 && p.2.1 = q.2.1))))

/-- The context of a launch's hart of a rank (R307). -/
def State.newHart (s : State) (l : Launch) (rank : Nat) (kind : HartKind) (place j : Nat) : Ctx :=
  let c := l.ctrl
  let count := l.places.length
  { Ctx.blank with
    kind := kind, place := place, home := if kind = .tower then (fld c 31 4 + j) % 16 else 0, run := if kind = .tower then .ready else .running
    reqid := s.devId * 2 ^ 15 + s.freeNumber, entry := s.freeEntry, launch := l.id, rank := rank, count := count, index := j
    gang := if bitAt c 5 then some { index := rank, count := count, active := true, stack := [], done := none, kept := none } else none
    regs := ((Vector.replicate 32 0).set 1 (BitVec.ofNat 64 (l.num 8 8))).set 2 (BitVec.ofNat 64 rank)
    pc := BitVec.ofNat 64 (l.num 0 8), mownEn := kind = .tower && j = 0 && bitAt c 7, prio := fld c 8 3, lclass := fld c 11 2
    trec := BitVec.ofNat 64 (l.num 48 8 + 256 * rank), ctxsave := BitVec.ofNat 64 (l.num 56 8 + 65536 * rank)
    tvec := l.tvec, tscratch := l.tscratch, strict := l.strict, facc := l.facc, readySince := s.clk, readyOrder := s.nextReady, runSince := s.clk
    ptroot := match s.entity 3 l.id with
      | some e => e.ptroot
      | none => 0
    replay := l.logs.get rank [] }

/-- The barrier objects of a launch at admission (R284, R307). -/
def Launch.newBarriers (l : Launch) : List DeviceBarrier := l.bars.map (fun w =>
  { id := fld w 0 18, scope := fld w 18 3, stack := fld w 21 3, count := BitVec.ofNat 32 (fld w 32 32), arr := 0, gen := 0
    job := jobOf l.id, creator := l.id })

/-- Admits a launch on all its towers together (R307). -/
def State.admitted (s : State) (l : Launch) : State :=
  let s := s.setHub (fun h => { h with barriers := h.barriers ++ l.newBarriers })
  let s := s.setLaunch l.id (fun l => { l with phase := 1 })
  let s := (recTowers l.record).foldl (fun s t => State.setTower s t (fun w => { w with mode := fld l.ctrl 0 2 })) s
  (l.places.zip (List.range l.places.length)).foldl (fun s p =>
    { s with others := s.others ++ [State.newHart s l p.2 p.1.1 p.1.2.1 p.1.2.2] }) s

/-- LAUNCH_ADMISSION (R307): the launch of the input's LAUNCHID. -/
def execLaunchAdmission (s : State) : Host.Outcome State Fault Refusal :=
  .next (match s.launch s.input.word with
    | some l => if s.launchReady l && s.launchFits l && s.mayPass l then s.admitted l else s
    | none => s)

/-- LAUNCH_PREDECESSOR_CANCEL (R307): the launch of the input's LAUNCHID. -/
def execLaunchPredecessorCancel (s : State) : Host.Outcome State Fault Refusal :=
  .next (match s.launch s.input.word with
    | some l =>
      if l.phase = 0 && (recPreds l.record).any (fun p => match s.launch p with
        | some q => q.phase = 2 && q.bits &&& 6 != 0
        | none => false) then (s.recordStatus l.id 2 0x130 0).completeLaunch l.id else s
    | none => s)

/-- LAUNCH_REPLAY (R354): the harts of the launch of context n1 that an integrity failure ends take a turn of their end; once all
have ended the launch is ready again. -/
def execLaunchReplay (s : State) : Host.Outcome State Fault Refusal :=
  .next (match s.ctx? s.input.n1 with
    | none => s
    | some c => match s.launchOf c with
      | none => s
      | some l =>
        if !l.replaying then s else
        (s.live.filter (fun d => d.launch = l.id && d.kind != .cairn && (d.ending.isSome || d.stops))).foldl (fun s d =>
          State.onBehalf s d.reqid (fun t =>
            if t.cur.reqid != d.reqid then t else if t.cur.stops then t.beginEnd .replayed else t.endStep)) s)

/-- BARRIER_DESTROYED (R284): the barrier of ID n1, once its creating launch has completed or is cancelled. -/
def execBarrierDestroyed (s : State) : Host.Outcome State Fault Refusal :=
  .next (match s.hub.barriers.find? (fun b => b.id == s.input.n1) with
    | some b => if (s.hub.launches.any (fun l => l.id == b.creator && l.phase != 2 && l.bits &&& 2 = 0)) then s else s.destroyBarrier b.id
    | none => s)

/-! ### lwait, lcancel -/

/-- What the table holds of a named entity: whether it has completed, and its status word (R304). -/
def State.workStatus (s : State) (level : Nat) (id : Word) : Option (Bool × Word) :=
  if level = 0 then (s.launch id).map (fun l => (decide (l.phase = 2), statusWord (l.phase = 2) l.bits l.cause l.exit))
  else (s.entity level id).map (fun e => (e.done, statusWord e.done e.bits e.cause e.exit))

/-- The absence and privilege checks of lwait and lcancel (R308, R309). -/
def workChecks (level : Nat) (id : Word) : M (Bool × Word) := do
  let s ← get
  match s.workStatus level id with
  | none => trapM 19 9 id
  | some x => do
    checkM (s.cur.sup || jobOf id = jobOf s.cur.launch) 19 6 (BitVec.ofNat 64 (jobOf id))
    pure x

/-- Whether an entity contains the current context (R308, R309). -/
def State.onOwn (s : State) (level : Nat) (id : Word) : Bool := levelKey level s.cur.launch = levelKey level id

/-- The status of the entity that the hart already waits for, once that has completed (R308). -/
def Ctx.lwaited (c : Ctx) (level : Nat) (id : Word) : Option Word :=
  match c.lwait with
  | some (lv, k, w) => if lv = level ∧ k = levelKey level id then w else none
  | none => none

/-- A job's entry is freed (R303): the harts that have its status and have not returned it free nothing. -/
def State.freeJob (s : State) (key : Word) : State :=
  let s := s.mapAll (fun c => match c.lwait with
    | some (3, k, some _) => if k = key then { c with lwaitFreed := true } else c
    | _ => c)
  s.setHub (fun h => { h with entities := h.entities.filter (fun e => !(e.level == 3 && e.key == key && e.done)) })

/-- The end of lwait: sD takes the status, and a job-level lwait in supervisor mode frees the entry of the job whose status it is, if
no other has (R303, R308). -/
def endLwait (f : Fields) (level : Nat) (id w : Word) : M Unit := modify (fun s =>
  let frees := level = 3 && s.cur.sup && !((s.cur.lwaited level id).isSome && s.cur.lwaitFreed)
  let s := (s.setCur (fun c => { c.resumeFrom with lwait := none })).setReg f.d w
  if frees then s.freeJob (levelKey 3 id) else s)

/-- LWAIT (R308). A wait begun keeps its entity. -/
def execLwait (f : Fields) (s : State) : Host.Outcome State Fault Refusal :=
  issue (.lwait f) (runBody (do
    let level := f.sub 0 2
    let id := (← get).reg f.a
    match (← get).cur.lwaited level id with
    | some w => endLwait f level id w
    | none => do
      let (done, w) ← workChecks level id
      let s ← get
      checkM (!s.onOwn level id) 19 14 id
      if done then endLwait f level id w
      else do
        modify (fun s => s.setCur (fun c => { c with lwait := some (level, levelKey level id, none) }))
        plainWait)) s

/-- Cancels an entity and everything below it (R309): job 0 stays open (R418), the barrier objects of the launches go (R284), and a
context that runs on another device is beyond its reach. -/
def State.cancelWork (s : State) (level : Nat) (id : Word) : State :=
  let under := fun (x : Word) => levelKey level x == levelKey level id
  let s := s.setEntities (fun e => e.level ≤ level && under e.key && !(e.level = 3 && e.key = 0)) (fun e => { e with closed := true })
  let hit := s.hub.launches.filter (fun l => l.phase != 2 && under l.id)
  let s := hit.foldl (fun s l => (State.recordStatus s l.id 2 0x130 0).setLaunch l.id (fun l => { l with replaying := false })) s
  let s := s.mapAll (fun c => if c.kind != .cairn && c.run != .ended && !s.away c && under c.launch then { c with cancelled := true } else c)
  let s := (s.hub.barriers.filter (fun b => under b.creator)).foldl (fun s b => State.destroyBarrier s b.id) s
  ((hit.filter (fun l => l.phase = 0)).foldl (fun s l => State.completeLaunch s l.id) s).settleWork

/-- LCANCEL (R309). A context that cancels itself ends here, or, inside a region, when the region ends (R347). R352's refusal in a
replayable launch comes before R309's checks (DESIGN CHOICE, log entry 24). -/
def execLcancel (f : Fields) (s : State) : Host.Outcome State Fault Refusal :=
  issue (.lcancel f) (fun s =>
    let level := f.sub 0 2
    let id := s.reg f.a
    match (do
      checkM (!s.replayingLaunch s.cur.reqid) 19 11 0
      workChecks level id : M (Bool × Word)) s with
    | .error x => x.res s
    | .ok ((done, _), s) =>
      if done then .done (s.setReg f.d 0)
      else
        let t := s.cancelWork level id
        if s.onOwn level id then (if t.cur.stops then .stay (t.beginEnd Ending.cancelled) else .done t) else .done (t.setReg f.d 1)) s

end Sys2Proof.Machine
end

