-- ==== Sys2Proof/Machine/System.lean ====
section
/-! DEFINITION. Class 7 beside the work hierarchy: traps and returns (R333, R334), waits (R335), device time (R336), yield and
the scheduler of contexts (R318, R321), regions (R346), ctxsave and ctxrst (R350, R351), job messages (R324), tlbi (R370),
gang predicates (R315); and the steps that take pending traps and management interrupts (R328, R394). -/

namespace Sys2Proof.Machine

/-! ### Traps -/

/-- ILLEGAL_INSTRUCTION (R54, R55): an OP beyond its class list, or P = 1 with bit 62 = 1. -/
def execIllegalInstruction (w : Word) (s : State) : Host.Outcome State Fault Refusal :=
  .next (takeTrap (if w.getLsbD 63 then 1 else 0) w {} s)

/-- TRAP (R334). -/
def execTrap (f : Fields) (s : State) : Host.Outcome State Fault Refusal :=
  issue (.trap f) (fun s => .trap s (23 * 16 + f.sub 0 4) (s.reg f.a) {}) s

/-- RETT (R333, R395): outside trap level class 20, subcode 4; to an address that is no multiple of 8 class 3, subcode 0 (R90). -/
def execRett (f : Fields) (s : State) : Host.Outcome State Fault Refusal :=
  issue (.rett f) (fun s =>
    if !s.cur.sup then .trap s (1 * 16 + 2) 0 {}
    else if !(if s.cur.kind = .cairn then s.mgmt.ml else s.cur.tl) then .trap s (20 * 16 + 4) 0 {}
    else if s.returnPc.toNat % 8 != 0 then .trap s misalignedJump s.returnPc {}
    else .stay ((returnFromTrap s).setCur (fun c => { c with skip := if c.hv then c.hdone else 0 }))) s

/-- The place of a pending trap in the order of R328: class 21, then ascending classes; class 10 by group, then highest subcode
(R109); class 14 by tag (R199); otherwise by subcode, then by tag where the trap names one. -/
def Pending.rank (p : Pending) : Nat :=
  let cls := p.code / 16
  let sub := p.code % 16
  let tag := fld p.tval.toNat 0 6
  (if cls = 21 then 0 else 1 + cls) * 2 ^ 20 +
    (if cls = 10 then fld p.tval.toNat 0 4 * 16 + (15 - sub)
     else if cls = 14 then tag * 16 + sub
     else if cls = 17 then sub * 64 + tag
     else if cls = 15 then sub * 64 + fld p.extra.toNat 0 6
     else sub * 64)

/-- The first of the pending traps in that order, among equals the one pending longest. -/
def firstPending (ps : List Pending) : Option Pending :=
  ps.foldl (fun best p => match best with
    | none => some p
    | some b => some (if p.rank < b.rank then p else b)) none

/-- Whether a pending trap can be taken (R328, R329). -/
def Ctx.trapDue (c : Ctx) : Bool := !c.pend.isEmpty && !c.tl && c.kind != .cairn

/-- The tag that is freed when an asynchronous trap is taken (R199, R265). -/
def Pending.tag (p : Pending) : Option Nat :=
  match p.code / 16 with
  | 14 => some (fld p.tval.toNat 0 6)
  | 17 => some (fld p.tval.toNat 0 6)
  | 15 => some (fld p.extra.toNat 0 6)
  | _ => none

/-- Whether the current context is blocked in wfi, or in an npre that has ended its region and waits for its save: a trap or a save
finds the instruction done (R335, R346). -/
def State.inWfi (s : State) : Bool :=
  s.cur.blocked && (match decodeWord (s.wordAt s.cur.pc) with
    | .wfi _ => true
    | .npre _ => s.cur.npr.isNone
    | _ => false)

/-- Where the current context goes on after a stop at this boundary: past a wait that the stop ends (R335, R346). -/
def State.resumePc (s : State) : Word := if s.inWfi then s.cur.pc + 8 else s.cur.pc

/-- Takes the first pending trap of the current context (R328, R329, R335). -/
def State.takePending (s : State) : State :=
  match firstPending s.cur.pend with
  | none => s
  | some p =>
    if s.trapWaits p.code then s.recordJoin else
    let pc := s.resumePc
    let info : TrapInfo := { async := true, extra := p.extra, hv := s.cur.skip != 0, hdone := s.cur.skip }
    let s := s.setCur (fun c =>
      let c := { c with pend := c.pend.erase p, pc := pc, skip := 0 }
      match p.tag with
      | some t => c.freeTag t
      | none => c)
    takeTrap p.code p.tval info s

/-- PENDING_TRAP_TAKEN (R328): at the boundary of the running hart whose turn it is. -/
def execPendingTrapTaken (s : State) : Host.Outcome State Fault Refusal :=
  .next (if s.cur.run = .running && s.cur.ending.isNone && s.cur.trapDue then s.takePending else s)

/-- UNCORRECTABLE_STATE_ERROR (R356): class 21, subcode 2, pending for context n1. -/
def execUncorrectableStateError (s : State) : Host.Outcome State Fault Refusal :=
  .next (if s.live.any (fun c => c.reqid = s.input.n1 && c.kind != .cairn) then
      s.pendFor s.input.n1 { code := 21 * 16 + 2, tval := 0, extra := 0 } else s)

/-- The management interrupt that Cairn takes now, if any: the lowest pending and enabled bit (R394). -/
def State.dueInterrupt (s : State) : Option Nat :=
  if !s.mgmt.ie || s.mgmt.ml then none
  else (List.range 11).find? (fun i => (s.mipBits &&& s.mgmt.mie).getLsbD i)

/-- INFO of an interrupt (R399). -/
def State.interruptInfo (s : State) (bit : Nat) : Word :=
  if bit = 0 then BitVec.ofNat 64 (((s.sensors.find? (fun p => p.2.alarm)).map (fun p => p.1)).getD 0) else vget s.mgmt.info bit

/-- Cairn takes an interrupt (R394). -/
def State.takeInterrupt (s : State) (bit : Nat) : State :=
  let t := if s.inWfi then s.setCur (fun c => { c with pc := c.pc + 8 }) else s
  t.cairnEnter (22 * 16 + bit) true (s.interruptInfo bit)

/-- MANAGEMENT_INTERRUPT (R394). -/
def execManagementInterrupt (s : State) : Host.Outcome State Fault Refusal :=
  .next (match s.dueInterrupt with
    | some bit => s.onBehalf cairnId (fun t => if t.cur.kind = .cairn then t.takeInterrupt bit else t)
    | none => s)

/-- CAIRN_RESET (R395): a reset of Cairn alone, in the state of a trap at ML = 1. -/
def execCairnReset (s : State) : Host.Outcome State Fault Refusal := .next (if s.mgmt.ml then s.cairnRestart else s)

/-! ### Waits and time -/

/-- WFI (R335, R395); with PREQ set it is a pre-emption point (R339), outside a region (R347). -/
def execWfi (f : Fields) (s : State) : Host.Outcome State Fault Refusal :=
  issue (.wfi f) (fun s =>
    let go := Res.done (s.setCur Ctx.resumeFrom)
    let block := Res.stay (s.setCur (fun c => { c with blocked := true }))
    if s.cur.kind = .cairn then (if s.mipBits &&& s.mgmt.mie != 0 then go else block)
    else if s.cur.trapDue || s.cur.cancelled then go
    else if s.cur.preq then (if s.mayStop then savePoint (s.cur.pc + 8) (s.setCur Ctx.resumeFrom) else go)
    else block) s

/-- TSTAMP (R336). -/
def execTstamp (f : Fields) (s : State) : Host.Outcome State Fault Refusal :=
  issue (.tstamp f) (fun s => .done (s.setReg f.d s.time)) s

/-! ### Scheduling of contexts -/

/-- Whether a context is blocked in a wait, so that it is not ready (R291, R318). -/
def Ctx.asleep (c : Ctx) : Bool :=
  c.blocked && !c.trapDue && (match c.wait with
    | some w => w.kind != .wreg && !w.woken
    | none => false)

/-- Whether a context waits for a partition or a control hart (R318). -/
def Ctx.dispatchable (c : Ctx) : Bool := (c.run = .ready || c.run = .saved) && c.ending.isNone && !c.cancelled && !c.asleep

/-- The contexts that run on a place. -/
def State.runningOn (s : State) (kind : HartKind) (place : Nat) : List Ctx :=
  s.live.filter (fun c => c.kind = kind && c.place = place && c.run = .running)

/-- The tower a context is dispatched on: its own, or the target of its migration (R393). -/
def Ctx.target (c : Ctx) : Nat := c.migrate.getD c.place

/-- Whether a context may only be on its own tower: it holds a semaphore bit or waits on a tower object (R291, R343). -/
def State.towerBound (s : State) (c : Ctx) : Bool :=
  (s.tower c.place).holders.any (fun h => h.2 = c.reqid) ||
    (match c.entryOf with
     | some w => w.obj.cls = 0 || w.obj.cls = 1
     | none => false)

/-- The partition of its tower that a context would take, if it can be placed now (R318, R170). -/
def State.placement (s : State) (c : Ctx) : Option Nat :=
  if c.kind != .tower then (if (s.runningOn .control c.place).isEmpty then some 0 else none) else
  let t := c.target
  let running := s.runningOn .tower t
  let free := (List.range (2 ^ (s.tower t).mode)).filter (fun p => !(running.any (fun d => d.part = p)))
  if running.any (fun d => d.home = c.home) then none
  else if t != c.place && (s.towerBound c || 16 ≤ s.slotsUsed .tower t) then none
  else if c.mownEn then (if free.contains 0 then some 0 else none)
  else match free.filter (· != 0) with
    | p :: _ => some p
    | [] => free.head?

/-- The members of a context's gang, itself alone where it has none. -/
def State.gangOf (s : State) (c : Ctx) : List Ctx :=
  if c.gang.isNone then [c] else s.live.filter (fun d => d.gang.isSome && d.launch = c.launch)

/-- Whether a context is ready: a gang member is not while its gang is not (R318). -/
def State.isReady (s : State) (c : Ctx) : Bool := (s.gangOf c).all Ctx.dispatchable

/-- Whether a context, and with it its gang, is ready and can be placed (R313, R318). -/
def State.canDispatch (s : State) (c : Ctx) : Bool := s.isReady c && (s.gangOf c).all (fun d => (s.placement d).isSome)

/-- Since when a context is ready, and its place in the order of becoming so; a gang since its last member (R318). -/
def State.readyAt (s : State) (c : Ctx) : Nat × Nat :=
  (s.gangOf c).foldl (fun m d => if m.1 < d.readySince || (m.1 = d.readySince && m.2 < d.readyOrder) then (d.readySince, d.readyOrder) else m)
    (c.readySince, c.readyOrder)

/-- A context that ctxrst installed reopens its rows (R349); a new hart has none. -/
def State.enterNew (s : State) (rows : List Nat) : State := if rows.isEmpty then s else s.enterBank rows

/-- Runs the current context in a partition, on its target tower: restored from its image if it was saved (R343). -/
def State.startCur (s : State) (part : Nat) : State :=
  let home := s.cur.place
  let t := s.setCur (fun c => { c with place := c.target })
  let r := if s.cur.run = .saved then t.resumeCur part
    else
      let t := if s.cur.kind = .tower then t.takeBank t.cur.place t.cur.home else t
      (t.setCur (fun c => { c with run := .running, part := part, runSince := t.clk, migrate := none, reopen := [] })).enterNew s.cur.reopen
  if r.cur.run = .running || r.cur.ending.isSome then r else r.setCur (fun c => { c with place := home })

/-- Dispatches a context with its gang, all members together: where the image of one has to wait for a group (R31), or cannot be read,
none starts (R313). -/
def State.dispatch (s : State) (c : Ctx) : State :=
  let t := (s.gangOf c).foldl (fun s d => match s.placement d with
    | some p => s.onBehalf d.reqid (fun t => if t.cur.reqid = d.reqid then t.startCur p else t)
    | none => s) s
  if (s.gangOf c).all (fun d => (t.ctx? d.reqid).all (fun x => x.run = .running || x.ending.isSome)) then t else s.arrived t

/-- The better of two ready contexts: higher effective priority, then ready longer (R318). -/
def State.readyFirst (s : State) (a b : Ctx) : Bool :=
  let pa := s.eprio a.reqid
  let pb := s.eprio b.reqid
  let ra := s.readyAt a
  let rb := s.readyAt b
  pb < pa || (pa == pb && (ra.1 < rb.1 || (ra.1 = rb.1 && ra.2 ≤ rb.2)))

/-- The best of a list of contexts in that order. -/
def State.bestReady (s : State) (cs : List Ctx) : Option Ctx :=
  cs.foldl (fun best c => match best with
    | none => some c
    | some b => some (if s.readyFirst b c then b else c)) none

/-- The kind and place that number n1 of an event names: a tower, or control hart n1 - 512. -/
def State.inputPlace (s : State) : HartKind × Nat :=
  if s.input.n1 < 512 then (.tower, s.input.n1) else (.control, (s.input.n1 - 512) % 16)

/-- Moves a running context that is blocked in a wait out of its partition (R291). -/
def State.moveOut (s : State) (kind : HartKind) (place : Nat) : State :=
  match (s.runningOn kind place).find? (fun c => c.asleep && c.gang.isNone && c.npr.isNone && c.ending.isNone) with
  | none => s
  | some c => s.onBehalf c.reqid (fun t =>
      if t.cur.reqid = c.reqid && t.atBlockingWait then savedOr (t.saveCur t.cur.pc false false false) else t)

/-- CONTEXT_DISPATCH (R318): on the place n1; with n2 = 1 a blocked context is first moved out (R291). -/
def execContextDispatch (s : State) : Host.Outcome State Fault Refusal :=
  let (kind, place) := s.inputPlace
  let s := if s.input.n2 = 1 then s.moveOut kind place else s
  .next (match s.bestReady (s.live.filter (fun c => c.kind = kind && c.target = place && s.canDispatch c)) with
    | some c => s.dispatch c
    | none => s)

/-- Whether the scheduler asks a running context to yield (R318). -/
def State.mustYield (s : State) (c : Ctx) : Bool :=
  let pc := s.eprio c.reqid
  s.live.any (fun r => r.kind = c.kind && r.target = c.place && s.isReady r && !s.canDispatch r &&
    (let pr := s.eprio r.reqid
     pc < pr || (pr == pc && (s.readyAt r).1 + 1000000000 ≤ s.clk && c.runSince + 1000000000 ≤ s.clk)))

/-- YIELD_REQUEST (R318, R337): of context n1. -/
def execYieldRequest (s : State) : Host.Outcome State Fault Refusal :=
  .next (match s.ctx? s.input.n1 with
    | some c =>
      if c.run = .running && c.kind != .cairn && s.mustYield c then s.requestPreempt c.reqid (cyclesOf (schedulerGrant c.lclass) (s.clockOf c)) false none else s
    | none => s)

/-- YIELD (R321), without effect inside a region, of the hart or of a member of its gang (R347). -/
def execYield (f : Fields) (s : State) : Host.Outcome State Fault Refusal :=
  issue (.yield f) (fun s =>
    if !s.mayStop then .done s
    else if s.cur.preq then savePoint (s.cur.pc + 8) s
    else if s.live.any (fun r => r.kind = s.cur.kind && r.target = s.cur.place && s.isReady r && r.reqid != s.cur.reqid &&
        !s.canDispatch r && s.eprio s.cur.reqid ≤ s.eprio r.reqid) then savePoint (s.cur.pc + 8) s
    else .done s) s

/-- Whether a forced save is due (R339): PDEADLN has reached 0, or the context is blocked in a wait. -/
def State.forcedDueNow (s : State) : Bool :=
  let c := s.cur
  c.run = .running && c.kind != .cairn && c.preq && c.npr.isNone && c.ending.isNone && (c.pdeadln = 0 || (c.blocked && s.atBlockingWait))

/-- A forced save of the current context, or its save at a wait (R339); it stays as it is while a tag is outstanding. -/
def State.forceSave (s : State) : State := savedOr (s.saveAll s.resumePc (s.cur.pdeadln = 0) false false)

/-- FORCED_SAVE (R339): of context n1. -/
def execForcedSave (s : State) : Host.Outcome State Fault Refusal :=
  .next (s.onBehalf s.input.n1 (fun t => if t.cur.reqid = s.input.n1 && t.forcedDueNow then t.forceSave else t))

/-! ### Regions -/

/-- NPRB (R346). -/
def execNprb (f : Fields) (s : State) : Host.Outcome State Fault Refusal :=
  issue (.nprb f) (fun s =>
    if s.cur.npr.isSome then .trap s (20 * 16 + 1) 0 {}
    else if s.cur.preq && s.mayStop then savePoint s.cur.pc s
    else .done (s.setCur (fun c => { c with npr := some s.clk }))) s

/-- NPRE (R346): NPR is cleared, and then, with REQ = 1, it is a pre-emption point. Where the save has to wait the hart stays in the
npre, its region ended. -/
def execNpre (f : Fields) (s : State) : Host.Outcome State Fault Refusal :=
  issue (.npre f) (fun s =>
    if s.cur.npr.isNone && !s.cur.blocked then .trap s (20 * 16 + 2) 0 {}
    else
      let t := s.setCur (fun c => { c with npr := none, blocked := false })
      if !(s.cur.preq && t.mayStop) then .done t
      else match t.saveAll (s.cur.pc + 8) false false false with
        | .ok u => .stay u
        | .error u => .stay (u.setCur (fun c => { c with blocked := true }))) s

/-- The region allowance of a class in ps (R344). -/
def regionAllowance (lclass : Nat) : Nat := if lclass = 0 then 5000000 else if lclass = 1 then 30000000 else 100000000

/-- REGION_OVERRUN (R346): of context n1. -/
def execRegionOverrun (s : State) : Host.Outcome State Fault Refusal :=
  .next (match s.ctx? s.input.n1 with
    | some c => match c.npr with
      | some t =>
        if t + regionAllowance c.lclass < s.clk then
          (s.mapCtx c.reqid (fun c => { c with npr := none })).pendFor c.reqid
            { code := 20 * 16, tval := BitVec.ofNat 64 ((s.clk - t) / 1000), extra := 0 }
        else s
      | none => s
    | none => s)

/-! ### ctxsave, ctxrst -/

/-- CTXSAVE (R350). -/
def execCtxsave (f : Fields) (s : State) : Host.Outcome State Fault Refusal :=
  issue (.ctxsave f) (fun s =>
    if !s.cur.sup then .trap s (1 * 16 + 2) 0 {}
    else if !s.mayStop then .trap s (20 * 16 + 8) 0 {}
    else .stay (savedOr (s.saveAll (s.cur.pc + 8) false true (f.sub 0 1 = 1)))) s

/-- The kind of a wait word (R295, R348). -/
def waitKindOf (n : Nat) : Option WaitKind :=
  match n with
  | 0 => some .semt
  | 1 => some .barw
  | 2 => some .barad
  | 3 => some .lkw
  | 4 => some .qwait
  | 5 => some .jrecv
  | 6 => some .wreg
  | _ => none

/-- The kind and object of the wait entry that an image names; a barad record of kind barad beside a key of another class has no
entry (R288, R348). -/
def imgEntry (img : List Byte) : Option (WaitKind × ObjKey) :=
  let o : ObjKey := { cls := imgNum img 0x290 8 / 2 ^ 60, key := imgNum img 0x290 8 % 2 ^ 60 }
  (waitKindOf (imgNum img 0x298 1 % 16)).bind (fun k => if k = .barad && o.cls != 1 && o.cls != 2 then none else some (k, o))

/-- The wait entry of an image installed by ctxrst (R343): it is registered, or untracked where the table has no room (R296). -/
def State.imgWait (s : State) (img : List Byte) : Option WaitEntry :=
  (imgEntry img).map (fun e =>
    { kind := e.1, obj := e.2, tracked := s.waitEntries < 16384 && s.objectRoom e.2, since := s.nextWait, woken := false
      gen := BitVec.ofNat 32 (imgNum img 0x29C 4) })

/-- The tower that an image binds its context to: its wait names a tower object, or it holds a semaphore bit (R343). -/
def State.imgBound (s : State) (img : List Byte) : Option Nat :=
  let id := imgNum img 8 4
  match imgEntry img with
  | some (_, ⟨0, key⟩) => some (key / 64)
  | some (_, ⟨1, key⟩) => some (key / 8)
  | _ => (s.towers.find? (fun p => p.2.holders.any (fun h => h.2 = id))).map (fun p => p.1)

/-- The barad records of an installed context (R288): its own where it was held here with the generation of the image, else that of the
image, at its resume address or at the address that a trap interrupted. -/
def Ctx.imgBarad (c : Ctx) (img : List Byte) : List Arrival :=
  let g := BitVec.ofNat 32 (imgNum img 0x29C 4)
  if imgNum img 0x298 1 % 16 ≠ 2 then []
  else if c.barad.any (fun r => r.gen == g) then c.barad
  else [{ pc := if bitAt (imgReg img 26).toNat 1 then imgReg img 28 else imgPc img, tl := false, gen := g
          bar := (imgEntry img).map (fun e => e.2) }]

/-- The tags that pending traps of an image keep busy (R199, R265). -/
def busyOf (ps : List Pending) : List Transfer := ps.filterMap (fun p => p.tag.map (fun tag =>
  { tag := tag, work := .remote 5 0 false 0 0 0 0 0, scope := 0, ptroot := 0, serial := 0, chunks := 0, done := []
    failed := true, expinc := none, flights := [], failing := none }))

/-- A context new to this device, made for an image (R276, R351). Its rank, N and tower index are nowhere in the image: free
values (log entry 8). -/
def State.foreignCtx (s : State) (img : List Byte) : Ctx :=
  let free := fun (i m : Nat) => (Config.freeTval (s.fresh + i)).toNat % m
  let c : Ctx := { Ctx.blank with
    reqid := imgNum img 8 4 % 2 ^ 28, entry := s.freeEntry, launch := imgWord img 0x10, rank := free 0 (2 ^ 16), count := free 1 (2 ^ 16)
    index := free 2 16, snext := BitVec.ofNat 32 (imgReg img 20).toNat, sfloor := BitVec.ofNat 32 (imgReg img 21).toNat, wait := s.imgWait img
    run := .ready }
  let c := { c with pend := c.imgPend img (s.fresh + 3) }
  { c with
    transfers := busyOf c.pend
    untracked := match c.wait with
      | some w => if w.tracked then 0 else 1
      | none => 0 }

/-- Installs a context from an image as resident and ready (R351): the held context of that REQID, whose launch is the one it kept
(DESIGN CHOICE, log entry 22), or a new one. Where the image was saved on another device, SNEXT and SFLOOR come from it, its wait is
registered here, and replies come here (R276, R343). -/
def State.install (s : State) (img : List Byte) (kind : HartKind) (place : Nat) : State :=
  let id := imgNum img 8 4 % 2 ^ 28
  let held := s.ctx? id
  let base := match held with
    | some c => c
    | none => s.foreignCtx img
  let launch := if s.hub.launches.any (fun l => l.id == base.launch && l.phase != 2) then base.launch else s.cur.launch
  let base := if fld (imgNum img 0 8) 32 13 = s.devId then base
    else { base with
      snext := BitVec.ofNat 32 (imgReg img 20).toNat, sfloor := BitVec.ofNat 32 (imgReg img 21).toNat
      wait := if base.wait.isSome then base.wait else s.imgWait img }
  let c : Ctx := { base.fromImage img with
    kind := kind, place := place, run := .ready, launch := launch, blocked := false, barad := base.imgBarad img, gone := none
    readySince := s.clk, readyOrder := s.nextReady, reopen := imgRows img, migrate := none, reply := s.devId }
  let s := match held with
    | some _ => s.mapCtx id (fun _ => c)
    | none => ({ s with others := s.others ++ [c], fresh := s.fresh + 3 + imgNum img 0x2A2 1 }).setLaunch launch (fun l => { l with harts := l.harts + 1 })
  s.onBehalf id (fun t => if t.cur.reqid = id then t.restoreLists img else t)

/-- The control harts that no context occupies (R311, R351). -/
def State.idleControl (s : State) : Option Nat := (List.range 16).find? (fun n => s.slotsUsed .control n = 0)

/-- The checks of R351 and the wait for a slot: the image, and where it is installed. -/
def ctxrstChecks (a b : Word) : M (List Byte × HartKind × Nat) := do
  checkM (a.toNat % 4096 == 0) 20 5 a
  let s ← get
  match s.readImage a with
  | .fault code va => trapCode code va
  | .waits t => fun _ => .error (.arrive t)
  | .ok img bad t => do
    set t
    checkM (imageValid img) 20 5 a
    checkM (!bad) 21 4 a
    let id := imgNum img 8 4 % 2 ^ 28
    checkM (fld (imgNum img 0 8) 32 13 = s.devId || bitAt (imgNum img 0 8) 16) 17 9 (BitVec.ofNat 64 id)
    checkM (((s.ctx? id).map (fun c => decide (c.run = .held))).getD true) 20 6 b
    let n := fld b.toNat 0 10
    checkM ((s.imgBound img).all (fun t => t == n)) 20 6 b
    checkM (fld b.toNat 10 54 = 0 && (n < 512 || n = 0x3FF)) 20 7 b
    waitUntil ((s.ctx? id).isSome || (s.live.filter (fun c => c.kind != .cairn)).length < 32768)
    if n < 512 then do
      waitUntil (s.slotsUsed .tower n < 16)
      pure (img, .tower, n)
    else match s.idleControl with
      | some h => pure (img, .control, h)
      | none => holdM

/-- CTXRST (R351). -/
def execCtxrst (f : Fields) (s : State) : Host.Outcome State Fault Refusal :=
  issue (.ctxrst f) (runBody (do
    supervisorOnly (← get)
    let s ← get
    let (img, kind, place) ← ctxrstChecks (s.reg f.a) (s.reg f.b)
    modify (fun s =>
      let t := s.install img kind place
      let id := imgNum img 8 4 % 2 ^ 28
      t.setReg f.d (BitVec.ofNat 64 (id + ((t.ctx? id).map (fun c => c.entry)).getD 0 * 2 ^ 32))))) s

/-! ### Job messages -/

/-- The 256 bytes of a message (R323). -/
def Message.bytes (m : Message) : List Byte :=
  leBytes m.payload.length 2 ++ leBytes m.job 2 ++ leBytes m.seq.toNat 4 ++ leBytes m.arrival.toNat 8 ++ padTo 240 m.payload

/-- Contexts of the current context's job that wait for a message ahead of it (R324). -/
def State.waitersAhead (s : State) : Nat :=
  let job := jobOf s.cur.launch
  let waits := fun (c : Ctx) => c.awaitsMessage && jobOf c.launch = job
  ((s.others.filter (fun c => c.run != .ended && waits c)).filter (fun c => !waits s.cur || s.better c s.cur)).length

/-- JRECV (R324), logged for replay (R353, R354). Without a message nothing is stored, and nothing is left of the access (R5). -/
def execJrecv (f : Fields) (s : State) : Host.Outcome State Fault Refusal :=
  issue (.jrecv f) (runBody (do
    let before ← get
    let va := before.reg f.a
    checkM (va.toNat % 256 == 0) 3 1 va
    let leaf ← translateM va .write
    if leaf.mt = mtDev then match (← get).devStore leaf.pa 256 0 with
      | .trap c => trapCode c va
      | _ => pure ()
    accessChecks va leaf 256 true true
    rowAccess leaf true
    noSoftwareWait
    let s ← get
    match s.replayInput 0 leaf.pa with
    | some (some bs, t) => do
      set t
      storeAt leaf bs
      modify (fun s => s.setReg f.d (BitVec.ofNat 64 (leValue ((bs.drop 4).take 4))))
      endWait .jrecv mailboxObj
    | some (none, t) => do
      set t
      holdKeep
    | none =>
      let job := jobOf s.cur.launch
      let queued := s.hub.mailbox.filter (fun m => m.job == job)
      match (if s.waitersAhead < queued.length then queued.head? else none) with
      | some m => do
        set (s.recordInput { kind := 0, addr := leaf.pa, value := m.bytes })
        modify (fun s => s.setHub (fun h => { h with mailbox := h.mailbox.erase m }))
        storeAt leaf m.bytes
        modify (fun s => s.setReg f.d (m.seq.zeroExtend 64))
        endWait .jrecv mailboxObj
      | none => do
        set before
        if f.sub 0 1 = 1 then modify (fun s => s.setReg f.d (BitVec.allOnes 64))
        else blockOn .jrecv mailboxObj 0 none)) s

/-! ### tlbi -/

/-- The privilege check of tlbi (R369), then the steps of R370: what fence.full.d waits for, and the drop. -/
def invalidate (leafHit : TlbEntry → Bool) (walkHit : WalkEntry → Bool) : M Unit := do
  supervisorOnly (← get)
  modify (fun s => s.fenceStores.dropTranslations leafHit walkHit)

/-- TLBI_VA (R370). -/
def execTlbiVa (f : Fields) (s : State) : Host.Outcome State Fault Refusal :=
  issue (.tlbiVa f) (runBody (do
    let s ← get
    let a := fld (s.reg f.a).toNat 0 57
    let asid := fld (s.reg f.b).toNat 0 16
    invalidate (fun e => e.asid == asid && a / 2 ^ e.bits == e.va / 2 ^ e.bits)
      (fun w => w.asid == asid && w.idx == a / 2 ^ (12 + 9 * (w.level - 1))))) s

/-- TLBI_ASID (R370). -/
def execTlbiAsid (f : Fields) (s : State) : Host.Outcome State Fault Refusal :=
  issue (.tlbiAsid f) (runBody (do
    let asid := fld ((← get).reg f.b).toNat 0 16
    invalidate (fun e => e.asid == asid) (fun w => w.asid == asid))) s

/-- TLBI_ALL (R370). -/
def execTlbiAll (f : Fields) (s : State) : Host.Outcome State Fault Refusal :=
  issue (.tlbiAll f) (runBody (invalidate (fun _ => true) (fun _ => true))) s

/-! ### Gang predicates -/

/-- The place in a gang, or class 19, subcode 13 (R315). -/
def gangM : M Gang := do
  match (← get).cur.gang with
  | some g => pure g
  | none => trapM 19 13 0

/-- GPRED (R315). -/
def execGpred (f : Fields) (s : State) : Host.Outcome State Fault Refusal :=
  issue (.gpred f) (runBody (do
    let g ← gangM
    checkM (g.stack.length != 8) 19 10 8
    modify (fun s => s.setCur (fun c => { c with
      gang := some { g with active := g.active && s.reg f.a != 0, stack := g.active :: g.stack } })))) s

/-- GJOIN (R315). -/
def execGjoin (f : Fields) (s : State) : Host.Outcome State Fault Refusal :=
  issue (.gjoin f) (runBody (do
    let g ← gangM
    match g.stack with
    | [] => trapM 19 10 0
    | a :: rest => modify (fun s => s.setCur (fun c => { c with gang := some { g with active := a, stack := rest } })))) s

end Sys2Proof.Machine
end

