-- ==== Sys2Proof/Machine/Sync.lean ====
section
/-! DEFINITION. Class 6, OPs 2 to 13: semaphores (R281, R282), barriers (R283-R288), lock and queue waits (R289, R290),
declared holds and software waits (R298). -/

namespace Sys2Proof.Machine

/-- The bit a semaphore instruction names (R281). -/
def semBit (f : Fields) (s : State) : Nat := if f.form = 0 then (s.reg f.a).toNat % 64 else f.sub 0 6

/-- A tower object named off a tower: class 18, subcode 1. -/
def towerOnly : M Unit := do checkM ((← get).cur.kind = .tower) 18 1 0

/-- Takes a clear bit for the current context, which is recorded as its holder (R281, R292). -/
def takeBit (bit : Nat) : M Unit := do
  let t := (← get).cur.place
  recordHold (semObj t bit)
  modify (fun s => s.semSet t bit (some s.cur.reqid))

/-- SEMT (R281, R282). -/
def execSemt (f : Fields) (s : State) : Host.Outcome State Fault Refusal :=
  issue (.semt f) (runBody (do
    towerOnly
    noSoftwareWait
    let s ← get
    let bit := semBit f s
    let o := semObj s.cur.place bit
    if s.cur.handed = some o then modify (fun s => s.setCur (fun c => { c with handed := none, blocked := false }))
    else if !(s.tower s.cur.place).sem.getLsbD bit then do
      takeBit bit
      endWait .semt o
    else blockOn .semt o 0 none)) s

/-- SEMC (R281, R282): a release at .t, then the clear with its handover. -/
def execSemc (f : Fields) (s : State) : Host.Outcome State Fault Refusal :=
  issue (.semc f) (runBody (do
    towerOnly
    modify (fun s => (s.release 1).semClear s.cur.place (semBit f s)))) s

/-- SEMQ (R281). -/
def execSemq (f : Fields) (s : State) : Host.Outcome State Fault Refusal :=
  issue (.semq f) (runBody (do
    towerOnly
    let s ← get
    let bit := semBit f s
    if (s.tower s.cur.place).sem.getLsbD bit then modify (fun s => s.setReg f.d 0)
    else do
      takeBit bit
      modify (fun s => s.setReg f.d 1))) s

/-! ### Barriers -/

/-- A barrier that an instruction names. -/
inductive Bar where
  | tower (n : Nat)
  | device (id : Nat)
  deriving DecidableEq, Repr

/-- The designator and its checks (R285). `arrive` is bara or barad, whose CNT must fit the kind. -/
def designator (f : Fields) (arrive : Bool) : M Bar := do
  let s ← get
  let a := s.reg f.a
  let x := if f.form = 0 then a.toNat % 2 ^ 20 else f.sub 0 20
  let cnt := f.sub 20 5
  if f.form = 0 then do
    checkM (fld a.toNat 20 44 = 0 && (fld x 18 2 = 1 || (fld x 18 2 = 0 && fld x 3 15 = 0))) 18 3 a
    checkM (!arrive || (cnt = 0) != (fld x 18 2 = 0)) 18 9 (BitVec.ofNat 64 (cnt * 2 ^ 8))
  if fld x 18 2 = 0 then pure (.tower (x % 8)) else pure (.device (x % 2 ^ 18))

/-- A device barrier with the checks of R286. -/
def deviceBarrier (id : Nat) : M DeviceBarrier := do
  let s ← get
  let tv := BitVec.ofNat 64 id
  match s.hub.barriers.find? (fun b => b.id == id) with
  | none => trapM 18 4 tv
  | some b => do
    checkM (0x1000 ≤ id && b.job == jobOf s.cur.launch) 18 4 tv
    checkM (b.scope != 2 || (s.cur.kind = .tower && s.cur.place / 64 = b.stack)) 18 5 tv
    pure b

/-- The object of a barrier (R292). -/
def Bar.obj (b : Bar) (t : Nat) : ObjKey :=
  match b with
  | .tower n => { cls := 1, key := t * 8 + n }
  | .device id => { cls := 2, key := id }

/-- A tower barrier of a tower. -/
def Tower.bar (w : Tower) (n : Nat) : TowerBarrier := w.bars[n % 8]'(Nat.mod_lt _ (by decide))

/-- GEN of a barrier the instruction may name, with the checks of R286. -/
def barGen (b : Bar) : M (BitVec 32) := do
  match b with
  | .tower n => do
    towerOnly
    let s ← get
    pure ((s.tower s.cur.place).bar n).gen
  | .device id => do
    let d ← deviceBarrier id
    pure d.gen

/-- The barrier of an object (R292). -/
def barOf (o : ObjKey) : Bar := if o.cls = 1 then .tower (o.key % 8) else .device o.key

/-- A wait during which its barrier was destroyed: class 18, subcode 4 (R287). -/
def barGone (b : Bar) : M Unit := do
  match b with
  | .tower _ => pure ()
  | .device id => checkM ((← get).cur.gone != some id) 18 4 (BitVec.ofNat 64 id)

/-- Whether generation `g`, which the current hart waits for, has ended: its wait on the barrier is over (R287). An entry woken for
another generation says nothing of this one (R288). -/
def released (k : WaitKind) (o : ObjKey) (g : BitVec 32) : M Bool := do
  let c := (← get).cur
  pure (c.wokenUp && c.waiting k o && c.wait.any (fun w => w.gen == g))

/-- Wakes the waiters of a barrier whose generation has ended. -/
def State.wakeBar (s : State) (b : Bar) : State :=
  let o := b.obj s.cur.place
  (s.wakeAll .barw o).wakeAll .barad o

/-- One arrival (R287): the generation it counts in. -/
def arrive (b : Bar) (cnt : Nat) : M (BitVec 32) := do
  match b with
  | .tower n => do
    towerOnly
    let s ← get
    let t := (s.tower s.cur.place).bar n
    checkM (t.count = 0 || t.count = cnt) 18 9 (BitVec.ofNat 64 (t.count + cnt * 2 ^ 8))
    modify (fun s => s.release 1)
    let full := t.arr + 1 = cnt
    let t2 : TowerBarrier := if full then { count := 0, arr := 0, gen := t.gen + 1 }
      else { count := cnt, arr := t.arr + 1, gen := t.gen }
    modify (fun s => s.setTower s.cur.place (fun w => { w with bars := w.bars.setIfInBounds n t2 }))
    if full then modify (fun s => s.wakeBar b)
    pure t.gen
  | .device id => do
    let d ← deviceBarrier id
    modify (fun s => s.release d.scope)
    let full := d.arr + 1 = d.count
    modify (fun s => s.setHub (fun h => { h with barriers := h.barriers.map (fun x =>
      if x.id = id then (if full then { x with arr := 0, gen := x.gen + 1 } else { x with arr := x.arr + 1 }) else x) }))
    if full then modify (fun s => s.wakeBar b)
    pure d.gen

/-- BARA (R285-R287). -/
def execBara (f : Fields) (s : State) : Host.Outcome State Fault Refusal :=
  issue (.bara f) (runBody (do
    let b ← designator f true
    let g ← arrive b (f.sub 20 5)
    modify (fun s => s.setReg f.d (g.zeroExtend 64)))) s

/-- BARW (R285-R287). -/
def execBarw (f : Fields) (s : State) : Host.Outcome State Fault Refusal :=
  issue (.barw f) (runBody (do
    let b ← designator f false
    let o := b.obj (← get).cur.place
    let g := ((← get).reg f.b).extractLsb' 0 32
    if ← released .barw o g then endWait .barw o
    else do
      barGone b
      let now ← barGen b
      noSoftwareWait
      if now ≠ g then endWait .barw o else blockOn .barw o g none)) s

/-- The first half of barad (R287, R288): the arrival, its generation in sD and in the barad record. -/
def arriveNoted (f : Fields) (b : Bar) : M (BitVec 32) := do
  let g ← arrive b (f.sub 20 5)
  modify (fun s => (s.setCur (fun c => { c with
    barad := { pc := c.pc, tl := c.tl, gen := g, bar := some (b.obj s.cur.place) } :: c.barad })).setReg f.d (g.zeroExtend 64))
  pure g

/-- The record of the barad at the program counter, run at the same trap level (R288). -/
def Ctx.arrival (c : Ctx) : Option Arrival := c.barad.find? (fun r => r.pc == c.pc && r.tl == c.tl)

/-- The barad at the program counter returns: its record is cleared (R288). -/
def Ctx.clearArrival (c : Ctx) : Ctx := { c with barad := c.barad.filter (fun r => !(r.pc == c.pc && r.tl == c.tl)) }

/-- barad returns: its wait and its record end (R288). -/
def endBarad (o : ObjKey) : M Unit := do
  endWait .barad o
  modify (fun s => s.setCur Ctx.clearArrival)

/-- The second half of barad: the wait for the end of generation `g`, which clears the barad record (R287, R288). -/
def awaitGen (b : Bar) (g : BitVec 32) : M Unit := do
  let now ← barGen b
  let s ← get
  let o := b.obj s.cur.place
  if now ≠ g then endBarad o else blockOn .barad o g (some s)

/-- BARAD (R285-R288): with an arrival already counted it runs as barw, on the barrier of its record. -/
def execBarad (f : Fields) (s : State) : Host.Outcome State Fault Refusal :=
  issue (.barad f) (runBody (do
    match (← get).cur.arrival with
    | some r => do
      let b ← match r.bar with
        | some o => pure (barOf o)
        | none => designator f true
      let o := b.obj (← get).cur.place
      if ← released .barad o r.gen then endBarad o
      else do
        barGone b
        let _ ← barGen b
        noSoftwareWait
        awaitGen b r.gen
    | none => do
      let b ← designator f true
      let _ ← barGen b
      noSoftwareWait
      awaitGen b (← arriveNoted f b))) s

/-! ### Lock and queue waits -/

/-- The state after a read of the hart at an address that translates, of a test after which nothing else is done (R5, R365). -/
def State.afterTest (s : State) (va : Word) : State :=
  match s.translate va .read with
  | .ok (l, t) => t.noteUse l.pa l.mt
  | .error _ => s

/-- LKW (R289). A waiter that blocks on without having been woken does not repeat its test; a wait begun anew does (R291). A blocked
lkw has read the word and written nothing, so it sets no D bit (R365). A hold that finds no room counts once, though the write is
watched (R296). -/
def execLkw (f : Fields) (s : State) : Host.Outcome State Fault Refusal :=
  issue (.lkw f) (runBody (do
    let before ← get
    let va := before.reg f.a + offS f 22
    checkM (va.toNat % 8 == 0) 3 3 va
    let leaf ← translateM va .readWrite
    checkM (leaf.mt == mtCached && !leaf.chk) 18 6 va
    accessChecks va leaf 8 true false
    let s ← get
    checkM (!poisoned s.poison leaf.pa 8) 21 0 va
    noSoftwareWait
    let o := lockObj leaf.pa
    if s.cur.blocked && s.cur.waiting .lkw o && !s.cur.wokenUp then holdM
    else do
      let (bs, t) := s.readPhys leaf 8
      set t
      let w := leValue bs
      if !bitAt w 63 then do
        recordHold o
        let n := (← get).cur.untracked
        storeAt leaf (leBytes (2 ^ 63 + t.cur.reqid) 8)
        modify (fun s => s.setCur (fun c => { c with untracked := n }))
        endWait .lkw o
      else do
        set ((before.afterTest va).adoptHolder leaf.pa w)
        blockOn .lkw o 0 none)) s

/-- The object of a queue (R292). -/
def queueObj (pa : Nat) : ObjKey := { cls := 4, key := pa }

/-- A number of `n` bytes in a queue header. -/
def headerNum (h : List Byte) (off n : Nat) : Nat := leValue ((h.drop off).take n)

/-- Whether the 64 bytes read of a queue header at `pa` are valid (R267). -/
def headerOk (pa : Nat) (h : List Byte) : Bool := pa % 64 = 0 && headerNum h 16 1 ≤ 24 && headerNum h 17 47 = 0

/-- The bytes of a queue header (R33, R267). -/
def readHeader (leaf : Leaf) : M (List Byte) := fun s =>
  let (bs, t) := s.readPhys leaf 64
  .ok (bs, t)

/-- What qwait returns, when its condition holds (R290). -/
def queueRoom (mode head tail cap : Nat) : Option Nat :=
  let n := (tail + 2 ^ 64 - head) % 2 ^ 64
  if mode = 0 then (if n ≠ 0 then some n else none) else if n < 2 ^ cap then some (2 ^ cap - n) else none

/-- Remembers a queue that a hart of a replayable launch has waited on (R353). -/
def State.noteQueue (s : State) (pa : Nat) : State :=
  match s.launchOf s.cur with
  | some l => if l.replayable then s.setCur (fun c => { c with queues := insertSorted pa c.queues }) else s
  | none => s

/-- QWAIT (R290), logged for replay (R353, R354). -/
def execQwait (f : Fields) (s : State) : Host.Outcome State Fault Refusal :=
  issue (.qwait f) (runBody (do
    let va := (← get).reg f.a + offS f 22
    checkM (va.toNat % 64 == 0) 18 7 va
    let leaf ← translateM va .read
    checkM (leaf.mt == mtRow || (leaf.mt == mtCached && !leaf.chk)) 18 7 va
    rowAccess leaf false
    let s ← get
    checkM (!poisoned s.poison leaf.pa 64) 21 0 va
    let h ← readHeader leaf
    checkM (headerOk leaf.pa h) 18 7 va
    noSoftwareWait
    modify (fun s => (s.readSettles leaf 64).noteQueue leaf.pa)
    let s ← get
    match s.replayInput 1 leaf.pa with
    | some (some bs, t) => do
      set (t.setReg f.d (BitVec.ofNat 64 (leValue bs)))
      endWait .qwait (queueObj leaf.pa)
    | some (none, t) => do
      set t
      holdKeep
    | none =>
      match queueRoom (f.sub 22 1) (headerNum h 0 8) (headerNum h 8 8) (headerNum h 16 1) with
      | some n => do
        set ((s.recordInput { kind := 1, addr := leaf.pa, value := leBytes n 8 }).setReg f.d (BitVec.ofNat 64 n))
        endWait .qwait (queueObj leaf.pa)
      | none => blockOn .qwait (queueObj leaf.pa) 0 none)) s

/-! ### Declared holds and software waits -/

/-- The object that sA names in a class, with the checks of R298. -/
def declaredObj (f : Fields) : M ObjKey := do
  let s ← get
  let cls := f.sub 0 4
  let a := s.reg f.a
  match cls with
  | 0 => do
    towerOnly
    checkM (a.toNat < 64) 18 10 a
    pure (semObj s.cur.place a.toNat)
  | 1 => do
    towerOnly
    checkM (a.toNat < 8) 18 10 a
    pure { cls := 1, key := s.cur.place * 8 + a.toNat }
  | 2 => do
    checkM (a.toNat < 2 ^ 18) 18 10 a
    let _ ← deviceBarrier a.toNat
    pure { cls := 2, key := a.toNat }
  | 5 => do
    checkM (a == 0) 18 10 a
    pure { cls := 5, key := 0 }
  | _ => do
    checkM (a.toNat % 8 == 0) 18 10 a
    let leaf ← translateM a .read
    pure { cls := cls, key := leaf.pa }

/-- WHOLD (R298). -/
def execWhold (f : Fields) (s : State) : Host.Outcome State Fault Refusal :=
  issue (.whold f) (runBody (do
    let o ← declaredObj f
    let s ← get
    if (s.holders o).contains s.cur.reqid then pure ()
    else if s.holdRoom o then do
      cycleCheck 7 o none
      modify (fun s => (s.addHold o s.cur.reqid).declareHold o s.cur.reqid)
    else tableFull none)) s

/-- WREL (R298). -/
def execWrel (f : Fields) (s : State) : Host.Outcome State Fault Refusal :=
  issue (.wrel f) (runBody (do
    let o ← declaredObj f
    modify (fun s => s.dropHold o s.cur.reqid))) s

/-- WREG (R298). -/
def execWreg (f : Fields) (s : State) : Host.Outcome State Fault Refusal :=
  issue (.wreg f) (runBody (do
    let o ← declaredObj f
    let s ← get
    match s.cur.entryOf with
    | some w => trapM 18 8 w.tag
    | none =>
      if s.waitEntries < 16384 && s.objectRoom o then do
        cycleCheck WaitKind.wreg.num o none
        let entry : WaitEntry :=
          { kind := .wreg, obj := o, tracked := true, since := s.nextWait, woken := false, gen := 0 }
        modify (fun s => s.setCur (fun c => { c with wait := some entry }))
      else tableFull none)) s

/-- WDONE (R298). -/
def execWdone (f : Fields) (s : State) : Host.Outcome State Fault Refusal :=
  issue (.wdone f) (runBody (modify (fun s => s.setCur (fun c => match c.wait with
    | some w => if w.kind = .wreg then { c with wait := none } else c
    | none => c)))) s

end Sys2Proof.Machine
end

