-- ==== Sys2Proof/Machine/Talus.lean ====
section
/-! DEFINITION. The owner side of remote work (R264, R267, R270, R272, R410): Talus, the execution of remote operations, the
windows of remote copies, and packets that Efpo drops (R407, R408). -/

namespace Sys2Proof.Machine

/-! ### Talus -/

/-- The record of a requester (R272). -/
def State.talusRecord (s : State) (id : Nat) : Option TalusRecord := s.hub.records.find? (fun r => r.reqid == id)

/-- Result and window entries in use (R272, R410). -/
def State.talusUse (s : State) : Nat := s.hub.results.length + s.hub.windows.length

/-- A packet of a requester arrives: its record's floor rises and every entry below it is freed (R272). -/
def State.raiseFloor (s : State) (id : Nat) (floor : BitVec 32) : State :=
  match s.talusRecord id with
  | none => s
  | some r =>
    let f := if below r.floor floor then floor else r.floor
    s.setHub (fun h => { h with
      records := h.records.map (fun x => if x.reqid = id then { x with floor := f, last := s.clk } else x)
      results := h.results.filter (fun e => !(e.reqid == id && below e.serial f))
      windows := h.windows.filter (fun e => !(e.reqid == id && below e.serial f)) })

/-- Allocates a requester record, where one is free; the highest floor seen is then the packet's own (R272). -/
def State.withRecord (s : State) (id : Nat) (floor : BitVec 32) : Option State :=
  if (s.talusRecord id).isSome then some s
  else if s.hub.records.length < 8192 then
    some (s.setHub (fun h => { h with records := h.records ++ [{ reqid := id, floor := floor, last := s.clk }] }))
  else none

/-- A packet from a requester has arrived, whatever becomes of it (R272). -/
def State.heardFrom (s : State) (id : Nat) : State :=
  s.setHub (fun h => { h with records := h.records.map (fun x => if x.reqid = id then { x with last := s.clk } else x) })

/-- The result of a remote operation: STATUS, CAUSE, RESULT. -/
structure RemoteResult where
  status : Nat
  cause : Nat
  value : Word
  deriving DecidableEq, Repr

/-- The new value that an operation writes, if it writes (R263); `w` bits. -/
def remoteNew (kind w : Nat) (u : Bool) (old b d : Nat) : Option Nat :=
  match kind with
  | 0 => some ((old + b) % 2 ^ w)
  | 1 => some (b % 2 ^ w)
  | 2 => if old = d % 2 ^ w then some (b % 2 ^ w) else none
  | 3 =>
    let x := b % 2 ^ w
    some (if u then Nat.max old x else if sextN old w < sextN x w then x else old)
  | 6 => some (b % 2 ^ w)
  | _ => none

/-- The code with which a remote write marks lines (R243, R244): of a requester that is resident here that of its transfer, of a
remote operation as R275 acquires it, of a chunk of a copy as R216 does. -/
def State.serialTag (s : State) (id : Nat) (serial : BitVec 32) (chunk : Nat) : Nat :=
  match s.findSerial id serial with
  | some t => match t.work with
    | .copy _ _ _ _ km => pubCode t.tag chunk (km.getD 0)
    | _ => remoteCode t.tag
  | none => 64

/-- The waiter that a request of another agent is at a group (R31). -/
def talusWaiter (id : Nat) (serial : BitVec 32) : Nat := 2 ^ 61 + id * 2 ^ 32 + serial.toNat

/-- The virtual address of a request: ADDR is 57 bits (R270). -/
def requestVa (p : RemoteRequest) : Word := p.addr.signExtend 64

/-- The waiter that a chunk of a copy of another agent is at a group (R31). -/
def copyWaiter (p : CopyPacket) : Nat := chunkWaiter (talusWaiter p.reqid p.serial) p.chunk

/-- A write of the remote-operation logic; earlier xputs of the requester that read the row come first (R206). -/
def remoteWrite (p : RemoteRequest) (leaf : Leaf) (bs : List Byte) : M Unit := do
  rowAccessFor (talusWaiter p.reqid p.serial) leaf true
  modify (fun s =>
    let s := if leaf.mt = mtRow then s.settleReads p.reqid (groupOf leaf.pa) else s
    let s := s.writePhys (some p.reqid) (s.serialTag p.reqid p.serial 0) leaf bs
    if leaf.mt = mtCached then s.disownLine (leaf.pa / 128) else s)

/-- The checks of an access of the remote-operation logic, with the statuses 3, 5 and 4 in the order of R260. -/
def remoteFault (s : State) (p : RemoteRequest) (leaf : Leaf) (n : Nat) (reads : Bool) : Option Nat :=
  if leaf.mt = mtDev then some 3
  else if s.unpublished p.reqid leaf n then some 5
  else if reads && poisoned s.poison leaf.pa n then some 4
  else none

/-- rpush (R267). -/
def remotePush (p : RemoteRequest) (root : Word) : M RemoteResult := do
  if (requestVa p).toNat % 64 != 0 then pure { status := 6, cause := 0, value := 0 } else do
  let leaf ← engineTranslate [536] root (requestVa p) .readWrite
  let s ← get
  match remoteFault s p leaf 64 true with
  | some st => pure { status := st, cause := 0, value := 0 }
  | none => do
    rowAccessFor (talusWaiter p.reqid p.serial) leaf true
    let h ← readHeader leaf
    if !headerOk leaf.pa h then pure { status := 6, cause := 0, value := 0 } else do
    let head := headerNum h 0 8
    let tail := headerNum h 8 8
    let cap := 2 ^ headerNum h 16 1
    if cap ≤ (tail + 2 ^ 64 - head) % 2 ^ 64 then pure { status := 0, cause := 0, value := BitVec.allOnes 64 } else do
    let slot ← engineTranslate [536] root (requestVa p + BitVec.ofNat 64 (64 + 8 * (tail % cap))) .readWrite
    let s ← get
    match remoteFault s p slot 8 false with
    | some st => pure { status := st, cause := 0, value := 0 }
    | none => do
      remoteWrite p slot (leBytes p.opnd.toNat 8)
      remoteWrite p { leaf with pa := leaf.pa + 8 } (leBytes (tail + 1) 8)
      pure { status := 0, cause := 0, value := BitVec.ofNat 64 tail }

/-- The other operations (R263, R264). -/
def remoteAccess (p : RemoteRequest) (root : Word) : M RemoteResult := do
  let n := 2 ^ p.sz
  let leaf ← engineTranslate [536] root (requestVa p) (if p.kind = 5 then .read else if p.kind = 6 then .write else .readWrite)
  let s ← get
  match remoteFault s p leaf n (p.kind != 6) with
  | some st => pure { status := st, cause := 0, value := 0 }
  | none => do
    rowAccessFor (talusWaiter p.reqid p.serial) leaf (p.kind != 5)
    let s ← get
    let (bs, t) := s.readPhys leaf n
    set (t.settleStores true leaf.pa n)
    let old := leValue bs
    match remoteNew p.kind (8 * n) p.u old p.opnd.toNat p.exp.toNat with
    | some v => remoteWrite p leaf (leBytes v n)
    | none => pure ()
    pure { status := 0, cause := 0, value := if p.kind = 6 then 0 else BitVec.ofNat 64 old }

/-- What became of a request: its result and the state after, or the state in which it waits for a ROW group (R31). -/
inductive Executed where
  | done (r : RemoteResult) (s : State)
  | waits (s : State)

/-- Executes a request once. Statuses other than 0 leave memory unchanged (R270); its reads are uses of their pages (R33). -/
def State.executeRemote (s : State) (p : RemoteRequest) : Executed :=
  match s.jobRoot p.job with
  | none => .done { status := 8, cause := 0, value := 0 } s
  | some root =>
    match (if p.kind = 4 then remotePush p root else remoteAccess p root) s with
    | .ok (r, t) => .done r (if r.status = 0 then t else s.usesOf t)
    | .error (.trap code _ keep) => .done { status := 2, cause := code, value := 0 } (s.usesOf (keep.getD s))
    | .error (.arrive t) => .waits t
    | .error _ => .waits s

/-- Sends a response (R270, R272). -/
def State.respond (s : State) (p : RemoteRequest) (r : RemoteResult) : State :=
  let floor := match s.talusRecord p.reqid with
    | some x => x.floor
    | none => p.floor
  s.emit (.response p.reply { src := s.devId, reqid := p.reqid, serial := p.serial, incarn := s.hub.incarnation, status := r.status
                              floorseen := floor, cause := r.cause, result := r.value })

/-- A response without a result. -/
def State.respondStatus (s : State) (p : RemoteRequest) (st : Nat) : State := s.respond p { status := st, cause := 0, value := 0 }

/-- The owner's handling of a request that is not too old, line by line (R272); one that waits for a group has had no effect. -/
def State.admitRequest (s : State) (p : RemoteRequest) : State :=
  match s.withRecord p.reqid p.floor with
  | none => s.respondStatus p 1
  | some s1 =>
    let s1 := s1.raiseFloor p.reqid p.floor
    let floor := ((s1.talusRecord p.reqid).map (fun r => r.floor)).getD 0
    if below p.serial floor then s1.remDropped else
    match s1.hub.results.find? (fun e => e.reqid == p.reqid && e.serial == p.serial) with
    | some e => s1.respond p { status := e.status, cause := e.cause, value := e.result }
    | none =>
      if idempotent p.kind then
        match s1.executeRemote p with
        | .done r s2 => s2.respond p r
        | .waits t => s.holdInput t .remoteRequestReceived (.request p)
      else if p.expinc != s1.hub.incarnation then s1.respondStatus p 7
      else if 65536 ≤ s1.talusUse then
        (s1.respondStatus p 1).setHub (fun h => { h with talusRefuse := satInc h.talusRefuse })
      else match s1.executeRemote p with
        | .done r s2 =>
          (s2.setHub (fun h => { h with results := h.results ++
            [{ reqid := p.reqid, serial := p.serial, status := r.status, cause := r.cause, result := r.value }] })).respond p r
        | .waits t => s.holdInput t .remoteRequestReceived (.request p)

/-- The owner's handling of a request that arrives (R272). -/
def State.handleRequest (s : State) (p : RemoteRequest) : State :=
  if 2000000 < s.time.toNat - p.sent.toNat then (s.heardFrom p.reqid).remDropped else s.admitRequest p

/-- REMOTE_REQUEST_RECEIVED (R272). -/
def execRemoteRequestReceived (s : State) : Host.Outcome State Fault Refusal :=
  .next (match s.input with
    | .request p => (s.received p.src (Config.packetFlits 0)).handleRequest p
    | _ => s)

/-- FLOOR_BEACON_RECEIVED (R272): never allocates a record and is never refused. -/
def execFloorBeaconReceived (s : State) : Host.Outcome State Fault Refusal :=
  .next (match s.input with
    | .floor p =>
      let s := s.received p.src (Config.packetFlits 2)
      if 2000000 < s.time.toNat - p.sent.toNat then (s.heardFrom p.reqid).remDropped else
      let s := s.raiseFloor p.reqid p.floor
      let floor := ((s.talusRecord p.reqid).map (fun r => r.floor)).getD p.floor
      s.emit (.beaconAck p.src { src := s.devId, reqid := p.reqid, floor := floor, incarn := s.hub.incarnation, sent := 0, reply := 0 })
    | _ => s)

/-- INCARNATION_PROBE_RECEIVED (R272). -/
def execIncarnationProbeReceived (s : State) : Host.Outcome State Fault Refusal :=
  .next (match s.input with
    | .floor p =>
      let s := (s.received p.src (Config.packetFlits 4)).heardFrom p.reqid
      let floor := ((s.talusRecord p.reqid).map (fun r => r.floor)).getD 0
      s.emit (.probeAnswer p.reply { src := s.devId, reqid := p.reqid, floor := floor, incarn := s.hub.incarnation, sent := 0, reply := 0 })
    | _ => s)

/-- TALUS_RECORD_EXPIRY (R272): the record of requester n1, with no entry and no packet for 2 ms. -/
def execTalusRecordExpiry (s : State) : Host.Outcome State Fault Refusal :=
  let id := s.input.n1
  .next (match s.talusRecord id with
    | none => s
    | some r =>
      if s.hub.results.any (fun e => e.reqid == id) || s.hub.windows.any (fun e => e.reqid == id) || s.clk < r.last + 2000000000 then s
      else s.setHub (fun h => { h with records := h.records.filter (fun x => x.reqid != id) }))

/-! ### Copy windows -/

/-- The window entry of a transfer (R410). -/
def State.window (s : State) (p : CopyPacket) : Option TalusWindow := s.hub.windows.find? (fun w => w.reqid == p.reqid && w.serial == p.serial)

/-- Copy buffers in use (R410). -/
def State.buffersUsed (s : State) : Nat := (s.hub.windows.filter (fun w => w.buffer.isSome)).length

/-- Whether a chunk was taken already (R410). -/
def TalusWindow.taken (w : TalusWindow) (c : Nat) : Bool := c < w.low || (c < w.low + 64 && w.map.getLsbD (c - w.low))

/-- LOW advances past every chunk marked, at most `n` places. -/
def TalusWindow.slide (w : TalusWindow) : Nat → TalusWindow
  | 0 => w
  | n + 1 => if w.map.getLsbD 0 then TalusWindow.slide { w with low := w.low + 1, map := w.map >>> 1 } n else w

/-- Takes a chunk (R410): the buffer of the chunk before is freed. -/
def TalusWindow.take (w : TalusWindow) (c : Nat) (buf : Option (Nat × List Byte × List Nat)) : TalusWindow :=
  TalusWindow.slide { w with map := w.map ||| (1#64 <<< (c - w.low)), buffer := buf } 64

/-- Replaces a window entry. -/
def State.putWindow (s : State) (w : TalusWindow) : State :=
  s.setHub (fun h => { h with windows := h.windows.map (fun x => if x.reqid = w.reqid ∧ x.serial = w.serial then w else x) })

/-- An answer of the owner: copy data (SIDE 1) or an acknowledgement (SIDE 2) (R409). -/
def State.copyReply (s : State) (p : CopyPacket) (toData : Bool) (status cause : Nat) (bs : List Byte) (pois : List Nat) : State :=
  let q : CopyPacket :=
    { src := s.devId, reqid := p.reqid, serial := p.serial, chunk := p.chunk, incarn := s.hub.incarnation, status := status, cause := cause
      sent := s.time.extractLsb' 0 32, desc := List.replicate 64 0, job := 0, floor := 0, poison := pois, data := bs }
  s.emit (if toData then .copyData p.src q else .copyAck p.src q)

/-- The status of a chunk that faults (R410): 5 for the publication check, else 2 with its cause. -/
def faultStatus (code : Nat) : Nat × Nat := if code = 0x0F1 then (5, 0) else (2, code)

/-- Whether a chunk of a remote descriptor touches DEV memory. -/
def State.chunkDev (s : State) (root : Word) (r : List Byte) (c : Nat) (acc : AccKindT) : Bool := s.localDev [536] root r c acc

/-- A duplicate request for a ROW or CACHED chunk is answered by reading it again (R410). -/
def State.readAnswer (s : State) (p : CopyPacket) (root : Word) : State :=
  match readChunk [536] root p.reqid (copyWaiter p) p.desc p.chunk s with
  | .ok ((bs, bad), t) => t.copyReply p true 0 0 bs (poisonPieces bad)
  | .error (.trap code _ keep) => (s.usesOf (keep.getD s)).copyReply p true (faultStatus code).1 (faultStatus code).2 [] []
  | .error (.arrive t) => s.holdInput t .copyReadRequestReceived (.copy p)
  | .error (.hold _) => s.holdInput s .copyReadRequestReceived (.copy p)
  | .error _ => s

/-- The owner's handling of a copy packet that is not too old (R410): `toData` tells a read request (SIDE 1) from copy data
(SIDE 2). One that waits for a group has had no effect (R31). -/
def State.admitCopy (s : State) (p : CopyPacket) (toData : Bool) : State :=
  match s.withRecord p.reqid p.floor with
  | none => s.copyReply p toData 1 0 [] []
  | some s1 =>
    let s1 := s1.raiseFloor p.reqid p.floor
    let floor := ((s1.talusRecord p.reqid).map (fun r => r.floor)).getD 0
    if below p.serial floor then s1.remDropped
    else if p.incarn != s1.hub.incarnation then s1.copyReply p toData 7 0 [] []
    else
      let fresh : TalusWindow := { reqid := p.reqid, serial := p.serial, low := 0, map := 0, buffer := none }
      let s2? := match s1.window p with
        | some _ => some s1
        | none => if s1.talusUse < 65536 then some (s1.setHub (fun h => { h with windows := h.windows ++ [fresh] })) else none
      match s2? with
      | none => s1.copyReply p toData 1 0 [] []
      | some s2 =>
        let w := (s2.window p).getD fresh
        if w.low + 64 ≤ p.chunk then s2.copyReply p toData 1 0 [] []
        else match s2.jobRoot p.job with
          | none => if w.taken p.chunk && !toData then s2.copyReply p toData 0 0 [] [] else s2.copyReply p toData 8 0 [] []
          | some root =>
            let dev := s2.chunkDev root p.desc p.chunk (if toData then .read else .write)
            if w.taken p.chunk then
              if !toData then s2.copyReply p toData 0 0 [] []
              else match w.buffer with
                | some (c, bs, pois) => if c = p.chunk then s2.copyReply p toData 0 0 bs pois else
                    if dev then s2 else s2.readAnswer p root
                | none => if dev then s2 else s2.readAnswer p root
            else if dev && (p.chunk != w.low || (toData && w.buffer.isNone && 256 ≤ s2.buffersUsed)) then s2.copyReply p toData 1 0 [] []
            else if toData then
              match readChunk [536] root p.reqid (copyWaiter p) p.desc p.chunk s2 with
              | .ok ((bs, bad), s3) =>
                let pois := poisonPieces bad
                (s3.putWindow (w.take p.chunk (if dev then some (p.chunk, bs, pois) else none))).copyReply p toData 0 0 bs pois
              | .error (.trap code _ keep) => (s2.usesOf (keep.getD s2)).copyReply p toData (faultStatus code).1 (faultStatus code).2 [] []
              | .error (.arrive t) => s.holdInput t .copyReadRequestReceived (.copy p)
              | .error (.hold _) => s.holdInput s .copyReadRequestReceived (.copy p)
              | .error _ => s
            else
              match engineRun p.chunk (writeChunk [536] root p.reqid (copyWaiter p) (s2.serialTag p.reqid p.serial p.chunk) p.desc p.chunk
                p.data (piecesBad p.data.length p.poison)) s2 with
              | .ok s3 => (s3.putWindow (w.take p.chunk none)).copyReply p toData 0 0 [] []
              | .fault _ code s3 => s3.copyReply p toData (faultStatus code).1 (faultStatus code).2 [] []
              | .wait t => s.holdInput t .copyDataAtOwner (.copy p)

/-- The owner's handling of a copy packet that arrives (R410). -/
def State.handleCopy (s : State) (p : CopyPacket) (toData : Bool) : State :=
  if 2000000 < (s.time.extractLsb' 0 32 - p.sent).toNat then (s.heardFrom p.reqid).remDropped else s.admitCopy p toData

/-- COPY_READ_REQUEST_RECEIVED (R410). -/
def execCopyReadRequestReceived (s : State) : Host.Outcome State Fault Refusal :=
  .next (match s.input with
    | .copy p => (s.received p.src (copyFlits p)).handleCopy p true
    | _ => s)

/-- COPY_DATA_AT_OWNER (R410). -/
def execCopyDataAtOwner (s : State) : Host.Outcome State Fault Refusal :=
  .next (match s.input with
    | .copy p => (s.received p.src (copyFlits p)).handleCopy p false
    | _ => s)

/-! ### Efpo packets and links -/

/-- The counter of R412 in which a packet is dropped: 4 for a bad CRC, 5 for its type, its destination or more than 3 hops
(R407); none where it is taken. -/
def State.frameDrop (s : State) (f : Frame) : Option Nat :=
  if !f.crcOk then some 4
  else if 12 < f.type || f.dst != s.devId || 3 < f.hops then some 5
  else none

/-- EFPO_PACKET_DROPPED (R407, R412): a packet at a port that is not to be taken is counted, and nothing is sent in reply. -/
def execEfpoPacketDropped (s : State) : Host.Outcome State Fault Refusal :=
  .next (match s.input with
    | .frame port f => match s.frameDrop f with
      | some i => s.efCount port i 1
      | none => s
    | _ => s)

/-- The step of the opcode table that a packet of a TYPE is (R407); copy data is one of two, by the side of the copy. -/
def frameStep (type : Nat) (i : Instr) : Bool :=
  match type, i with
  | 0, .remoteRequestReceived => true
  | 1, .remoteResponseReceived => true
  | 2, .floorBeaconReceived => true
  | 3, .beaconAckReceived => true
  | 4, .incarnationProbeReceived => true
  | 5, .probeAnswerReceived => true
  | 6, .copyDataAtRequester => true
  | 6, .copyDataAtOwner => true
  | 7, .copyReadRequestReceived => true
  | 8, .copyAcknowledgementReceived => true
  | 9, .paceRequestReceived => true
  | 10, .paceAgreementReceived => true
  | 11, .paceAckReceived => true
  | 12, .timeSyncAnswer => true
  | _, _ => false

/-- Whether a packet that is taken has an effect: a time-sync packet of another device is dropped (R411). -/
def frameTaken (f : Frame) (i : Instr) : Bool := frameStep f.type i && !(f.type = 12 && f.dir = 0)

/-- The operands of a packet that loops back, as the step that it is at this hub (R263). -/
def Packet.arrival (p : Packet) : Option (Instr × EventInput) :=
  match p with
  | .request _ q => some (.remoteRequestReceived, .request q)
  | .response _ q => some (.remoteResponseReceived, .response q)
  | .beacon _ q => some (.floorBeaconReceived, .floor q)
  | .beaconAck _ q => some (.beaconAckReceived, .floor q)
  | .probe _ q => some (.incarnationProbeReceived, .floor q)
  | .probeAnswer _ q => some (.probeAnswerReceived, .floor q)
  | .copyRead _ q => some (.copyReadRequestReceived, .copy q)
  | .copyData _ q => some (if q.desc.all (fun b => b == 0) then .copyDataAtRequester else .copyDataAtOwner, .copy q)
  | .copyAck _ q => some (.copyAcknowledgementReceived, .copy q)
  | .paceRequest _ q => some (.paceRequestReceived, .pace q)
  | .paceAgreement _ q => some (.paceAgreementReceived, .pace q)
  | .paceAck _ q => some (.paceAckReceived, .pace q)
  | .timeSync _ _ _ => none

/-- The waiter that a packet of a queue pair is at a group (R31). -/
def hostWaiter (q : Nat) : Nat := 2 ^ 60 + q

end Sys2Proof.Machine
end

