-- ==== Sys2Proof/Machine/HostPort.lean ====
section
/-! DEFINITION. The host port (R400-R406): RoCEv2 requests of the host, their checks against the queue-pair and region tables,
job messages, and the port's own events. An event whose condition does not hold changes nothing (log entry 9). -/

namespace Sys2Proof.Machine

/-- Changes the host port. -/
def State.setHost (s : State) (f : HostPort → HostPort) : State := { s with host := f s.host }

/-- Counts HPCNT i (R402). -/
def State.hpCount (s : State) (i : Nat) : State := s.setHost (fun h => { h with cnt := vput h.cnt i (satInc (vget h.cnt i)) })

/-- The progress of a queue pair (R403). -/
def State.qp (s : State) (q : Nat) : QueuePair := s.host.qps.get q QueuePair.blank

/-- Changes the progress of a queue pair. -/
def State.setQp (s : State) (q : Nat) (f : QueuePair → QueuePair) : State :=
  s.setHost (fun h => { h with qps := h.qps.put q (f (s.qp q)) })

/-- Sends what a pause frame held back, once the pause is over (R400). -/
def State.hostFlush (s : State) : State :=
  if s.clk < s.host.pausedUntil then s else
  let sent := s.host.waiting
  sent.foldl (fun t _ => State.hpCount t 1) (s.setHost (fun h => { h with out := h.out ++ sent, waiting := [] }))

/-- A frame arrives while the link is up: RXFRM. -/
def State.hostFrame (s : State) (act : State → State) : State := if s.host.link then act (s.hostFlush.hpCount 0) else s

/-! ### The tables -/

/-- Address of queue-pair entry `q` (R403). -/
def State.qpAddr (s : State) (q : Nat) : Nat := s.host.qptBase.toNat + 64 * q

/-- JOB of a queue pair. -/
def State.qpJob (s : State) (q : Nat) : Nat := s.num (s.qpAddr q) 2

/-- STATE of a queue pair: 0 unused, 1 ready, 2 error; 3 to 255 count as 0 (R403). -/
def State.qpState (s : State) (q : Nat) : Nat :=
  let x := s.num (s.qpAddr q + 2) 1
  if 4096 ≤ q || dramEnd < s.qpAddr q + 64 || 2 < x then 0 else x

/-- EPSN of a queue pair. -/
def State.qpEpsn (s : State) (q : Nat) : BitVec 24 := BitVec.ofNat 24 (s.num (s.qpAddr q + 8) 3)

/-- The remote end of a queue pair (R403). -/
def State.qpPeer (s : State) (q : Nat) : HostPeer :=
  let v6 := bitAt (s.num (s.qpAddr q + 3) 1) 0
  { v6 := v6, ip := BitVec.ofNat 128 (s.num (s.qpAddr q + 16) (if v6 then 16 else 4)), qpn := BitVec.ofNat 24 (s.num (s.qpAddr q + 4) 3) }

/-- The hub advances EPSN in place (R403). -/
def State.advancePsn (s : State) (q : Nat) (psn : BitVec 24) : State := s.pokeBumped (s.qpAddr q + 8) (leBytes psn.toNat 3)

/-- MSN of a queue pair: bytes 32-34 of its entry (R403; the places of the hub state are a DESIGN CHOICE, log entry 34). -/
def State.qpMsn (s : State) (q : Nat) : BitVec 24 := BitVec.ofNat 24 (s.num (s.qpAddr q + 32) 3)

/-- A message of a queue pair has been performed. -/
def State.countMsn (s : State) (q : Nat) : State := s.pokeBumped (s.qpAddr q + 32) (leBytes (s.qpMsn q + 1).toNat 3)

/-- Whether a sequence NAK stands on a queue pair: bit 0 of byte 35 of its entry (R403, R406). -/
def State.naked (s : State) (q : Nat) : Bool := bitAt (s.num (s.qpAddr q + 35) 1) 0

/-- Sets or ends the sequence NAK of a queue pair. -/
def State.setNaked (s : State) (q : Nat) (b : Bool) : State := s.pokeBumped (s.qpAddr q + 35) [if b then 1 else 0]

/-- A queue pair enters state 2 (R401, R404). -/
def State.qpError (s : State) (q : Nat) : State := s.pokeBumped (s.qpAddr q + 2) [2]

/-- The queue pair that a packet answers for. -/
def HostPacket.qp (p : HostPacket) : Nat :=
  match p with
  | .ack q _ => q
  | .nakSequence q _ => q
  | .nakInvalid q _ => q
  | .nakAccess q _ => q
  | .rnr q _ _ => q
  | .readResponse q _ _ => q
  | .cnp q => q

/-- Sends a packet to the remote end of its queue pair; a pause frame holds it back (R400). -/
def State.hostSend (s : State) (p : HostPacket) : State :=
  (s.setHost (fun h => { h with waiting := h.waiting ++ [{ peer := s.qpPeer p.qp, packet := p }] })).hostFlush

/-- A NAK (R401, R404, R405), counted in NAKSENT. -/
def State.nak (s : State) (p : HostPacket) : State := (s.hpCount 5).hostSend p

/-- Field of region entry `i` (R404). -/
def State.region (s : State) (i off n : Nat) : Nat :=
  let a := s.host.rgtBase.toNat + 32 * i
  if dramEnd < a + 32 then 0 else s.num (a + off) n

/-- Whether some region allows an access (R404). -/
def State.regionAllows (s : State) (job : Nat) (rkey : BitVec 32) (va : Word) (n : Nat) (write : Bool) : Bool :=
  (List.range 256).any (fun i =>
    let base := s.region i 0 8
    bitAt (s.region i 22 1) 0 && s.region i 16 4 = rkey.toNat && s.region i 20 2 = job &&
      bitAt (s.region i 22 1) (if write then 1 else 2) && base ≤ va.toNat && va.toNat + n ≤ base + s.region i 8 8)

/-! ### Accesses -/

/-- The pieces of a byte range that lie in one 4 KiB page each: offset and length. -/
def pagePieces (va n : Nat) : List (Nat × Nat) :=
  if n = 0 then [] else
  (List.range ((va + n - 1) / 4096 + 1 - va / 4096)).map (fun i =>
    let lo := Nat.max va ((va / 4096 + i) * 4096)
    let hi := Nat.min (va + n) ((va / 4096 + i + 1) * 4096)
    (lo - va, hi - lo))

/-- Translates each page of a host access under the job's PTROOT (R404): every page before any byte. -/
def rdmaLeaves (root va : Word) (n : Nat) (write : Bool) : M (List (Leaf × Nat × Nat)) :=
  (pagePieces va.toNat n).mapM (fun p => do
    let leaf ← engineTranslate [536] root (va + BitVec.ofNat 64 p.1) (if write then .write else .read)
    checkM (!(write && leaf.mt = mtDev)) 15 0 va
    pure (leaf, p.1, p.2))

/-- The bytes of one packet of an RDMA WRITE (R404): the lines' versions rise, publication is not checked. -/
def rdmaWrite (q : Nat) (root va : Word) (bs : List Byte) : M Unit := do
  let leaves ← rdmaLeaves root va bs.length true
  leaves.forM (fun x => rowAccessFor (hostWaiter q) x.1 true)
  leaves.forM (fun x => modify (fun s =>
    let t := s.writePhys none 64 x.1 ((bs.drop x.2.1).take x.2.2)
    if x.1.mt = mtCached then (linesOf x.1.pa x.2.2).foldl State.disownLine t else t))

/-- Bytes read from DRAM by the host; those of poisoned granules are free values (log entry 8). -/
def State.hostBytes (s : State) (leaf : Leaf) (n : Nat) : List Byte × State :=
  let (bs, t) := s.readPhys leaf n
  if poisoned t.poison leaf.pa n then
    (bs.mapIdx (fun i b => if poisoned t.poison (leaf.pa + i) 1 then Config.freeByte (t.fresh + i) else b),
      { t with fresh := t.fresh + n })
  else (bs, t)

/-- A byte of device-class space as an agent of a job reads it: of the 8-byte word that holds it (R27). -/
def State.devByte (s : State) (job pa : Nat) : Except Nat Byte :=
  let t := s.setCur (fun c => { c with kind := .control, launch := BitVec.ofNat 64 (job * 2 ^ 48) })
  match t.devLoad (pa / 8 * 8) 8 with
  | .ok (w, _) => .ok (BitVec.ofNat 8 (w.toNat >>> (8 * (pa % 8))))
  | .error c => .error c

/-- The bytes of an RDMA READ (R404, R406). -/
def rdmaRead (q job : Nat) (root va : Word) (n : Nat) : M (List Byte) := do
  let leaves ← rdmaLeaves root va n false
  leaves.forM (fun x => rowAccessFor (hostWaiter q) x.1 false)
  let parts ← leaves.mapM (fun x => do
    let s ← get
    if x.1.mt = mtDev then (List.range x.2.2).mapM (fun i => match s.devByte job (x.1.pa + i) with
      | .ok b => pure b
      | .error c => trapCode c va)
    else
      let (bs, t) := s.hostBytes x.1 x.2.2
      set t
      pure bs)
  pure parts.flatten

/-! ### Requests -/

/-- An ECN mark draws a congestion notification, at most one per queue pair every 50 us (R401). -/
def State.ecnAnswer (s : State) (p : RocePacket) : State :=
  let due := match (s.qp p.qp).lastCnp with
    | some t => t + 50000000 ≤ s.clk
    | none => true
  if p.ecn && due then ((s.setQp p.qp (fun x => { x with lastCnp := some s.clk })).hpCount 7).hostSend (.cnp p.qp) else s

/-- Whether a packet is for the port's own address of its kind: an address of 0 is none (R402). -/
def State.addressed (s : State) (p : RocePacket) : Bool :=
  let own := if p.v6 then s.host.ip6 else s.host.ip4.zeroExtend 128
  own != 0 && p.dst == own

/-- A RoCEv2 packet (R400-R403): nothing is answered while EN = 0; one whose frame is too long, that is not for this port, that does
not come from the remote end of its queue pair, or that names an unused queue pair or a dead job is discarded and counted; one in error is
not answered. `act` takes it under the job's PTROOT. -/
def State.rocePacket (s : State) (p : RocePacket) (act : State → Word → State) : State :=
  s.hostFrame (fun s =>
    if !s.host.en then s
    else if 9216 < p.frame || !s.addressed p then s.hpCount 3
    else match s.qpState p.qp, s.jobRoot (s.qpJob p.qp) with
    | 1, some root =>
      let e := s.qpPeer p.qp
      if e.v6 != p.v6 || e.ip != p.src then s.hpCount 3 else act (s.ecnAnswer p) root
    | 2, some _ => s
    | _, _ => s.hpCount 3)

/-- An invalid request (R401): a NAK, and the queue pair enters the error state. -/
def State.invalidRequest (s : State) (q : Nat) : State := (s.qpError q).nak (.nakInvalid q (s.qpEpsn q))

/-- What a request does when its turn comes (R406): done, or waiting for a group that holds another row (R31), as `error` says. -/
abbrev Served := Except State State

/-- A duplicate SEND or WRITE is acknowledged and not performed again (R406). -/
def State.ackDuplicate (s : State) (p : RocePacket) : Served := .ok (s.hostSend (.ack p.qp p.psn))

/-- Takes a packet in order: EPSN advances, MSN with the last packet of a message, and the packet is acknowledged. -/
def State.takePacket (s : State) (p : RocePacket) : State :=
  let s := s.advancePsn p.qp (p.psn + 1)
  (if p.last then s.countMsn p.qp else s).hostSend (.ack p.qp p.psn)

/-- A message enters the mailbox with the job's next SEQ (R323, R405); the job's best waiter leaves its wait (R324). -/
def State.postMessage (s : State) (job : Nat) (payload : List Byte) : State :=
  let seq := s.hub.seqs.get job 0
  let m : Message := { job := job, seq := seq, arrival := s.time, payload := payload }
  let s1 := s.setHub (fun h => { h with mailbox := h.mailbox ++ [m], seqs := h.seqs.put job (seq + 1) })
  s1.tellReceivers job

/-- The timer of an RNR NAK in ps: 0.64 ms (R405). -/
def rnrTimer : Nat := 640000000

/-- A SEND packet in order (R405). -/
def State.takeSend (s : State) (p : RocePacket) (job : Nat) : State :=
  let whole := (if p.first then [] else (s.qp p.qp).send) ++ p.payload
  if 240 < whole.length then
    ((s.setQp p.qp (fun x => { x with send := [] })).hpCount 9).nak (.nakInvalid p.qp p.psn)
  else if !p.last then (s.setQp p.qp (fun x => { x with send := whole })).takePacket p
  else if 4096 ≤ s.hub.mailbox.length then (s.hpCount 6).hostSend (.rnr p.qp p.psn rnrTimer)
  else ((s.setQp p.qp (fun x => { x with send := [] })).postMessage job whole).takePacket p

/-- A NAK of kind remote access error; the queue pair enters state 2 (R404). -/
def State.accessNak (s : State) (p : RocePacket) : State := (s.qpError p.qp).nak (.nakAccess p.qp p.psn)

/-- An RDMA WRITE packet in order (R404): a First or Only carries the address, key and length of the whole access. -/
def State.takeWrite (s : State) (p : RocePacket) (job : Nat) (root : Word) : Served :=
  let q := s.qp p.qp
  let key := if p.first then p.rkey else q.writeKey
  let va := if p.first then p.va else q.writeVa
  let left := if p.first then p.len else q.writeLeft
  let n := p.payload.length
  if n ≤ left && (n = left || !p.last) && s.regionAllows job key va left true then
    match rdmaWrite p.qp root va p.payload s with
    | .ok (_, t) => .ok ((t.setQp p.qp (fun x => { x with
        writeKey := key, writeVa := va + BitVec.ofNat 64 n, writeLeft := left - n })).takePacket p)
    | .error (.arrive t) => .error (s.arrived t)
    | .error (.hold _) => .error s
    | .error (.trap _ _ keep) => .ok ((s.usesOf (keep.getD s)).accessNak p)
    | .error _ => .ok (s.accessNak p)
  else .ok (s.accessNak p)

/-- Packets of the answer to a READ of `n` bytes at the path MTU of 4,096 bytes (R401); at least one. -/
def readPackets (n : Nat) : Nat := Nat.max 1 (ceilDiv n 4096)

/-- The answers to a READ: one response for each 4,096 bytes, their PSNs from the request's on. -/
def State.answerRead (s : State) (p : RocePacket) (bs : List Byte) : State :=
  (List.range (readPackets p.len)).foldl (fun t i =>
    State.hostSend t (.readResponse p.qp (p.psn + BitVec.ofNat 24 i) ((bs.drop (4096 * i)).take 4096))) s

/-- Performs a READ (R404, R406): `advance` where the packet was the expected one. -/
def State.performRead (s : State) (p : RocePacket) (job : Nat) (root : Word) (advance : Bool) : Served :=
  if s.regionAllows job p.rkey p.va p.len false then
    match rdmaRead p.qp job root p.va p.len s with
    | .ok (bs, t) =>
      let t := if advance then (t.advancePsn p.qp (p.psn + BitVec.ofNat 24 (readPackets p.len))).countMsn p.qp else t
      .ok (t.answerRead p bs)
    | .error (.arrive t) => .error (s.arrived t)
    | .error (.hold _) => .error s
    | .error (.trap _ _ keep) => .ok ((s.usesOf (keep.getD s)).accessNak p)
    | .error _ => .ok (s.accessNak p)
  else .ok (s.accessNak p)

/-- Performs a request of a kind, expected or a duplicate (R404-R406). -/
def State.serve (s : State) (i : Instr) (p : RocePacket) (root : Word) (expected : Bool) : Served :=
  let job := s.qpJob p.qp
  match i with
  | .roceRdmaRead => s.performRead p job root expected
  | .roceRdmaWrite => if expected then s.takeWrite p job root else s.ackDuplicate p
  | _ => if expected then .ok (s.takeSend p job) else s.ackDuplicate p

/-- A request in the order of its PSN (R406): one ahead of EPSN draws one sequence NAK until EPSN arrives; one that has to wait for a
group takes its effect when it is tried again. -/
def State.takeRequest (s : State) (i : Instr) (p : RocePacket) (root : Word) : State :=
  let ahead := (p.psn - s.qpEpsn p.qp).toNat
  let r : Served :=
    if ahead = 0 then (s.setNaked p.qp false).serve i p root true
    else if 2 ^ 23 ≤ ahead then s.serve i p root false
    else if s.naked p.qp then .ok s
    else .ok ((s.setNaked p.qp true).nak (.nakSequence p.qp (s.qpEpsn p.qp)))
  match r with
  | .ok t => t
  | .error t => s.holdInput t i (.roce p)

/-- Whether an input is a request of a queue pair. -/
def isRoceOf (x : EventInput) (q : Nat) : Bool :=
  match x with
  | .roce p => p.qp == q
  | _ => false

/-- A request of the host (R401-R406): a payload above the path MTU is invalid, and one behind a request of its queue pair that waits
for a group waits with it. -/
def State.roceRequest (s : State) (i : Instr) : State :=
  match s.input with
  | .roce p => s.rocePacket p (fun s root =>
      if 4096 < p.payload.length then s.invalidRequest p.qp
      else if s.waitingIn.any (fun e => isRoceOf e.2 p.qp) then { s with waitingIn := s.waitingIn ++ [(i, .roce p)] }
      else s.takeRequest i p root)
  | _ => s

/-- A request that waited for a group is tried again (R31, R406), unless its queue pair serves no more. -/
def State.retryHost (s : State) (i : Instr) (p : RocePacket) : State :=
  match s.qpState p.qp, s.jobRoot (s.qpJob p.qp) with
  | 1, some root => s.takeRequest i p root
  | _, _ => s

/-- ROCE_SEND (R405). -/
def execRoceSend (s : State) : Host.Outcome State Fault Refusal := .next (s.roceRequest .roceSend)

/-- ROCE_RDMA_WRITE (R404). -/
def execRoceRdmaWrite (s : State) : Host.Outcome State Fault Refusal := .next (s.roceRequest .roceRdmaWrite)

/-- ROCE_RDMA_READ (R404, R406). -/
def execRoceRdmaRead (s : State) : Host.Outcome State Fault Refusal := .next (s.roceRequest .roceRdmaRead)

/-- ROCE_UNSUPPORTED (R401). -/
def execRoceUnsupported (s : State) : Host.Outcome State Fault Refusal :=
  .next (match s.input with
    | .roce p => s.rocePacket p (fun s _ => s.invalidRequest p.qp)
    | _ => s)

/-- A frame whose frame check sequence is wrong is discarded and counted (R402). -/
def State.badFrame (s : State) : State := if s.host.link then s.hpCount 2 else s

/-- ROCE_ICRC_FAIL (R401): discarded without a NAK. -/
def execRoceIcrcFail (s : State) : Host.Outcome State Fault Refusal := .next (s.hostFrame (fun s => s.hpCount 4))

/-- HOST_FRAME_OTHER (R400): discarded and counted. -/
def execHostFrameOther (s : State) : Host.Outcome State Fault Refusal := .next (s.hostFrame (fun s => s.hpCount 3))

/-- CNP_RECEIVED (R401): the rate of the queue pair's READ responses halves. One that names an unused queue pair or a dead job is
discarded and counted, and one in error changes nothing (R403). -/
def execCnpReceived (s : State) : Host.Outcome State Fault Refusal :=
  let q := s.input.n1
  .next (s.hostFrame (fun s =>
    match s.qpState q, s.jobRoot (s.qpJob q) with
    | 1, some _ => (s.hpCount 8).setQp q (fun x => { x with rate := x.rate / 2, rateAt := s.clk })
    | 2, some _ => s
    | _, _ => s.hpCount 3))

/-- READ_RATE_RAISE (R401): by 1/16 of line rate every 55 us, up to the full rate. -/
def execReadRateRaise (s : State) : Host.Outcome State Fault Refusal :=
  let q := s.input.n1
  .next (if q < 4096 && (s.qp q).rate < 2 ^ 32 && (s.qp q).rateAt + 55000000 ≤ s.clk then
      s.setQp q (fun x => { x with rate := Nat.min (x.rate + 2 ^ 28) (2 ^ 32), rateAt := s.clk })
    else s)

/-- PAUSE_FRAME_RECEIVED (R400): transmission pauses for the time the frame requests, in quanta of 512 bit times at 800 Gb/s. -/
def execPauseFrameReceived (s : State) : Host.Outcome State Fault Refusal :=
  let quanta := s.input.n1 % 65536
  .next (s.hostFrame (fun s => (s.setHost (fun h => { h with pausedUntil := s.clk + quanta * 640 })).hostFlush))

/-- HOST_PORT_LINK_CHANGE (R402). -/
def execHostPortLinkChange (s : State) : Host.Outcome State Fault Refusal :=
  .next (s.setHost (fun h => { h with link := s.input.n1 = 1 }))

end Sys2Proof.Machine
end

