-- ==== Sys2Proof/Machine/MemOrder.lean ====
section
/-! DEFINITION. Class 6, OPs 0, 1 and 14 to 16: fences (R237, R238), amo (R259-R262), versioned lines (R249-R252); and the
hub-to-base-die channels (R253-R256). -/

namespace Sys2Proof.Machine

/-! ### Fences -/

/-- A fence that releases at its scope (R232, R238); what it orders beyond that holds in every step of this model (log entry
1). -/
def releaseFence (f : Fields) (s : State) : Res := .done (s.release (f.sub 3 3))

/-- FENCE_FULL (R238). -/
def execFenceFull (f : Fields) (s : State) : Host.Outcome State Fault Refusal := issue (.fenceFull f) (releaseFence f) s

/-- FENCE_ACQ (R238). -/
def execFenceAcq (f : Fields) (s : State) : Host.Outcome State Fault Refusal := issue (.fenceAcq f) .done s

/-- FENCE_REL (R238). -/
def execFenceRel (f : Fields) (s : State) : Host.Outcome State Fault Refusal := issue (.fenceRel f) (releaseFence f) s

/-- FENCE_SV (R72, R238): the vector reads after it see the stores before it. -/
def execFenceSv (f : Fields) (s : State) : Host.Outcome State Fault Refusal := issue (.fenceSv f) (fun s => .done s.fenceStores) s

/-- FENCE_VS (R238). -/
def execFenceVs (f : Fields) (s : State) : Host.Outcome State Fault Refusal := issue (.fenceVs f) .done s

/-- FENCE_ROW (R238): it covers row writes only, none of which is on a CHK page, so it publishes nothing. -/
def execFenceRow (f : Fields) (s : State) : Host.Outcome State Fault Refusal := issue (.fenceRow f) .done s

/-! ### amo -/

/-- The value an amo writes, if it writes (R260): `w` bits, old value, operand and expected value. -/
def amoNew (aop w old b d : Nat) : Option Nat :=
  let b := b % 2 ^ w
  match aop with
  | 0 => some b
  | 1 => some ((old + b) % 2 ^ w)
  | 2 => some (old &&& b)
  | 3 => some (old ||| b)
  | 4 => some (old ^^^ b)
  | 5 => some (if sextN old w < sextN b w then b else old)
  | 6 => some (if sextN b w < sextN old w then b else old)
  | 7 => some (Nat.max old b)
  | 8 => some (Nat.min old b)
  | _ => if old = d % 2 ^ w then some b else none

/-- Where an amo on CACHED memory runs (R262): the predictor and the counters AMOLOCAL and AMOHUB. -/
def State.countAmo (s : State) (pa : Nat) : State :=
  let line := pa / 128
  if s.cur.kind != .tower then s.disownLine line else
  let t := s.cur.place
  let i := fld pa 7 8
  let n := (s.tower t).predictor.get i 0
  let owner := s.lineOwner.find line
  if n < 2 then
    let n2 := if owner = some t then n - 1 else if owner.isSome then Nat.min 3 (n + 1) else n
    (s.setTower t (fun w => { w with predictor := w.predictor.put i n2, amoLocal := satInc w.amoLocal })).ownLine t line
  else
    let other := (s.lineHolders.get line []).any (· != t)
    (s.setTower t (fun w => { w with predictor := w.predictor.put i (if other then n else n - 1), amoHub := satInc w.amoHub })).disownLine line

/-- AMO (R259-R262). -/
def execAmo (f : Fields) (s : State) : Host.Outcome State Fault Refusal :=
  issue (.amo f) (runBody (do
    let s ← get
    let n := 2 ^ f.sub 21 2
    let scope := f.sub 18 3
    let rel := f.sub 17 1 = 1
    let va := s.reg f.a + offS f 16
    let b := (s.reg f.b).toNat
    let d := (s.reg f.d).toNat
    checkM (va.toNat % n == 0) 3 3 va
    let leaf ← translateM va .readWrite
    checkM (leaf.mt != mtDev) 17 6 va
    accessChecks va leaf n true false
    rowAccess leaf true
    let s ← get
    checkM (!poisoned s.poison leaf.pa n) 21 0 va
    if rel then modify (fun s => s.release scope)
    let (bs, t) := (← get).readPhys leaf n
    set ((if leaf.mt = mtCached then t.countAmo leaf.pa else t).readSettles leaf n)
    let old := leValue bs
    match amoNew (f.sub 23 4) (8 * n) old b d with
    | some v => modify (fun s =>
        let t := s.writePhys (if s.cur.kind = .cairn then none else some s.cur.reqid) 64 leaf (leBytes v n)
        if s.cur.kind = .cairn then t.bumpRegion leaf.pa n else t)
    | none => pure ()
    if rel then modify (fun s => s.release scope)
    modify (fun s => s.setReg f.d (BitVec.ofNat 64 old)))) s

/-! ### Versioned lines -/

/-- The address of ldv and casv, with its alignment (R249, R251). -/
def versionedAddr (f : Fields) : M Word := do
  let va := (← get).reg f.a + offS f 22
  checkM (va.toNat % 8 == 0) 3 5 va
  pure va

/-- LDV (R249). -/
def execLdv (f : Fields) (s : State) : Host.Outcome State Fault Refusal :=
  issue (.ldv f) (runBody (do
    let va ← versionedAddr f
    let rcd := f.sub 27 1 = 1
    checkM (!rcd || (← get).cur.vset.length != 8) 16 1 va
    let leaf ← translateM va .read
    checkM (leaf.mt == mtCached && leaf.ver) 16 0 va
    let (v, _) ← loadM va 8 .read
    modify (fun s =>
      let ver := versionOf s.versions (leaf.pa / 128)
      let s := (s.setReg f.d (BitVec.ofNat 64 v)).setReg f.b (BitVec.ofNat 64 ver)
      if rcd then s.setCur (fun c => { c with vset := c.vset ++ [(va >>> 7, leaf.pa / 128, ver)] }) else s))) s

/-- The result of valid: 0, or 1 more than the index of the first entry whose version has changed (R250). -/
def validate (versions : SMap Nat) (set_ : List (Word × Nat × Nat)) : Nat :=
  match findIdx (fun (e : Word × Nat × Nat) => versionOf versions e.2.1 != e.2.2) set_ 0 with
  | some i => 1 + i
  | none => 0

/-- VALID (R250). -/
def execValid (f : Fields) (s : State) : Host.Outcome State Fault Refusal :=
  issue (.valid f) (fun s =>
    .done ((s.setReg f.d (BitVec.ofNat 64 (validate s.versions s.cur.vset))).setCur (fun c => { c with vset := [] }))) s

/-- CASV (R251): a release and an acquire at .d. -/
def execCasv (f : Fields) (s : State) : Host.Outcome State Fault Refusal :=
  issue (.casv f) (runBody (do
    let va ← versionedAddr f
    let s ← get
    let b := s.reg f.b
    let d := s.reg f.d
    let leaf ← translateM va .readWrite
    checkM (leaf.mt == mtCached && leaf.ver) 16 0 va
    accessChecks va leaf 8 true false
    let s ← get
    checkM (!poisoned s.poison leaf.pa 8) 21 0 va
    modify (fun s => s.release 3)
    let old := versionOf s.versions (leaf.pa / 128)
    if old = fld d.toNat 0 48 then storeAt leaf (leBytes b.toNat 8)
    modify (fun s => (s.release 3).setReg f.d (BitVec.ofNat 64 old)))) s

/-! ### The hub-to-base-die channels -/

/-- The channel of a block (R253). -/
def channelOf (pa : Nat) : Nat := (fld pa 31 4) ^^^ (fld pa 6 4)

/-- The requests outstanding on a channel of a stack. -/
def State.channelBusy (s : State) (stack ch : Nat) : List ChannelRequest := s.hub.channels.filter (fun r => r.stack == stack && r.channel == ch)

/-- The waiter that a request of a channel is at a group (R31): stack, channel and tag. -/
def channelWaiter (stack pa tag : Nat) : Nat := 2 ^ 62 + (stack % 8 * 16 + channelOf pa) * 8 + tag % 8

/-- Whether an input that waits for a group is the request of a waiter. -/
def isChannelWait (e : Instr × EventInput) (who : Nat) : Bool :=
  match e with
  | (.channelRead, .nums k pa tag) => channelWaiter k pa tag == who
  | (.channelMaskedWrite, .block k pa tag _ _) => channelWaiter k pa tag == who
  | _ => false

/-- Whether a request with a tag may be sent: its tag is free (R253). -/
def State.channelFree (s : State) (stack pa tag : Nat) : Bool :=
  tag < 8 && !((s.channelBusy stack (channelOf pa)).any (fun r => r.tag == tag)) &&
    !(s.waitingIn.any (fun e => isChannelWait e (channelWaiter stack pa tag)))

/-- Adds a request whose reply is fixed (R254, R255). -/
def State.sendChannel (s : State) (r : ChannelRequest) : State := s.setHub (fun h => { h with channels := h.channels ++ [r] })

/-- The 64-byte block of an address of 40 bits. -/
def blockOf (pa : Nat) : Nat := pa % 2 ^ 40 / 64 * 64

/-- POIS of a block (R254). -/
def poisBits (p : List Nat) (a : Nat) : Nat := (if poisoned p a 32 then 1 else 0) + (if poisoned p (a + 32) 32 then 2 else 0)

/-- A request to a stack that is not the target (R254). -/
def targetError (stack pa tag : Nat) (read : Bool) : ChannelRequest :=
  { stack := stack, channel := channelOf pa, tag := tag, read := read, status := 2, pois := 0, data := [] }

/-- A read of the block at an address on a channel of a stack (R254, R255). Where the group holds another row the request waits, in the
order of its arrival (R31). -/
def State.channelRead (s : State) (k pa tag : Nat) : State :=
  let stack := k % 8
  let a := blockOf pa
  if !s.channelFree stack pa tag then s
  else if fld pa 37 3 != stack then s.sendChannel (targetError stack pa tag true)
  else match s.rowServeFor (channelWaiter k pa tag) a false with
    | none => s.holdInput (s.rowJoin a (channelWaiter k pa tag)) .channelRead (.nums k pa tag)
    | some s =>
      let p := poisBits s.poison a
      s.sendChannel { stack := stack, channel := channelOf pa, tag := tag, read := true, status := if p = 0 then 0 else 1
                      pois := p, data := s.dramBytes a 64 }

/-- CHANNEL_READ (R254, R255): a block of stack n1 at n2 with tag n3. -/
def execChannelRead (s : State) : Host.Outcome State Fault Refusal := .next (s.channelRead s.input.n1 s.input.n2 s.input.n3)

/-- The block after a masked write (R256). -/
def maskedBlock (old : List Byte) (mask : BitVec 64) (data : BitVec 512) : List Byte :=
  (old.zip (List.range 64)).map (fun p => if mask.getLsbD p.2 then data.extractLsb' (8 * p.2) 8 else p.1)

/-- Whether granule `g` of a block is wholly written, or partly. -/
def granuleMask (mask : BitVec 64) (g : Nat) : BitVec 32 := mask.extractLsb' (32 * g) 32

/-- A masked write of a block of DRAM (R256): the state, and POIS of the granules that stay poisoned. -/
def State.maskedWrite (s : State) (a : Nat) (mask : BitVec 64) (data : BitVec 512) : State × Nat :=
  let full := fun (g : Nat) => granuleMask mask g = BitVec.allOnes 32
  let part := fun (g : Nat) => granuleMask mask g != 0 && !full g
  let pois := [0, 1].foldl (fun p g => if full g then clearPoison p (a + 32 * g) 32 else p) s.poison
  let bad := fun (g : Nat) => part g && poisoned s.poison (a + 32 * g) 32
  ((({ (s.settleStores true a 64).dramPoke a (maskedBlock (s.dramBytes a 64) mask data) with poison := pois }).bumpRegion a 64).watch a 64, (if bad 0 then 1 else 0) + (if bad 1 then 2 else 0))

/-- A masked write of the block at an address on a channel of a stack (R254-R256); it waits as a read does. -/
def State.channelWrite (s : State) (k pa tag : Nat) (mask : BitVec 64) (data : BitVec 512) : State :=
  let stack := k % 8
  let a := blockOf pa
  let reply : ChannelRequest := { stack := stack, channel := channelOf pa, tag := tag, read := false, status := 0, pois := 0, data := [] }
  if !s.channelFree stack pa tag then s
  else if fld pa 37 3 != stack then s.sendChannel (targetError stack pa tag false)
  else if mask = 0 then s.sendChannel reply
  else match s.rowServeFor (channelWaiter k pa tag) a true with
    | none => s.holdInput (s.rowJoin a (channelWaiter k pa tag)) .channelMaskedWrite (.block k pa tag mask data)
    | some s =>
      let (s2, p) := s.maskedWrite a mask data
      s2.sendChannel { reply with status := if p = 0 then 0 else 1, pois := p }

/-- CHANNEL_MASKED_WRITE (R254-R256). -/
def execChannelMaskedWrite (s : State) : Host.Outcome State Fault Refusal :=
  .next (match s.input with
    | .block k pa tag mask data => s.channelWrite k pa tag mask data
    | _ => s)

/-- CHANNEL_REFUSED_OPC (R254): no access. A request that is also for another stack is answered STATUS 3: the manual does not order 2
and 3 (DESIGN CHOICE, log entry 29). -/
def execChannelRefusedOpc (s : State) : Host.Outcome State Fault Refusal :=
  let stack := s.input.n1 % 8
  .next (if s.channelFree stack s.input.n2 s.input.n3 then
    s.sendChannel { targetError stack s.input.n2 s.input.n3 false with status := 3 } else s)

/-- CHANNEL_REPLY (R253, R255): the reply to tag n3 of channel n2 of stack n1 frees the tag. -/
def execChannelReply (s : State) : Host.Outcome State Fault Refusal :=
  .next (s.setHub (fun h => { h with channels := h.channels.filter (fun r =>
    !(r.stack == s.input.n1 && r.channel == s.input.n2 && r.tag == s.input.n3)) }))

end Sys2Proof.Machine
end

