-- ==== Sys2Proof/Machine/Pace.lean ====
section
/-! DEFINITION. Collective pace (R388-R392, R411): a member's request, the coordinator's agreements and their application. An
event whose condition does not hold changes nothing (log entry 9). -/

namespace Sys2Proof.Machine

/-- Changes the pace unit. -/
def State.setPace (s : State) (f : Pace → Pace) : State := { s with pace := f s.pace }

/-- The member list: the device IDs of the PACEMEM entries with V = 1 (R388). -/
def State.paceMembers (s : State) : List Nat :=
  (s.hub.paceMem.filterMap (fun e => if e.2.getLsbD 15 then some (fld e.2.toNat 0 13) else none)).eraseDups

/-- The coordinator: the member with the lowest device ID (R388). -/
def State.coordinator (s : State) : Option Nat :=
  s.paceMembers.foldl (fun m d => match m with
    | none => some d
    | some e => some (Nat.min d e)) none

/-- Whether this device is a member and the coordinator of its group. -/
def State.coordinates (s : State) : Bool := s.pace.en && s.coordinator == some s.devId

/-- The request a member sends (R388), at least 4 while a floor of R395 remains. -/
def State.paceDemand (s : State) : Nat :=
  let level := s.islands.toList.foldl (fun m i => Nat.max m i.level) (Nat.max s.pace.level s.power.gov)
  let floors := Nat.max (if s.islands.any (fun i => i.held7) then 7 else 0) (if s.peak || s.islands.any (fun i => i.floor) then 4 else 0)
  Nat.max (Nat.max level floors) (if s.islands.any (fun i => i.cap) then 2 else 0)

/-- A pace packet of this device (R411). -/
def State.pacePacket (s : State) (level : Nat) (number : BitVec 32) (stamp : Word) : PacePacket :=
  { src := s.devId, group := s.pace.group, level := level, number := number, stamp := stamp, sent := s.time.extractLsb' 0 32 }

/-! ### The member -/

/-- A level applies (R390): CUR, the log entry of R396, class 22, subcode 5. -/
def State.applyPace (s : State) (level : Nat) (number : BitVec 32) : State :=
  let s1 := s.setPace (fun p => { p with cur := level, applied := number })
  ((s1.hwLog 6 0 (BitVec.ofNat 64 level) (number.zeroExtend 64)).raiseMip 5 (BitVec.ofNat 64 level)).dropBoost

/-- Puts an agreement among those that wait, in number order (R390). -/
def insertAgreement (a : Agreement) : List Agreement → List Agreement
  | [] => [a]
  | b :: r => if below a.number b.number then a :: b :: r else b :: insertAgreement a r

/-- The agreements that wait for their stamps, in number order. -/
def Pace.waiting (p : Pace) : List Agreement :=
  (if p.pending then [{ level := p.next, number := p.number, stamp := p.stamp, missing := [], sentAt := 0 }] else []) ++ p.later

/-- Sets what waits: NEXT, PENDING and the stamp show the first (R388). -/
def Pace.setWaiting (p : Pace) (l : List Agreement) : Pace :=
  match l with
  | [] => { p with pending := false, later := [] }
  | a :: r => { p with pending := true, next := a.level, number := a.number, stamp := a.stamp, later := r }

/-- A member takes an agreement (R390): it waits for its stamp; one whose stamp has passed applies at once with class 22,
subcode 10 (R392). A number already taken, or below one applied, changes nothing. -/
def State.takeAgreement (s : State) (level : Nat) (number : BitVec 32) (stamp : Word) (coord : Nat) : State :=
  let s1 := s.setPace (fun p => { p with coordHeard := s.clk, degraded := false })
  if !below s1.pace.applied number || s1.pace.waiting.any (fun a => a.number == number) then s1
  else if stamp.toNat < s1.time.toNat then
    let s2 := s1.setPace (fun p => p.setWaiting (p.waiting.filter (fun a => below number a.number)))
    (s2.applyPace level number).raiseMip 10 (BitVec.ofNat 64 coord)
  else s1.setPace (fun p => p.setWaiting (insertAgreement
    { level := level, number := number, stamp := stamp, missing := [], sentAt := 0 } p.waiting))

/-! ### The coordinator -/

/-- The request the coordinator holds of a member: 0 before the first. -/
def State.requestOfMember (s : State) (d : Nat) : Nat := s.pace.requests.get d 0

/-- Whether every member's request stands below A (R390). -/
def State.allBelow (s : State) : Bool := s.paceMembers.all (fun d => s.requestOfMember d < s.pace.agreed)

/-- Follows how long every request has stood below A (R390). -/
def State.followBelow (s : State) : State :=
  s.setPace (fun p => { p with belowSince := if s.allBelow then some (p.belowSince.getD s.clk) else none })

/-- The coordinator agrees on a level (R390): numbered, stamped 50 us ahead, sent to every member. -/
def State.agree (s : State) (level : Nat) : State :=
  let number := s.pace.agreedNo + 1
  let stamp := s.time + 50000
  let rest := s.paceMembers.filter (· ≠ s.devId)
  let a : Agreement := { level := level, number := number, stamp := stamp, missing := rest, sentAt := s.clk }
  let s1 := s.setPace (fun p => { p with
    agreed := level, agreedNo := number, lastAgreement := s.clk, belowSince := none,
    agreements := if rest.isEmpty then p.agreements else p.agreements ++ [a] })
  let s2 := rest.foldl (fun t d => State.emit t (.paceAgreement d (t.pacePacket level number stamp))) s1
  (s2.takeAgreement level number stamp s2.devId).followBelow

/-- The coordinator keeps a member's request, and agrees at once where it is above A (R390). -/
def State.keepRequest (s : State) (d level : Nat) : State :=
  let s1 := s.setPace (fun p => { p with requests := p.requests.put d level })
  if s1.pace.agreed < level then s1.agree (s1.paceMembers.foldl (fun m d => Nat.max m (s1.requestOfMember d)) 0)
  else s1.followBelow

/-- Marks a member as heard. -/
def State.hearMember (s : State) (d : Nat) : State := s.setPace (fun p => { p with heard := p.heard.put d s.clk })

/-! ### Packets -/

/-- Whether a device accepts a pace packet (R389). -/
def State.acceptsPace (s : State) (p : PacePacket) : Bool :=
  s.pace.en && p.group == s.pace.group && s.paceMembers.contains p.src

/-- A pace packet more than 2 ms old by SENT (R411). -/
def State.paceStale (s : State) (p : PacePacket) : Bool := 2000000 < (s.time.extractLsb' 0 32 - p.sent).toNat

/-- A pace packet arrives (R389, R411, R412): counted, dropped with DROPPED where it is not accepted, dropped when stale. -/
def State.paceArrives (s : State) (act : State → PacePacket → State) : State :=
  match s.input with
  | .pace p =>
    if s.acceptsPace p then
      let t := s.received p.src 1
      if t.paceStale p then t else act t p
    else
      (s.received p.src 1).efCount s.arrivedBy 5 1
  | _ => s

/-- PACE_REQUEST (R390): when the request changes, and every 100 us. -/
def execPaceRequest (s : State) : Host.Outcome State Fault Refusal :=
  let level := s.paceDemand
  let due := match s.pace.sentAt with
    | none => true
    | some t => level ≠ s.pace.sentLevel || t + 100000000 ≤ s.clk
  .next (match s.coordinator with
    | some c =>
      if s.pace.en && due then
        let t := s.setPace (fun p => { p with sentLevel := level, sentAt := some s.clk })
        if c = s.devId then (t.hearMember c).keepRequest c level
        else t.emit (.paceRequest c (t.pacePacket level t.pace.applied 0))
      else s
    | none => s)

/-- PACE_REQUEST_RECEIVED (R390). -/
def execPaceRequestReceived (s : State) : Host.Outcome State Fault Refusal :=
  .next (s.paceArrives (fun t p => if t.coordinates then (t.hearMember p.src).keepRequest p.src (p.level % 8) else t))

/-- PACE_FALL_DWELL (R390): every request below A, and no agreement, for 2 ms. -/
def execPaceFallDwell (s : State) : Host.Outcome State Fault Refusal :=
  .next (match s.pace.belowSince with
    | some t =>
      if s.coordinates && 0 < s.pace.agreed && t + 2000000000 ≤ s.clk && s.pace.lastAgreement + 2000000000 ≤ s.clk then
        s.agree (s.pace.agreed - 1)
      else s
    | none => s)

/-- PACE_AGREEMENT_RECEIVED (R390, R392): taken and acknowledged. -/
def execPaceAgreementReceived (s : State) : Host.Outcome State Fault Refusal :=
  .next (s.paceArrives (fun t p =>
    let u := t.takeAgreement (p.level % 8) p.number p.stamp p.src
    u.emit (.paceAck p.src (u.pacePacket 0 p.number 0))))

/-- PACE_AGREEMENT_APPLY (R390): at the stamp, CUR := NEXT. -/
def execPaceAgreementApply (s : State) : Host.Outcome State Fault Refusal :=
  .next (if s.pace.en && s.pace.pending && !s.pace.degraded && s.pace.stamp.toNat ≤ s.time.toNat then
      (s.setPace (fun p => p.setWaiting p.later)).applyPace s.pace.next s.pace.number
    else s)

/-- PACE_ACK_RECEIVED (R392). -/
def execPaceAckReceived (s : State) : Host.Outcome State Fault Refusal :=
  .next (s.paceArrives (fun t p =>
    (t.hearMember p.src).setPace (fun q => { q with
      agreements := (q.agreements.map (fun a => if a.number = p.number then { a with missing := a.missing.filter (· ≠ p.src) } else a)).filter
        (fun a => !a.missing.isEmpty) })))

/-- Resends one agreement to the members that have not acknowledged it (R392). -/
def State.resendAgreement (s : State) (a : Agreement) : State :=
  if a.sentAt + 10000000 ≤ s.clk then
    let s1 := (a.missing.filter s.paceMembers.contains).foldl
      (fun t d => State.emit t (.paceAgreement d (t.pacePacket a.level a.number a.stamp))) s
    s1.setPace (fun p => { p with
      agreements := p.agreements.map (fun b => if b.number = a.number then { b with sentAt := s.clk } else b) })
  else s

/-- PACE_AGREEMENT_RESEND (R392): every 10 us. -/
def execPaceAgreementResend (s : State) : Host.Outcome State Fault Refusal :=
  .next (if s.coordinates then s.pace.agreements.foldl State.resendAgreement s else s)

/-- PACE_MEMBER_SILENT (R392): a member silent for 1 ms counts as requesting 7. -/
def execPaceMemberSilent (s : State) : Host.Outcome State Fault Refusal :=
  let d := s.input.n1
  .next (if s.coordinates && d ≠ s.devId && s.paceMembers.contains d &&
      s.pace.heard.get d s.pace.joined + 1000000000 ≤ s.clk then s.keepRequest d 7 else s)

/-- PACE_COORDINATOR_SILENT (R392): level 7, with class 22, subcode 10, until an agreement is received. -/
def execPaceCoordinatorSilent (s : State) : Host.Outcome State Fault Refusal :=
  .next (match s.coordinator with
    | some c =>
      if s.pace.en && c ≠ s.devId && !s.pace.degraded && s.pace.coordHeard + 1000000000 ≤ s.clk then
        ((s.setPace (fun p => { p with cur := 7, degraded := true })).raiseMip 10 (BitVec.ofNat 64 c)).dropBoost
      else s
    | none => s)

end Sys2Proof.Machine
end

