-- ==== Sys2Proof/Machine/Scalar.lean ====
section
/-! DEFINITION. Class 0, OPs 0 to 30: integer arithmetic (R76, R77), bit operations (R78), immediates, select and
addresses (R79). -/

namespace Sys2Proof.Machine

/-- sD := op(sA, b) with b from FORM (R75, R76). -/
def binaryBody (f : Fields) (op : Word → Word → Word) (s : State) : Res :=
  .done (s.setReg f.d (op (s.reg f.a) (operandB f s)))

/-- A division: class 2, subcode 0 on a zero divisor, then the overflow test, with TVAL a (R77). -/
def divideBody (f : Fields) (ovf : Word → Word → Bool) (op : Word → Word → Word) (s : State) : Res :=
  let a := s.reg f.a
  let b := operandB f s
  if b = 0 then .trap s (2 * 16) a {}
  else if ovf a b then .trap s (2 * 16 + 1) a {}
  else .done (s.setReg f.d (op a b))

/-- Quotient toward zero of two's-complement values. -/
def divSigned (a b : Word) : Word := toWord (Int.tdiv a.toInt b.toInt)

/-- Remainder with the sign of a. -/
def remSigned (a b : Word) : Word := toWord (Int.tmod a.toInt b.toInt)

/-- (a x b)[127:64], both signed. -/
def mulHighSigned (a b : Word) : Word := toWord ((a.toInt * b.toInt) / 2 ^ 64)

/-- (a x b)[127:64], both unsigned. -/
def mulHighUnsigned (a b : Word) : Word := BitVec.ofNat 64 (a.toNat * b.toNat / 2 ^ 64)

/-- Number of leading zero bits of the low `n` bits of a value. -/
def leadingZeros (v : Nat) : Nat → Nat
  | 0 => 0
  | n + 1 => if bitAt v n then 0 else 1 + leadingZeros v n

/-- Number of trailing zero bits among `n` bits from bit `i`. -/
def trailingZeros (v i : Nat) : Nat → Nat
  | 0 => 0
  | n + 1 => if bitAt v i then 0 else 1 + trailingZeros v (i + 1) n

/-- Number of one bits among the low `n`. -/
def popCount (v : Nat) : Nat → Nat
  | 0 => 0
  | n + 1 => (if bitAt v n then 1 else 0) + popCount v n

/-- sD := op(sA) (R78). -/
def unaryBody (f : Fields) (op : Word → Word) (s : State) : Res := .done (s.setReg f.d (op (s.reg f.a)))

/-- The 14 parameter bits of bext and bins (R78). -/
def fieldParams (f : Fields) (s : State) : Nat := if f.form = 0 then fld (s.reg f.b).toNat 0 14 else f.sub 0 14

/-- The field of bext. -/
def extractField (p : Nat) (a : Word) : Word :=
  let x := fld a.toNat (fld p 0 6) (fld p 6 7)
  if bitAt p 13 then toWord (sextN x (fld p 6 7)) else BitVec.ofNat 64 x

/-- The insertion of bins. -/
def insertField (p : Nat) (a d : Word) : Word :=
  let pos := fld p 0 6
  let mask := (2 ^ fld p 6 7 - 1) * 2 ^ pos
  (d &&& ~~~(BitVec.ofNat 64 mask)) ||| BitVec.ofNat 64 ((a.toNat % 2 ^ fld p 6 7) * 2 ^ pos)

/-- Whether a bit field is out of range (R78). -/
def badField (p : Nat) (ins : Bool) : Bool := fld p 6 7 = 0 || 64 < fld p 0 6 + fld p 6 7 || (ins && bitAt p 13)

/-- bext (R78). -/
def bextBody (f : Fields) (s : State) : Res :=
  let p := fieldParams f s
  if badField p false then .trap s (2 * 16 + 2) (BitVec.ofNat 64 p) {}
  else .done (s.setReg f.d (extractField p (s.reg f.a)))

/-- bins (R78). -/
def binsBody (f : Fields) (s : State) : Res :=
  let p := fieldParams f s
  if badField p true then .trap s (2 * 16 + 2) (BitVec.ofNat 64 p) {}
  else .done (s.setReg f.d (insertField p (s.reg f.a) (s.reg f.d)))

/-- NOP (R76). -/
def execNop (f : Fields) (s : State) : Host.Outcome State Fault Refusal := issue (.nop f) .done s

/-- ADD (R76). -/
def execAdd (f : Fields) (s : State) : Host.Outcome State Fault Refusal := issue (.add f) (binaryBody f (· + ·)) s

/-- SUB (R76). -/
def execSub (f : Fields) (s : State) : Host.Outcome State Fault Refusal := issue (.sub f) (binaryBody f (· - ·)) s

/-- AND (R76). -/
def execAnd (f : Fields) (s : State) : Host.Outcome State Fault Refusal := issue (.and f) (binaryBody f (· &&& ·)) s

/-- OR (R76). -/
def execOr (f : Fields) (s : State) : Host.Outcome State Fault Refusal := issue (.or f) (binaryBody f (· ||| ·)) s

/-- XOR (R76). -/
def execXor (f : Fields) (s : State) : Host.Outcome State Fault Refusal := issue (.xor f) (binaryBody f (· ^^^ ·)) s

/-- SLL (R76): the amount is b[5:0]. -/
def execSll (f : Fields) (s : State) : Host.Outcome State Fault Refusal :=
  issue (.sll f) (binaryBody f (fun a b => a <<< (b.toNat % 64))) s

/-- SRL (R76). -/
def execSrl (f : Fields) (s : State) : Host.Outcome State Fault Refusal :=
  issue (.srl f) (binaryBody f (fun a b => a >>> (b.toNat % 64))) s

/-- SRA (R76). -/
def execSra (f : Fields) (s : State) : Host.Outcome State Fault Refusal :=
  issue (.sra f) (binaryBody f (fun a b => a.sshiftRight (b.toNat % 64))) s

/-- SLT (R76). -/
def execSlt (f : Fields) (s : State) : Host.Outcome State Fault Refusal :=
  issue (.slt f) (binaryBody f (fun a b => boolWord (a.slt b))) s

/-- SLTZ (R76). -/
def execSltz (f : Fields) (s : State) : Host.Outcome State Fault Refusal :=
  issue (.sltz f) (binaryBody f (fun a b => boolWord (a.ult b))) s

/-- MUL (R76). -/
def execMul (f : Fields) (s : State) : Host.Outcome State Fault Refusal := issue (.mul f) (binaryBody f (· * ·)) s

/-- MULH (R76). -/
def execMulh (f : Fields) (s : State) : Host.Outcome State Fault Refusal := issue (.mulh f) (binaryBody f mulHighSigned) s

/-- MULHZ (R76). -/
def execMulhz (f : Fields) (s : State) : Host.Outcome State Fault Refusal := issue (.mulhz f) (binaryBody f mulHighUnsigned) s

/-- DIV (R77): -2^63 / -1 traps class 2, subcode 1. -/
def execDiv (f : Fields) (s : State) : Host.Outcome State Fault Refusal :=
  issue (.div f) (divideBody f (fun a b => a = BitVec.intMin 64 && b = BitVec.allOnes 64) divSigned) s

/-- DIVZ (R77). -/
def execDivz (f : Fields) (s : State) : Host.Outcome State Fault Refusal :=
  issue (.divz f) (divideBody f (fun _ _ => false) (fun a b => a / b)) s

/-- REM (R77). -/
def execRem (f : Fields) (s : State) : Host.Outcome State Fault Refusal :=
  issue (.rem f) (divideBody f (fun _ _ => false) remSigned) s

/-- REMZ (R77). -/
def execRemz (f : Fields) (s : State) : Host.Outcome State Fault Refusal :=
  issue (.remz f) (divideBody f (fun _ _ => false) (fun a b => a % b)) s

/-- MIN (R76). -/
def execMin (f : Fields) (s : State) : Host.Outcome State Fault Refusal :=
  issue (.min f) (binaryBody f (fun a b => if a.slt b then a else b)) s

/-- MAX (R76). -/
def execMax (f : Fields) (s : State) : Host.Outcome State Fault Refusal :=
  issue (.max f) (binaryBody f (fun a b => if a.slt b then b else a)) s

/-- MINZ (R76). -/
def execMinz (f : Fields) (s : State) : Host.Outcome State Fault Refusal :=
  issue (.minz f) (binaryBody f (fun a b => if a.ult b then a else b)) s

/-- MAXZ (R76). -/
def execMaxz (f : Fields) (s : State) : Host.Outcome State Fault Refusal :=
  issue (.maxz f) (binaryBody f (fun a b => if a.ult b then b else a)) s

/-- CLZ (R78). -/
def execClz (f : Fields) (s : State) : Host.Outcome State Fault Refusal :=
  issue (.clz f) (unaryBody f (fun a => BitVec.ofNat 64 (leadingZeros a.toNat 64))) s

/-- CTZ (R78). -/
def execCtz (f : Fields) (s : State) : Host.Outcome State Fault Refusal :=
  issue (.ctz f) (unaryBody f (fun a => BitVec.ofNat 64 (trailingZeros a.toNat 0 64))) s

/-- POP (R78). -/
def execPop (f : Fields) (s : State) : Host.Outcome State Fault Refusal :=
  issue (.pop f) (unaryBody f (fun a => BitVec.ofNat 64 (popCount a.toNat 64))) s

/-- BEXT (R78). -/
def execBext (f : Fields) (s : State) : Host.Outcome State Fault Refusal := issue (.bext f) (bextBody f) s

/-- BINS (R78). -/
def execBins (f : Fields) (s : State) : Host.Outcome State Fault Refusal := issue (.bins f) (binsBody f) s

/-- LIH (R79). -/
def execLih (f : Fields) (s : State) : Host.Outcome State Fault Refusal :=
  issue (.lih f) (unaryBody f (fun a => a <<< 28 + f.imm.zeroExtend 64)) s

/-- LI (R79). -/
def execLi (f : Fields) (s : State) : Host.Outcome State Fault Refusal :=
  issue (.li f) (fun s => .done (s.setReg f.d (immS f))) s

/-- SEL (R79): D is read and written. -/
def execSel (f : Fields) (s : State) : Host.Outcome State Fault Refusal :=
  issue (.sel f) (fun s => .done (s.setReg f.d (if s.reg f.d ≠ 0 then s.reg f.a else operandB f s))) s

/-- ADR (R79). -/
def execAdr (f : Fields) (s : State) : Host.Outcome State Fault Refusal :=
  issue (.adr f) (fun s => .done (s.setReg f.d (targetOf s f 28))) s

end Sys2Proof.Machine
end

