-- ==== Sys2Proof/Machine/ScalarMem.lean ====
section
/-! DEFINITION. Class 1: loads, stores and prefetch (R81-R84), branches and jumps (R85), smb (R86), bk (R87), bt (R88). -/

namespace Sys2Proof.Machine

/-- Bytes of SZ, IMM28[27:26] (R81). -/
def accessSize (f : Fields) : Nat := 2 ^ f.sub 26 2

/-- Address of ld, st and pf: sA + SExt(IMM28[24:0]) (R81). -/
def address25 (f : Fields) (s : State) : Word := s.reg f.a + offS f 25

/-- Address of lda and stl: sA + SExt(IMM28[21:0]) (R81). -/
def address22 (f : Fields) (s : State) : Word := s.reg f.a + offS f 22

/-- The register value of loaded bytes: sign-extended when SX = 1 (R81). -/
def extendLoad (f : Fields) (v : Nat) : Word :=
  if f.sub 25 1 = 1 then toWord (sextN v (8 * accessSize f)) else BitVec.ofNat 64 v

/-- A load of the hart into sD; `sub` is the alignment subcode (R81, R82). -/
def loadInto (f : Fields) (va : Word) (sub : Nat) : M Unit := do
  checkM (va.toNat % accessSize f == 0) 3 sub va
  let (v, _) ← loadM va (accessSize f) .read
  modify (fun s => s.setReg f.d (extendLoad f v))

/-- A store of the low bytes of sD (R81, R82). -/
def storeFrom (f : Fields) (va : Word) (sub : Nat) : M Unit := do
  checkM (va.toNat % accessSize f == 0) 3 sub va
  storeM va (accessSize f) ((← get).reg f.d)

/-- LD (R82). -/
def execLd (f : Fields) (s : State) : Host.Outcome State Fault Refusal :=
  issue (.ld f) (runBody (loadInto f (address25 f s) 1)) s

/-- ST (R82). -/
def execSt (f : Fields) (s : State) : Host.Outcome State Fault Refusal :=
  issue (.st f) (runBody (storeFrom f (address25 f s) 1)) s

/-- LDA (R83): an acquire at SCOPE. -/
def execLda (f : Fields) (s : State) : Host.Outcome State Fault Refusal :=
  issue (.lda f) (runBody (loadInto f (address22 f s) 2)) s

/-- STL (R83): a release at SCOPE, before the store performs. Its own line is published with it, but a later row read of the hart may
still miss its own store (R72). -/
def execStl (f : Fields) (s : State) : Host.Outcome State Fault Refusal :=
  issue (.stl f) (runBody (do
    let va := address22 f (← get)
    checkM (va.toNat % accessSize f == 0) 3 2 va
    modify (fun s => s.release (f.sub 22 3))
    storeM va (accessSize f) ((← get).reg f.d)
    modify (fun s => s.releaseBy s.cur.reqid (f.sub 22 3)))) s

/-- PF (R84): a hint that never traps and changes no architectural state. With W = 1 it takes no write ownership of the line that R262
would show (DESIGN CHOICE, log entry 18). -/
def execPf (f : Fields) (s : State) : Host.Outcome State Fault Refusal := issue (.pf f) .done s

/-- The condition of b.cond (R85). -/
def condition (c : Nat) (a b : Word) : Bool :=
  match c with
  | 0 => a == b
  | 1 => a != b
  | 2 => a.slt b
  | 3 => !(a.slt b)
  | 4 => a.ult b
  | 5 => !(a.ult b)
  | 6 => a != 0
  | _ => a == 0

/-- Takes a branch to a target of `n` offset bits, or goes on (R85). -/
def branchTo (f : Fields) (n : Nat) (taken : Bool) (s : State) : Res :=
  if taken then .jump s (targetOf s f n) else .done s

/-- B_COND (R85). -/
def execBCond (f : Fields) (s : State) : Host.Outcome State Fault Refusal :=
  issue (.bCond f) (fun s => branchTo f 24 (condition (f.sub 24 4) (s.reg f.a) (s.reg f.b)) s) s

/-- J (R85). -/
def execJ (f : Fields) (s : State) : Host.Outcome State Fault Refusal := issue (.j f) (branchTo f 28 true) s

/-- JL (R85). -/
def execJl (f : Fields) (s : State) : Host.Outcome State Fault Refusal :=
  issue (.jl f) (fun s => .jump (s.setReg f.d (s.cur.pc + 8)) (targetOf s f 28)) s

/-- JR (R85): sA is read before sD is written; a target not a multiple of 8 traps with nothing changed. -/
def execJr (f : Fields) (s : State) : Host.Outcome State Fault Refusal :=
  issue (.jr f) (fun s =>
    let t := s.reg f.a + immS f
    if t.toNat % 8 != 0 then .trap s (3 * 16) t {} else .jump (s.setReg f.d (s.cur.pc + 8)) t) s

/-- VL as a hart reads it: 0 off a tower (R57). -/
def Ctx.vlRead (c : Ctx) : Word := if c.kind = .tower then c.vl else 0

/-- The scalar step of smb: sD, s(A) to s(A + n), the step and the target (R86). -/
def smbStep (d a : BitVec 6) (n : Nat) (target : Word) (s : State) : Res :=
  let vl := s.cur.vlRead
  let x := s.reg d
  let step := BitVec.ofNat 64 (ceilDiv (vl.toNat * ewOf s.cur.vcfg) 8)
  if vl = 0 && x != 0 then .trap s (2 * 16 + 4) x {}
  else if x.toNat < vl.toNat then .trap s (2 * 16 + 3) x {}
  else
    let s1 := s.setReg d (x - vl)
    let s2 := (List.range (n + 1)).foldl (fun s i => s.setReg (a + BitVec.ofNat 6 i) (s.reg (a + BitVec.ofNat 6 i) + step)) s1
    if x - vl != 0 then .jump s2 target else .done s2

/-- SMB (R86). -/
def execSmb (f : Fields) (s : State) : Host.Outcome State Fault Refusal :=
  issue (.smb f) (fun s => smbStep f.d f.a (f.sub 26 2) (targetOf s f 24) s) s

/-- BK (R87): the mask bits that govern elements 0 to VL - 1. -/
def execBk (f : Fields) (s : State) : Host.Outcome State Fault Refusal :=
  issue (.bk f) (fun s =>
    let k := f.a.toNat - 48
    let vg := vgOf s.cur.vcfg
    if k % vg != 0 then .trap s (11 * 16 + 5) (f.a.zeroExtend 64) {} else
    let bits := (List.range s.cur.vl.toNat).map (fun e => s.cur.maskBit k e (ewOf s.cur.vcfg))
    let taken := match f.sub 26 2 with
      | 0 => bits.any id
      | 1 => bits.all id
      | _ => !(bits.any id)
    branchTo f 24 taken (if k = 0 then s else (List.range vg).foldl (fun s i => State.acquireMask s (k + i)) s)) s

/-- BT (R88): CTB bit tag, on Cairn 0; a taken bt.set acquires the transfer. -/
def execBt (f : Fields) (s : State) : Host.Outcome State Fault Refusal :=
  issue (.bt f) (fun s =>
    let tag := f.sub 22 6
    let bit := s.cur.kind != .cairn && s.cur.ctb.getLsbD tag
    let clr := f.sub 21 1 = 1
    if !clr && bit then .jump (s.acquireTag tag) (targetOf s f 21) else branchTo f 21 (clr && !bit) s) s

end Sys2Proof.Machine
end

