-- ==== Sys2Proof/Machine/Vector.lean ====
section
/-! DEFINITION. Class 3, OPs 0 to 42: configuration (R119, R120), integer arithmetic (R132), width changes (R133), compares
(R134), element moves (R135) and integer reductions (R136). -/

namespace Sys2Proof.Machine

/-- SETVL (R119). -/
def execSetvl (f : Fields) (s : State) : Host.Outcome State Fault Refusal :=
  issue (.setvl f) (fun s =>
    let req := if f.form = 0 then s.reg f.a else f.imm.zeroExtend 64
    .done ((s.setCur (fun c => c.grantVl req.toNat)).setReg f.d req)) s

/-- SETCFG (R120): the checks of R116 and R117, then VCFG, the clamp of VL and ESTART := 0. -/
def execSetcfg (f : Fields) (s : State) : Host.Outcome State Fault Refusal :=
  issue (.setcfg f) (fun s =>
    let v := BitVec.ofNat 64 (if f.form = 0 then fld (s.reg f.a).toNat 0 12 else f.sub 0 12)
    match vcfgFault v with
    | some (code, isWord) => .trap s code (if isWord then wordOfInstr (.setcfg f) else v) {}
    | none => .done ((s.setCur (fun c => { c.putVcfg v with estart := 0 })).setReg f.d s.cur.vcfg)) s

/-- The operands of an element-wise integer operation (R132): w, a, b, d. -/
structure IntArgs where
  w : Nat
  a : Nat
  b : Nat
  d : Nat
  sg : Bool

/-- a as an integer under a signedness. -/
def IntArgs.ia (x : IntArgs) (sg : Bool) : Int := asInt sg x.a x.w

/-- b as an integer under a signedness. -/
def IntArgs.ib (x : IntArgs) (sg : Bool) : Int := asInt sg x.b x.w

/-- The element-wise integer instructions of R132. `byFc` asks for FC 0 to 7; `readsD` is vmacc. -/
def intBody (f : Fields) (byFc readsD : Bool) (op : IntArgs → Int) : M Unit := do
  let s ← get
  let vcfg := s.cur.vcfg
  let vg := vgOf vcfg
  let ew := ewOf vcfg
  let _ ← vecChecks { fcOk := !byFc || fcInteger vcfg, rows := [(f.d, vg, true), (f.a, vg, false)] ++ rowsB f vg, masks := maskOf f,
                       touch := Ctx.reachesFrom f }
  readMasks (maskOf f) vg
  let s ← get
  let gd := rowField f.d
  let ga := rowField f.a
  let val := fun e => (lowN (op { w := ew, a := s.elem ga e ew, b := operandVB f s e ew, d := s.elem gd e ew, sg := fcSigned vcfg }) ew, 0)
  let pois := fun e => s.elemPoisoned ga e ew || poisonVB f s e ew || (readsD && s.elemPoisoned gd e ew)
  finishElts gd vg ew (eltsOf f s.cur s.cur.estart.toNat val pois)

/-- VADD (R132): a + b. -/
def execVadd (f : Fields) (s : State) : Host.Outcome State Fault Refusal :=
  issue (.vadd f) (runBody (intBody f false false (fun x => (x.a : Int) + x.b))) s

/-- VSUB (R132): a - b. -/
def execVsub (f : Fields) (s : State) : Host.Outcome State Fault Refusal :=
  issue (.vsub f) (runBody (intBody f false false (fun x => (x.a : Int) - x.b))) s

/-- VRSUB (R132): b - a. -/
def execVrsub (f : Fields) (s : State) : Host.Outcome State Fault Refusal :=
  issue (.vrsub f) (runBody (intBody f false false (fun x => (x.b : Int) - x.a))) s

/-- VMUL (R132): low half of a x b. -/
def execVmul (f : Fields) (s : State) : Host.Outcome State Fault Refusal :=
  issue (.vmul f) (runBody (intBody f false false (fun x => (x.a : Int) * x.b))) s

/-- VMULH (R132): high half of a x b under FC. -/
def execVmulh (f : Fields) (s : State) : Host.Outcome State Fault Refusal :=
  issue (.vmulh f) (runBody (intBody f true false (fun x => (x.ia x.sg * x.ib x.sg) / 2 ^ x.w))) s

/-- VMACC (R132): d + a x b. -/
def execVmacc (f : Fields) (s : State) : Host.Outcome State Fault Refusal :=
  issue (.vmacc f) (runBody (intBody f false true (fun x => (x.d : Int) + x.a * x.b))) s

/-- VADDS (R132): signed saturating sum. -/
def execVadds (f : Fields) (s : State) : Host.Outcome State Fault Refusal :=
  issue (.vadds f) (runBody (intBody f false false (fun x => clampInt (intLow 0 x.w) (intHigh 0 x.w) (x.ia true + x.ib true)))) s

/-- VADDSZ (R132): unsigned saturating sum. -/
def execVaddsz (f : Fields) (s : State) : Host.Outcome State Fault Refusal :=
  issue (.vaddsz f) (runBody (intBody f false false (fun x => clampInt 0 (intHigh 1 x.w) (x.ia false + x.ib false)))) s

/-- VSUBS (R132): signed saturating difference. -/
def execVsubs (f : Fields) (s : State) : Host.Outcome State Fault Refusal :=
  issue (.vsubs f) (runBody (intBody f false false (fun x => clampInt (intLow 0 x.w) (intHigh 0 x.w) (x.ia true - x.ib true)))) s

/-- VSUBSZ (R132): unsigned saturating difference. -/
def execVsubsz (f : Fields) (s : State) : Host.Outcome State Fault Refusal :=
  issue (.vsubsz f) (runBody (intBody f false false (fun x => clampInt 0 (intHigh 1 x.w) (x.ia false - x.ib false)))) s

/-- VAVG (R132): rounded average under FC. -/
def execVavg (f : Fields) (s : State) : Host.Outcome State Fault Refusal :=
  issue (.vavg f) (runBody (intBody f true false (fun x => (x.ia x.sg + x.ib x.sg + 1) / 2))) s

/-- VABSD (R132): absolute difference under FC. -/
def execVabsd (f : Fields) (s : State) : Host.Outcome State Fault Refusal :=
  issue (.vabsd f) (runBody (intBody f true false (fun x => ((x.ia x.sg - x.ib x.sg).natAbs : Int)))) s

/-- VMIN (R132): signed. -/
def execVmin (f : Fields) (s : State) : Host.Outcome State Fault Refusal :=
  issue (.vmin f) (runBody (intBody f false false (fun x => min (x.ia true) (x.ib true)))) s

/-- VMAX (R132): signed. -/
def execVmax (f : Fields) (s : State) : Host.Outcome State Fault Refusal :=
  issue (.vmax f) (runBody (intBody f false false (fun x => max (x.ia true) (x.ib true)))) s

/-- VMINZ (R132): unsigned. -/
def execVminz (f : Fields) (s : State) : Host.Outcome State Fault Refusal :=
  issue (.vminz f) (runBody (intBody f false false (fun x => min (x.ia false) (x.ib false)))) s

/-- VMAXZ (R132): unsigned. -/
def execVmaxz (f : Fields) (s : State) : Host.Outcome State Fault Refusal :=
  issue (.vmaxz f) (runBody (intBody f false false (fun x => max (x.ia false) (x.ib false)))) s

/-- VAND (R132): bitwise. -/
def execVand (f : Fields) (s : State) : Host.Outcome State Fault Refusal :=
  issue (.vand f) (runBody (intBody f false false (fun x => ((x.a &&& x.b : Nat) : Int)))) s

/-- VOR (R132): bitwise. -/
def execVor (f : Fields) (s : State) : Host.Outcome State Fault Refusal :=
  issue (.vor f) (runBody (intBody f false false (fun x => ((x.a ||| x.b : Nat) : Int)))) s

/-- VXOR (R132): bitwise. -/
def execVxor (f : Fields) (s : State) : Host.Outcome State Fault Refusal :=
  issue (.vxor f) (runBody (intBody f false false (fun x => ((x.a ^^^ x.b : Nat) : Int)))) s

/-- VSLL (R132): shift by b mod ew. -/
def execVsll (f : Fields) (s : State) : Host.Outcome State Fault Refusal :=
  issue (.vsll f) (runBody (intBody f false false (fun x => ((x.a * 2 ^ (x.b % x.w) : Nat) : Int)))) s

/-- VSRL (R132): shift by b mod ew. -/
def execVsrl (f : Fields) (s : State) : Host.Outcome State Fault Refusal :=
  issue (.vsrl f) (runBody (intBody f false false (fun x => ((x.a / 2 ^ (x.b % x.w) : Nat) : Int)))) s

/-- VSRA (R132): arithmetic shift by b mod ew. -/
def execVsra (f : Fields) (s : State) : Host.Outcome State Fault Refusal :=
  issue (.vsra f) (runBody (intBody f false false (fun x => x.ia true / 2 ^ (x.b % x.w)))) s

/-! ### Width changes (R133) -/

/-- The value vnsra rounds, shifts and clamps. -/
def narrowShift (a b w : Nat) : Int :=
  let sh := b % (2 * w)
  let x := sextN a (2 * w)
  let x := if 0 < sh then x + 2 ^ (sh - 1) else x
  clampInt (intLow 0 w) (intHigh 0 w) (x / 2 ^ sh)

/-- VNSRA (R133). -/
def execVnsra (f : Fields) (s : State) : Host.Outcome State Fault Refusal :=
  issue (.vnsra f) (runBody (do
    let s ← get
    let vcfg := s.cur.vcfg
    let vg := vgOf vcfg
    let ew := ewOf vcfg
    let _ ← vecChecks
      { packed := false, widthOk := ew != 64 && vg != 8,
        rows := [(f.d, vg, true), (f.a, 2 * vg, false)] ++ rowsB f (2 * vg), masks := maskOf f, touch := Ctx.reaches f 0 }
    readMasks (maskOf f) vg
    let s ← get
    let ga := rowField f.a
    finishWhole (rowField f.d) vg ew (eltsOf f s.cur 0
      (fun e => (lowN (narrowShift (s.elem ga e (2 * ew)) (operandVB f s e (2 * ew)) ew) ew, 0))
      (fun e => s.elemPoisoned ga e (2 * ew) || poisonVB f s e (2 * ew))))) s

/-- vwadd and vwmul (R133): exact results of twice the width. -/
def widenBody (f : Fields) (op : Int → Int → Int) : M Unit := do
  let s ← get
  let vcfg := s.cur.vcfg
  let vg := vgOf vcfg
  let ew := ewOf vcfg
  let _ ← vecChecks
    { packed := false, fcOk := fcInteger vcfg, widthOk := ew != 64 && vg != 8,
      rows := [(f.d, 2 * vg, true), (f.a, vg, false)] ++ rowsB f vg, masks := maskOf f, touch := Ctx.reaches f 0 }
  readMasks (maskOf f) vg
  let s ← get
  let ga := rowField f.a
  let sg := fcSigned vcfg
  finishWhole (rowField f.d) (2 * vg) (2 * ew) (eltsOf f s.cur 0
    (fun e => (lowN (op (asInt sg (s.elem ga e ew) ew) (asInt sg (operandVB f s e ew) ew)) (2 * ew), 0))
    (fun e => s.elemPoisoned ga e ew || poisonVB f s e ew))

/-- VWADD (R133). -/
def execVwadd (f : Fields) (s : State) : Host.Outcome State Fault Refusal :=
  issue (.vwadd f) (runBody (widenBody f (fun a b => a + b))) s

/-- VWMUL (R133). -/
def execVwmul (f : Fields) (s : State) : Host.Outcome State Fault Refusal :=
  issue (.vwmul f) (runBody (widenBody f (fun a b => a * b))) s

/-- b(4j + i) of vdot4: an element of B, or a byte group of the scalar (R133). -/
def dotOperand (f : Fields) (s : State) (e w : Nat) : Nat :=
  if f.form = 0 then s.elem (rowField f.b) e w else fld (s.reg f.b).toNat (e % 4 * w) w

/-- VDOT4 (R133): element j of D is governed by Mask(M, 4j). -/
def execVdot4 (f : Fields) (s : State) : Host.Outcome State Fault Refusal :=
  issue (.vdot4 f) (runBody (do
    let s ← get
    let vcfg := s.cur.vcfg
    let vg := vgOf vcfg
    let ew := ewOf vcfg
    let _ ← vecChecks
      { packed := false, fcOk := fcInteger vcfg, widthOk := ew = 8 || ew = 16, lengthOk := s.cur.vl.toNat % 4 = 0,
        rows := [(f.d, vg, true), (f.a, vg, false)] ++ rowsB f vg, masks := maskOf f, touch := Ctx.reachesAll f }
    readMasks (maskOf f) vg
    let s ← get
    let ga := rowField f.a
    let gd := rowField f.d
    let sg := fcSigned vcfg
    let es := (List.range (s.cur.vl.toNat / 4)).filterMap (fun j =>
      if s.cur.active f.m.toNat (4 * j) ew then
        let sum := (List.range 4).foldl (fun (t : Int) i =>
          t + asInt sg (s.elem ga (4 * j + i) ew) ew * asInt sg (dotOperand f s (4 * j + i) ew) ew) (s.elem gd j (4 * ew) : Int)
        let p := s.elemPoisoned gd j (4 * ew) || (List.range 4).any (fun i =>
          s.elemPoisoned ga (4 * j + i) ew || poisonVB f s (4 * j + i) ew)
        some { e := j, v := lowN sum (4 * ew), pois := p : Elt }
      else if f.mz then some { e := j, v := 0 } else none)
    finishWhole gd vg (4 * ew) es)) s

/-! ### Compares (R134) -/

/-- The element-wise integer compares. -/
def compareBody (f : Fields) (op : IntArgs → Bool) : M Unit := do
  let s ← get
  let vcfg := s.cur.vcfg
  let vg := vgOf vcfg
  let ew := ewOf vcfg
  let _ ← vecChecks { rows := [(f.a, vg, false)] ++ rowsB f vg, masks := maskField f.d ++ maskOf f, touch := Ctx.reachesFrom f }
  readMasks (maskOf f) vg
  let s ← get
  let ga := rowField f.a
  finishMask (f.d.toNat - 48) ew (eltsOf f s.cur s.cur.estart.toNat
    (fun e => (if op { w := ew, a := s.elem ga e ew, b := operandVB f s e ew, d := 0, sg := false } then 1 else 0, 0))
    (fun e => s.elemPoisoned ga e ew || poisonVB f s e ew))

/-- VCMPEQ (R134). -/
def execVcmpeq (f : Fields) (s : State) : Host.Outcome State Fault Refusal :=
  issue (.vcmpeq f) (runBody (compareBody f (fun x => x.a == x.b))) s

/-- VCMPNE (R134). -/
def execVcmpne (f : Fields) (s : State) : Host.Outcome State Fault Refusal :=
  issue (.vcmpne f) (runBody (compareBody f (fun x => x.a != x.b))) s

/-- VCMPLT (R134). -/
def execVcmplt (f : Fields) (s : State) : Host.Outcome State Fault Refusal :=
  issue (.vcmplt f) (runBody (compareBody f (fun x => x.ia true < x.ib true))) s

/-- VCMPLE (R134). -/
def execVcmple (f : Fields) (s : State) : Host.Outcome State Fault Refusal :=
  issue (.vcmple f) (runBody (compareBody f (fun x => x.ia true ≤ x.ib true))) s

/-- VCMPLTZ (R134). -/
def execVcmpltz (f : Fields) (s : State) : Host.Outcome State Fault Refusal :=
  issue (.vcmpltz f) (runBody (compareBody f (fun x => x.a < x.b))) s

/-- VCMPLEZ (R134). -/
def execVcmplez (f : Fields) (s : State) : Host.Outcome State Fault Refusal :=
  issue (.vcmplez f) (runBody (compareBody f (fun x => x.a ≤ x.b))) s

/-! ### Element moves (R135) -/

/-- VMERGE (R135): a where the mask bit is 1, else b, for every element in range. -/
def execVmerge (f : Fields) (s : State) : Host.Outcome State Fault Refusal :=
  issue (.vmerge f) (runBody (do
    let s ← get
    let vcfg := s.cur.vcfg
    let vg := vgOf vcfg
    let ew := ewOf vcfg
    let _ ← vecChecks { rows := [(f.d, vg, true), (f.a, vg, false)] ++ rowsB f vg, masks := maskOf f, touch := Ctx.reachesFrom { f with m := 0 } }
    readMasks (maskOf f) vg
    let s ← get
    let ga := rowField f.a
    let first := s.cur.estart.toNat
    finishElts (rowField f.d) vg ew ((List.range (s.cur.vl.toNat - first)).map (fun i =>
      let e := first + i
      if s.cur.active f.m.toNat e ew then { e := e, v := s.elem ga e ew, pois := s.elemPoisoned ga e ew : Elt }
      else { e := e, v := operandVB f s e ew, pois := poisonVB f s e ew })))) s

/-- vmov (R135): a row, a scalar or an immediate into each element. -/
def vmovBody (f : Fields) : M Unit := do
  let s ← get
  let vcfg := s.cur.vcfg
  let vg := vgOf vcfg
  let ew := ewOf vcfg
  let _ ← vecChecks { rows := [(f.d, vg, true)] ++ (if f.form = 0 then [(f.a, vg, false)] else []), masks := maskOf f,
                       touch := Ctx.reachesFrom f }
  readMasks (maskOf f) vg
  let s ← get
  let ga := rowField f.a
  finishElts (rowField f.d) vg ew (eltsOf f s.cur s.cur.estart.toNat
    (fun e => (if f.form = 0 then s.elem ga e ew else operandVB f s e ew, 0))
    (fun e => f.form = 0 && s.elemPoisoned ga e ew))

/-- VMOV (R135). -/
def execVmov (f : Fields) (s : State) : Host.Outcome State Fault Refusal := issue (.vmov f) (runBody (vmovBody f)) s

/-- The element index of vext and vins (R135). -/
def extIndex (f : Fields) (s : State) : Nat := if f.form = 1 then (s.reg f.b).toNat else f.sub 0 16

/-- A `w`-bit element as a scalar: sign-extended under a signed integer FC (R135, R143). -/
def elemScalar (vcfg : Word) (v w : Nat) : Int :=
  if fcOf vcfg % 32 ≤ 6 && fcSigned vcfg then sextN v w else (v % 2 ^ w : Nat)

/-- VEXT (R130, R135). -/
def execVext (f : Fields) (s : State) : Host.Outcome State Fault Refusal :=
  issue (.vext f) (runBody (do
    let s ← get
    let vcfg := s.cur.vcfg
    let vg := vgOf vcfg
    let ew := ewOf vcfg
    let i := extIndex f s
    let _ ← vecChecks { packed := false, rows := [(f.a, vg, false)], index := some i, touch := fun c _ => c.reachesOne i }
    let s ← get
    checkM (!s.elemPoisoned (rowField f.a) i ew) 21 0 (BitVec.ofNat 64 i)
    set ((s.setCur (fun c => { c with estart := 0 })).setReg f.d (toWord (elemScalar vcfg (s.elem (rowField f.a) i ew) ew))))) s

/-- VINS (R135). -/
def execVins (f : Fields) (s : State) : Host.Outcome State Fault Refusal :=
  issue (.vins f) (runBody (do
    let s ← get
    let vcfg := s.cur.vcfg
    let vg := vgOf vcfg
    let ew := ewOf vcfg
    let i := extIndex f s
    let _ ← vecChecks { packed := false, rows := [(f.d, vg, true)], index := some i, touch := fun c _ => c.reachesOne i }
    let s ← get
    finishWhole (rowField f.d) vg ew [{ e := i, v := (s.reg f.a).toNat % 2 ^ ew }])) s

/-! ### Integer reductions (R136) -/

/-- The reductions: `op` folds the values, under a signedness. -/
def reduceBody (f : Fields) (byFc : Bool) (op : Int → Int → Int) : M Unit := do
  let s ← get
  let vcfg := s.cur.vcfg
  let vg := vgOf vcfg
  let ew := ewOf vcfg
  let _ ← vecChecks
    { packed := false, fcOk := !byFc || fcInteger vcfg,
      rows := [(f.d, vg, true), (f.a, vg, false)] ++ rowsB f vg, masks := maskOf f, touch := Ctx.reachesReduced f }
  readMasks (maskOf f) vg
  let s ← get
  let ga := rowField f.a
  let sg := byFc && fcSigned vcfg
  let act := (List.range s.cur.vl.toNat).filter (fun e => s.cur.active f.m.toNat e ew)
  let r := act.foldl (fun t e => op t (asInt sg (s.elem ga e ew) ew)) (asInt sg (operandVB f s 0 ew) ew)
  let p := act.any (fun e => s.elemPoisoned ga e ew) || poisonVB f s 0 ew
  finishWhole (rowField f.d) vg ew [{ e := 0, v := lowN r ew, pois := p }]

/-- VREDSUM (R136). -/
def execVredsum (f : Fields) (s : State) : Host.Outcome State Fault Refusal :=
  issue (.vredsum f) (runBody (reduceBody f true (fun a b => a + b))) s

/-- VREDMIN (R136). -/
def execVredmin (f : Fields) (s : State) : Host.Outcome State Fault Refusal :=
  issue (.vredmin f) (runBody (reduceBody f true (fun a b => min a b))) s

/-- VREDMAX (R136). -/
def execVredmax (f : Fields) (s : State) : Host.Outcome State Fault Refusal :=
  issue (.vredmax f) (runBody (reduceBody f true (fun a b => max a b))) s

/-- VREDAND (R136). -/
def execVredand (f : Fields) (s : State) : Host.Outcome State Fault Refusal :=
  issue (.vredand f) (runBody (reduceBody f false (fun a b => ((a.toNat &&& b.toNat : Nat) : Int)))) s

/-- VREDOR (R136). -/
def execVredor (f : Fields) (s : State) : Host.Outcome State Fault Refusal :=
  issue (.vredor f) (runBody (reduceBody f false (fun a b => ((a.toNat ||| b.toNat : Nat) : Int)))) s

end Sys2Proof.Machine
end

