-- ==== Sys2Proof/Machine/Pair.lean ====
section
/-! DEFINITION. Pair words (R48-R53): the full-form equivalent of each half, its decode checks, and the issue of both halves:
scalar effects together, then the queue halves in order. -/

namespace Sys2Proof.Machine

/-- The register field of a half's 4-bit scalar field (R49). -/
def halfScalar (v : BitVec 4) (second : Bool) : BitVec 6 := BitVec.ofNat 6 (v.toNat + if second then 16 else 0)

/-- The register field of a half's 4-bit row field (R49). -/
def halfRow (v : BitVec 4) (second : Bool) : BitVec 6 := BitVec.ofNat 6 (32 + v.toNat % 8 + if second then 8 else 0)

/-- The full-form equivalent of a half (R53). -/
def halfEquiv (h : Half) (second : Bool) : Option Instr :=
  let d := halfScalar h.d second
  let a := halfScalar h.a second
  let od := halfRow h.d second
  let oa := halfRow h.a second
  let imm := h.imm.signExtend 28
  let f : Fields := { form := 0, d := d, a := a, b := 0, m := 0, mz := false, imm := 0 }
  let twoOp : Fields := { f with a := d, b := a }
  let rows : Fields := { f with d := od, a := od, b := oa }
  match h.hop.toNat with
  | 0 => some (.nop { f with d := 0, a := 0 })
  | 1 => some (.add twoOp)
  | 2 => some (.add { f with form := 2, imm := imm })
  | 3 => some (.sub twoOp)
  | 4 => some (.and twoOp)
  | 5 => some (.and { f with form := 2, imm := imm })
  | 6 => some (.or twoOp)
  | 7 => some (.xor twoOp)
  | 8 => some (.sll { f with form := 2, imm := h.imm.zeroExtend 28 })
  | 9 => some (.srl { f with form := 2, imm := h.imm.zeroExtend 28 })
  | 10 => some (.sra { f with form := 2, imm := h.imm.zeroExtend 28 })
  | 11 => some (.li { f with form := 2, a := 0, imm := imm })
  | 12 => some (.add { f with form := 2 })
  | 13 => some (.ld { f with form := 2, imm := 3#2 ++ 0#1 ++ h.imm.signExtend 25 <<< 3 })
  | 14 => some (.st { f with form := 2, imm := 3#2 ++ 0#1 ++ h.imm.signExtend 25 <<< 3 })
  | 15 => some (.bCond { f with form := 3, d := 0, a := d, imm := 6#4 ++ h.imm.signExtend 24 })
  | 16 => some (.act { f with form := 2, d := od, imm := imm })
  | 17 => some (.wb { f with d := od, a := 0 })
  | 18 => some (.pre { f with d := od, a := 0 })
  | 19 => some (.vadd rows)
  | 20 => some (.vsub rows)
  | 21 => some (.vmul rows)
  | 22 => some (.vand rows)
  | 23 => some (.vor rows)
  | 24 => some (.vxor rows)
  | 25 => some (.vmov { f with d := od, a := oa })
  | 26 => some (.vmacc { f with form := 2, d := od, a := oa, imm := imm })
  | 27 => some (.setvl f)
  | 28 => some (.smb { f with form := 3, imm := 0#4 ++ h.imm.signExtend 24 })
  | _ => none

/-- Whether a half enters the vector queue (R50). -/
def halfQueued (h : Half) : Bool := 16 ≤ h.hop.toNat && h.hop.toNat ≤ 27

/-- The row fields of a half lie in its bank (R49). -/
def halfRowsOk (h : Half) : Bool :=
  let n := h.hop.toNat
  !(16 ≤ n && n ≤ 26) || (h.d.toNat < 8 && (n < 19 || h.a.toNat < 8))

/-- The first decode check that a half fails on a hart (R56): subcodes 11, 13, 12, 10, 4, 3, 8. -/
def halfFault (h : Half) (second : Bool) (k : HartKind) : Option Nat :=
  let n := h.hop.toNat
  match halfEquiv h second with
  | none => some 11
  | some i =>
    if (match opcodeOf i with
        | some (c, o, _) => classExcluded k c o
        | none => false) then some 13
    else if !(halfRowsOk h) then some 10
    else if n = 28 && halfScalar h.a second = 0 then some 4
    else if n = 28 && h.a = h.d then some 3
    else if 8 ≤ n && n ≤ 10 && 64 ≤ h.imm.toNat then some 8
    else none

/-- Rules 2, 4 and 5 of R51 on one half. -/
def halfRuled (h : Half) (second : Bool) : Bool :=
  let n := h.hop.toNat
  let zeroA := n = 0 || n = 11 || n = 15 || n = 17 || n = 18
  let zeroImm := n = 0 || n = 1 || n = 3 || n = 4 || n = 6 || n = 7 || n = 12 || (17 ≤ n && n ≤ 25) || n = 27
  !((n = 15 || n = 28) && !second) && !(n = 0 && h.d != 0) && !(zeroA && h.a != 0) && !(zeroImm && h.imm != 0)

/-- The first decode check that a pair fails (R51, R56): H0's, H1's, then subcode 9. -/
def pairFault (h0 h1 : Half) (k : HartKind) : Option Nat :=
  match halfFault h0 false k with
  | some n => some n
  | none => match halfFault h1 true k with
    | some n => some n
    | none => if halfRuled h0 false && halfRuled h1 true && pairOk h0 h1 then none else some 9

/-- The effect of a half's equivalent on a state (R53). -/
def halfBody (i : Instr) (s : State) : Res :=
  match i with
  | .nop _ => .done s
  | .add f => binaryBody f (· + ·) s
  | .sub f => binaryBody f (· - ·) s
  | .and f => binaryBody f (· &&& ·) s
  | .or f => binaryBody f (· ||| ·) s
  | .xor f => binaryBody f (· ^^^ ·) s
  | .sll f => binaryBody f (fun a b => a <<< (b.toNat % 64)) s
  | .srl f => binaryBody f (fun a b => a >>> (b.toNat % 64)) s
  | .sra f => binaryBody f (fun a b => a.sshiftRight (b.toNat % 64)) s
  | .li f => .done (s.setReg f.d (immS f))
  | .ld f => runBody (loadInto f (address25 f s) 1) s
  | .st f => runBody (storeFrom f (address25 f s) 1) s
  | .bCond f => branchTo f 24 (s.reg f.a != 0) s
  | .smb f => smbStep f.d f.a 0 (targetOf s f 24) s
  | .act f => runBody (openBody f .read false) s
  | .wb f => runBody (closeBody f State.commitRow) s
  | .pre f => runBody (closeBody f State.preGroup) s
  | .vadd f => runBody (intBody f false false (fun x => (x.a : Int) + x.b)) s
  | .vsub f => runBody (intBody f false false (fun x => (x.a : Int) - x.b)) s
  | .vmul f => runBody (intBody f false false (fun x => (x.a : Int) * x.b)) s
  | .vand f => runBody (intBody f false false (fun x => ((x.a &&& x.b : Nat) : Int))) s
  | .vor f => runBody (intBody f false false (fun x => ((x.a ||| x.b : Nat) : Int))) s
  | .vxor f => runBody (intBody f false false (fun x => ((x.a ^^^ x.b : Nat) : Int))) s
  | .vmov f => runBody (vmovBody f) s
  | .vmacc f => runBody (intBody f false true (fun x => (x.d : Int) + x.a * x.b)) s
  | .setvl f => .done ((s.setCur (fun c => c.grantVl (s.reg f.a).toNat)).setReg f.d (s.reg f.a))
  | _ => .done s

/-- Where control goes when a branch half is already done (R52, R333): its condition stands in its counter register. -/
def doneTarget (i : Instr) (s : State) : Option Word :=
  match i with
  | .bCond f => if s.reg f.a != 0 then some (targetOf s f 24) else none
  | .smb f => if s.reg f.d != 0 then some (targetOf s f 24) else none
  | _ => none

/-- The scalar halves of a pair (R50, R52): the state and the target of a branch, or how the word stops with neither half's
effect; an access of the second half that waits keeps its place in the queue of its group (R31). `todo` are the halves to
execute. -/
def pairScalars (is : List Instr) (s0 : State) : List Instr → State → Option Word → Except Res (State × Option Word)
  | [], s, pc => .ok (s, pc)
  | i :: rest, s, pc =>
    match halfBody i s with
    | .done t => pairScalars is s0 rest t pc
    | .jump t p => pairScalars is s0 rest t (some p)
    | .stay t => .error (.stay (if rest.length + 1 = is.length then t else s0.arrived t))
    | .trap t code tval info => .error (.trap (if rest.length + 1 = is.length then t else s0) code tval info)

/-- A trap of queue half `n` begun in `s`, with the halves `done` (R52): where its record has to wait (R31), the half stays to be
done. -/
def queueTrap (s : State) (n : Nat) (done : BitVec 2) (t : State) (code : Nat) (tval : Word) (info : TrapInfo) : Res :=
  if t.trapWaits code then .stay ((t.keepJoin s).setCur (fun c => { c with skip := done }))
  else .trap (t.setCur (fun c => { c with skip := 0 })) code tval { info with hv := true, half := n = 1, hdone := done }

/-- The request of a setvl half goes to sD at issue, with the scalar effects of the word (R50, R119); VL waits for the queue. -/
def State.issueSetvl (s : State) (is : List Instr) : State :=
  is.foldl (fun t i => match i with
    | .setvl f => t.setReg f.d (t.reg f.a)
    | _ => t) s

/-- Whether a half performs element by element (R126). -/
def elementHalf (i : Instr) : Bool :=
  match i with
  | .vadd _ | .vsub _ | .vmul _ | .vand _ | .vor _ | .vxor _ | .vmov _ | .vmacc _ => true
  | _ => false

/-- The place at which the turn stops the word, counted from the end of half `i`: an element-wise half has VL elements. -/
def State.pastHalf (t s : State) (i : Instr) : State :=
  if elementHalf i then { t with stopAt := (t.stopAt.filter (fun m => s.cur.vl.toNat ≤ m)).map (fun m => m - s.cur.vl.toNat) } else t

/-- The queue halves of a pair in order (R50, R52), each with its number: `done` are the halves that have completed. They are two
entries of the vector queue: each finds the control registers as the entry before it left them, so that H1 starts from the ESTART 0
that an element-wise H0 leaves (R123), not from ESTART as it stood before the word (DESIGN CHOICE, log entry 26). A turn can stop the
word between them (R340), or inside either. -/
def pairQueue : List (Nat × Instr) → BitVec 2 → State → Except Res State
  | [], _, s => .ok s
  | (n, i) :: rest, done, s =>
    if s.stopAt = some 0 then .error (.stay (s.setCur (fun c => { c with skip := done }))) else
    match halfBody i s with
    | .done t => pairQueue rest (done ||| (1#2 <<< n)) (t.pastHalf s i)
    | .jump t _ => pairQueue rest (done ||| (1#2 <<< n)) t
    | .stay t => .error (.stay (t.setCur (fun c => { c with skip := done })))
    | .trap t code tval info => .error (queueTrap s n done t code tval info)

/-- The two halves of a pair with what each is: its number, its equivalent, whether it is queued. -/
def pairParts (w : Word) : List (Nat × Instr × Bool) :=
  [(0, Half.ofWord w false, false), (1, Half.ofWord w true, true)].filterMap (fun p =>
    (halfEquiv p.2.1 p.2.2).map (fun i => (p.1, i, halfQueued p.2.1)))

/-- How a word ends whose scalar halves stopped: with H0's trap, where H0 is a queue half that would trap too (R52). -/
def firstTrap (todo : List (Nat × Instr × Bool)) (s : State) (r : Res) : Res :=
  match r, todo with
  | .trap _ _ _ _, (0, i, true) :: _ =>
    match halfBody i s with
    | .trap t code tval info => queueTrap s 0 s.cur.skip t code tval info
    | _ => r
  | _, _ => r

/-- Executes a pair whose decode checks have passed: the halves that `skip` marks are done (R333, R349). -/
def pairBody (w : Word) (s : State) : Res :=
  let parts := pairParts w
  let skip := s.cur.skip
  let todo := parts.filter (fun p => !(skip.getLsbD p.1))
  let scalars := (todo.filter (fun p => !p.2.2)).map (fun p => p.2.1)
  let old := (parts.filter (fun p => skip.getLsbD p.1)).findSome? (fun p => doneTarget p.2.1 s)
  match pairScalars scalars s scalars s old with
  | .error r => firstTrap todo s r
  | .ok (t, pc) =>
    let done := (todo.filter (fun p => !p.2.2)).foldl (fun d p => d ||| (1#2 <<< p.1)) skip
    match pairQueue ((todo.filter (fun p => p.2.2)).map (fun p => (p.1, p.2.1))) done (t.issueSetvl (todo.map (fun p => p.2.1))) with
    | .error r => r
    | .ok u =>
      let u := u.setCur (fun c => { c with skip := 0 })
      match pc with
      | some p => .jump u p
      | none => .done u

/-- PAIR_WORD (R48-R53): a pair traps as one instruction at decode, with the whole word as TVAL (R55). -/
def execPairWord (w : Word) (s : State) : Host.Outcome State Fault Refusal :=
  match pairFault (Half.ofWord w false) (Half.ofWord w true) s.cur.kind with
  | some n => .next (takeTrap n w {} s)
  | none => if (pairParts w).any (fun p => waitsScalar p.2.1 s) then .next s else finish (pairBody w s)

end Sys2Proof.Machine
end

