-- ==== Sys2Proof/Machine/Power.lean ====
section
/-! DEFINITION. The hardware's own power and thermal control (R380-R393): sensor samples, the governor, boost permits, and the
capture monitors of R397. An event whose condition does not hold changes nothing (log entry 9). -/

namespace Sys2Proof.Machine

/-! ### Sensors -/

/-- Number of sensors (R380). -/
def sensorCount : Nat := 648

/-- Mesh distance 1 on a row or a column of the stack: the two places differ by at most 1. -/
def within1 (a b : Nat) : Bool := decide (a ≤ b + 1 ∧ b ≤ a + 1)

/-- The neighbours of a sensor (R381): for a tower the others of its stack at max(column, row) distance 1 (R207), the layers
above and below for a layer, the other hub sensors for a hub sensor. -/
def neighbours (n : Nat) : List Nat :=
  if n < 512 then
    ((List.range 64).map (· + n / 64 * 64)).filter (fun m => m ≠ n && within1 (m % 8) (n % 8) && within1 (m / 8) (n / 8))
  else if n < 640 then
    (if 0 < (n - 512) % 16 then [n - 1] else []) ++ (if (n - 512) % 16 < 15 then [n + 1] else [])
  else ((List.range 8).map (· + 640)).filter (fun m => m ≠ n)

/-- NEIGH (R381): the reading differs by more than 8 degrees from the mean of its sound neighbours, if it has any; one that has
not been sampled yet has no reading to compare. -/
def State.disagrees (s : State) (n : Nat) (raw : Int) : Bool :=
  let sound := ((neighbours n).map s.sensor).filter (fun x => x.seen && !x.failed)
  let k : Int := sound.length
  let d := raw * k - (sound.map (fun x => x.raw)).sum
  k ≠ 0 && (128 * k < d || 128 * k < -d)

/-- RANGE (R381): below -20 or above 150 degrees. -/
def outOfRange (raw : Int) : Bool := raw < -320 || 2400 < raw

/-- The run of samples without change that STUCK watches (R381); a sensor's first sample begins a run. -/
def Sensor.follow (x : Sensor) (raw : Int) (pwr : Nat) : Sensor :=
  if x.seen ∧ raw = x.raw then
    let d := if x.base ≤ pwr then pwr - x.base else x.base - pwr
    { x with same := x.same + 1, moved := x.moved || x.base < 20 * d }
  else { x with raw := raw, same := 0, base := pwr, moved := false }

/-- STUCK (R381): unchanged for 256 samples while PWR moved by more than 5 per cent. -/
def Sensor.isStuck (x : Sensor) : Bool := 256 ≤ x.same && x.moved

/-- The failure checks of a sample of a sound sensor (R381). -/
def State.checkSensor (s : State) (n : Nat) (raw : Int) : State :=
  let x := (s.sensor n).follow raw (s.sensorPwr n)
  let stuck := x.isStuck
  let range := outOfRange raw
  let neigh := s.disagrees n raw
  let x := { x with seen := true }
  let s1 := { s with sensors := s.sensors.put n x }
  if x.failed then s1
  else if stuck || range || neigh then
    let y := { x with failed := true, stuck := stuck, range := range, neigh := neigh }
    let s2 := { s1 with sensors := s1.sensors.put n y }
    let bits := boolWord stuck ||| boolWord range <<< 1 ||| boolWord neigh <<< 2
    (s2.raiseMip 2 (BitVec.ofNat 64 n)).hwLog 3 n bits (toWord raw)
  else if x.tracking then { s1 with sensors := s1.sensors.put n { x with est := raw, pred := raw } }
  else s1

/-- The ALARM bit at a sample (R383). -/
def Sensor.alarmStep (x : Sensor) : Sensor :=
  if x.alert < x.value || x.alert < x.pred then
    (if x.armed then { x with alarm := true, armed := false } else x)
  else { x with armed := true }

/-- The band in which a reading lies (R105). -/
def bandOfReading (v : Int) : Nat := if v ≤ 1360 then 0 else if v ≤ 1520 then 1 else if v ≤ 1680 then 2 else 3

/-- The bound at or below which samples count toward a fall to the band below (R106). -/
def fallBound (band : Nat) : Int := if band = 1 then 1344 else if band = 2 then 1504 else 1664

/-- The refresh band of a layer at a sample (R106): a rise at once, or the run of samples toward a fall. -/
def State.bandStep (s : State) (n : Nat) : State :=
  let v := (s.sensor n).value
  let stack := (n - 512) / 16
  let layer := (n - 512) % 16
  let key := stack * 16 + layer
  let b := s.bands.get key Band.blank
  let s1 := if b.band < bandOfReading v then s.setBand stack layer (bandOfReading v) else s
  let b1 := s1.bands.get key Band.blank
  let low := if 0 < b1.band && v ≤ fallBound b1.band then some (b1.low.getD s1.clk) else none
  { s1 with bands := s1.bands.put key { b1 with low := low } }

/-- SENSOR_SAMPLE (R380): one sample of one sensor, with failures (R381), caps (R382), alarms (R383), the critical point and
HOLD7 (R393) and the refresh bands (R106). -/
def State.sampleSensor (s : State) (n : Nat) (raw : Int) : State :=
  let s1 := s.checkSensor n raw
  let s2 := { s1 with sensors := s1.sensors.put n (s1.sensor n).alarmStep }
  let s3 := if n < 512 then s2.criticalSample n
    else if n < 640 then (sensorIslands n).foldl (fun t i => State.rehold t i) (s2.bandStep n)
    else s2
  s3.recap (sensorIslands n)

/-- SENSOR_SAMPLE (R380). -/
def execSensorSample (s : State) : Host.Outcome State Fault Refusal :=
  .next (if s.input.n1 < sensorCount then s.sampleSensor s.input.n1 s.input.int else s)

/-- BAND_FALL (R106): after 1 ms of samples at or below the lower band's bound minus 1 degree, the bank falls one band, which
may end HOLD7 in the stack's islands (R393). -/
def State.bandFall (s : State) (stack layer : Nat) : State :=
  let b := s.bands.get (stack * 16 + layer) Band.blank
  match b.low with
  | some t =>
    if 0 < b.band ∧ t + 1000000000 ≤ s.clk then
      (List.range 4).foldl (fun t i => State.rehold t (stack * 4 + i)) (s.setBand stack layer (b.band - 1))
    else s
  | none => s

/-- BAND_FALL (R106). -/
def execBandFall (s : State) : Host.Outcome State Fault Refusal := .next (s.bandFall (s.input.n1 % 8) (s.input.n2 % 16))

/-- OBSERVER_TICK (R384): for each device time that is a multiple of 1,000,000 ns, once it has been reached. -/
def execObserverTick (s : State) : Host.Outcome State Fault Refusal :=
  .next (if s.power.ticked < s.clk / 1000000000 then
    { s.raiseMip 3 0 with power := { s.power with ticked := s.clk / 1000000000 } } else s)

/-! ### The governor -/

/-- Number of estimates in the rolling 10 ms average (R385). -/
def estimateWindow : Nat := 500

/-- Whether the average of the estimates exceeds, or lies below, a number of watts (R385). -/
def Power.averageAbove (p : Power) (w : Nat) : Bool := w * p.estimates.length < p.estimates.sum

/-- Whether the average lies below a number of watts. -/
def Power.averageBelow (p : Power) (w : Nat) : Bool := p.estimates.sum < w * p.estimates.length

/-- The islands' PWR fields take new estimates, island 32's last. -/
def State.setPwr (s : State) (pwr : List Nat) : State :=
  let s1 := (List.range 32).foldl (fun t n => State.setIsland t n (fun i => { i with pwr := (pwr[n]?).getD i.pwr })) s
  { s1 with hubPwr := (pwr[32]?).getD s1.hubPwr }

/-- A power estimate above 2,300 W begins or prolongs the peak clamp of 100 us (R385). -/
def State.peakClamp (s : State) : State :=
  let began := !s.peak
  let s1 := { s with power := { s.power with peakUntil := some (s.clk + 100000000) } }
  if began then (s1.raiseMip 6 8).dropBoost else s1

/-- A power estimate (R385). -/
def State.estimatePower (s : State) (watts : Nat) (pwr : List Nat) : State :=
  let s1 := s.setPwr pwr
  let s2 := { s1 with power := { s1.power with estimates := (watts :: s1.power.estimates).take estimateWindow } }
  if 2300 < watts then s2.peakClamp else s2

/-- POWER_ESTIMATE (R385). -/
def execPowerEstimate (s : State) : Host.Outcome State Fault Refusal :=
  .next (match s.input with
    | .estimate watts pwr => s.estimatePower watts pwr
    | _ => s)

/-- PEAK_CLAMP_END (R385): 100 us after the last estimate above 2,300 W. -/
def execPeakClampEnd (s : State) : Host.Outcome State Fault Refusal :=
  .next (if s.peak then s else { s with power := { s.power with peakUntil := none } })

/-- GOV_RISE (R385): by 1 every 100 us while the average exceeds 1,950 W. -/
def execGovRise (s : State) : Host.Outcome State Fault Refusal :=
  .next (if s.power.averageAbove 1950 && s.power.gov < 7 && s.power.govMoved + 100000000 ≤ s.clk then
      (State.raiseMip { s with power := { s.power with gov := s.power.gov + 1, govMoved := s.clk } } 6
        (BitVec.ofNat 64 (s.power.gov + 1))).dropBoost
    else s)

/-- GOV_FALL (R385): by 1 every 1 ms while the average lies below 1,850 W. -/
def execGovFall (s : State) : Host.Outcome State Fault Refusal :=
  .next (if s.power.averageBelow 1850 && 0 < s.power.gov && s.power.govMoved + 1000000000 ≤ s.clk then
      { s with power := { s.power with gov := s.power.gov - 1, govMoved := s.clk } }
    else s)

/-! ### Boost permits -/

/-- The step an island is granted (R387): the highest, up to what it wants, whose cost the pool covers. -/
def grantStep (want pool : Nat) : Nat := Nat.min want (Nat.min pool 2)

/-- What an island wants (R387). -/
def State.wantStep (s : State) (n : Nat) : Nat :=
  if s.power.boostEn && s.eff n = 0 && !(s.island n).cap then (s.island n).claim else 0

/-- One island's grant at a boundary (R387). -/
def State.grantIsland (s : State) (n : Nat) : State :=
  let step := grantStep (s.wantStep n) s.power.pool
  let s1 := s.setStep n step
  { s1 with power := { s1.power with pool := s1.power.pool - step } }

/-- The grants, charges or falls of a boundary (R387). -/
def State.boundaryGrants (s : State) : State :=
  if s.power.dropPending then
    let t := (List.range 32).foldl (fun t n => State.setStep t n 0) s
    { t with islands := t.islands.map (fun i => { i with claim := 0 }), power := { t.power with dropPending := false } }
  else if s.power.pool = 0 then (List.range 32).foldl (fun t n => State.setStep t n ((t.island n).step - 1)) s
  else (List.range 32).foldl (fun t i => State.grantIsland t ((s.power.start + i) % 32)) s

/-- The refill of the pool after two idle intervals (R387). -/
def State.refill (s : State) : State :=
  if s.islands.any (fun i => 0 < i.step) then { s with power := { s.power with idle := 0 } }
  else if s.power.idle + 1 = 2 then { s with power := { s.power with pool := Nat.min (s.power.pool + 1) 64, idle := 0 } }
  else { s with power := { s.power with idle := s.power.idle + 1 } }

/-- A permit interval boundary (R387). -/
def State.permitStep (s : State) : State :=
  let s1 := s.boundaryGrants
  let s2 := { s1 with power := { s1.power with start := (s1.power.start + 1) % 32, boundary := s1.power.boundary + 1 } }
  let s3 := s2.refill
  if s3.power.pool = 0 && s.power.pool ≠ 0 then (s3.raiseMip 4 0).hwLog 5 0 0 0 else s3

/-- PERMIT_BOUNDARY (R387): the next boundary not yet served, once TIME has reached it; each multiple of 10,000 is served. -/
def execPermitBoundary (s : State) : Host.Outcome State Fault Refusal :=
  .next (if s.power.boundary < s.clk / 10000000 then s.permitStep else s)

/-! ### Capture monitors -/

/-- A sample of a source that the state holds; the latencies of R398 and the depths of queues that this model does not
keep come with the event (log entry 6). -/
def State.monitorValue (s : State) (m : Monitor) (x : Int) : Int :=
  match m.source with
  | 1 => (s.sensor m.index).value
  | 2 => (if m.index = 32 then s.hubPwr else (s.island m.index).pwr : Nat)
  | 3 => (s.eff m.index : Nat)
  | 11 => (s.power.pool : Nat)
  | 12 => (s.pace.cur : Nat)
  | _ => x

/-- Adds a sample to a monitor (R397); a negative one counts as 0. -/
def Monitor.add (m : Monitor) (x : Int) : Monitor :=
  let v := x.toNat
  let w := BitVec.ofNat 64 v
  let bin := Nat.min (v / 2 ^ m.shift) 15
  { m with mn := if v < m.mn.toNat then w else m.mn, mx := if m.mx.toNat < v then w else m.mx,
           bins := vput m.bins bin (satInc (vget m.bins bin)) }

/-- A sample of a monitor (R397, R398). -/
def State.sampleMonitor (s : State) (n : Nat) (outside : Int) : State :=
  let m := s.monitor n
  if !m.en || m.source = 0 then s else
  let x := s.monitorValue m outside
  let t := { s with monitors := s.monitors.put n (m.add x) }
  if m.thresh ≠ 0 && m.thresh.toNat < x.toNat then t.raiseMip 7 (BitVec.ofNat 64 n) else t

/-- MONITOR_SAMPLE (R398). -/
def execMonitorSample (s : State) : Host.Outcome State Fault Refusal := .next (s.sampleMonitor (s.input.n1 % 64) s.input.int)

end Sys2Proof.Machine
end

