-- ==== Sys2Proof/Machine/Refresh.lean ====
section
/-! DEFINITION. Steps of the row scoreboard, the memory controllers and the refresh engine that no program issues (R31, R104,
R106-R110). An event whose condition does not hold changes nothing (log entry 9). -/

namespace Sys2Proof.Machine

/-- The group that three numbers of an event's input name: tower, bank, group. -/
def State.inputGroup (s : State) : Nat := groupKey (s.input.n1 % 512) (s.input.n2 % 16) (s.input.n3 % 16)

/-- DEBT_INCREMENT (R108): once the group's increment is due. -/
def execDebtIncrement (s : State) : Host.Outcome State Fault Refusal :=
  .next (if (s.group s.inputGroup).nextInc ≤ s.clk then s.incrementDebt s.inputGroup else s)

/-- Whether a group awaits the refreshes of a forced close (R110). -/
def State.forcedDue (s : State) (k : Nat) : Bool := (s.group k).forcing

/-- When an activation of a group that is asked for can start (R103, R104): a group that the memory controller holds is closed
first (R32). -/
def State.startAt (s : State) (k : Nat) : Nat :=
  match (s.group k).mc with
  | none => s.activationAt k
  | some _ => Nat.max (s.activationAt k) (s.ends (k / 256) (Nat.max s.clk (s.closeAt k)) 13500)

/-- Whether every interval that an activation of a group waits for has passed (R103, R104), and no access holds it (R32). -/
def State.activationMet (s : State) (k : Nat) : Bool := (s.group k).mc.isNone && s.activationAt k ≤ s.clk

/-- FORCED_REFRESH (R110): the next of the refreshes, or their end, once the intervals are met. -/
def execForcedRefresh (s : State) : Host.Outcome State Fault Refusal :=
  let k := s.inputGroup
  .next (if s.forcedDue k && (if 0 < (s.group k).debt then s.activationMet k else s.freeAt k ≤ s.clk) then s.forcedStep k else s)

/-- Whether the refresh engine refreshes a group (R107). -/
def State.engineDue (s : State) (k : Nat) : Bool :=
  0 < (s.group k).debt && (s.group k).row.isNone && !(s.group k).forcing && (s.homeCtx (k / 256) (k / 16 % 16)).isNone

/-- REFRESH_ENGINE_REFRESH (R107), once the intervals are met. -/
def execRefreshEngineRefresh (s : State) : Host.Outcome State Fault Refusal :=
  let k := s.inputGroup
  .next (if s.engineDue k && s.activationMet k then s.refreshGroup k else s)

/-- The group that an instruction of a context would activate, if it is act, actn, ref or refa: of a run the first, of refa the
lowest closed one. -/
def State.wordActivates (s : State) (c : Ctx) (i : Instr) : Option Nat :=
  let key := fun g => groupKey c.place c.home (g % 16)
  match i with
  | .act f => some (key (rowField f.d))
  | .actn f => some (key (rowField f.d))
  | .ref f => some (key (rowField f.d))
  | .refa _ => ((List.range 16).find? (fun g => (s.group (key g)).row.isNone)).map key
  | _ => none

/-- The group that a context asks to activate: that of its next instruction, where the instruction waits for nothing else. -/
def State.activates (s : State) (c : Ctx) : Option Nat :=
  match s.translateAt (tlbUnits c) c.ptroot c.pc .fetch with
  | .error _ => none
  | .ok (l, _) =>
    let i := decodeWord (BitVec.ofNat 64 (s.num l.pa 8))
    if ready i (s.switchTo c.reqid) && !s.rowQueue.any (fun e => e.who == hartWaiter c.reqid) then s.wordActivates c i else none

/-- Whether a hart of a tower, at a boundary at which it executes a word, asks for an activation whose intervals are met. -/
def State.asksActivation (s : State) (t : Nat) (c : Ctx) : Bool :=
  c.kind = .tower && c.place = t && c.run = .running && c.ending.isNone && !c.stops && c.gang.isNone && !c.trapDue &&
    (s.activates c).any s.activationMet

/-- How long a partition waits its turn in the round after the one granted last (R104). -/
def roundDistance (last part : Nat) : Nat := (part + 7 - last % 8) % 8

/-- The better of two requests of harts: higher effective priority, then the round (R104). -/
def State.grantFirst (s : State) (t : Nat) (a b : Ctx) : Bool :=
  let pa := s.eprio a.reqid
  let pb := s.eprio b.reqid
  let last := (s.tower t).granted
  pb < pa || (pa == pb && roundDistance last a.part ≤ roundDistance last b.part)

/-- The hart whose activation the scoreboard of a tower grants, among those that could start now (R104). -/
def State.grantHart (s : State) (t : Nat) : Option Ctx :=
  (s.live.filter (s.asksActivation t)).foldl (fun best c => match best with
    | none => some c
    | some b => some (if s.grantFirst t b c then b else c)) none

/-- The keys of a tower's groups. -/
def towerGroups (t : Nat) : List Nat := (List.range 256).map (fun i => t * 256 + i)

/-- Whether a forced close asks for its next refresh of a group (R110). -/
def State.forcedAsks (s : State) (k : Nat) : Bool := s.forcedDue k && 0 < (s.group k).debt

/-- Whether a waiting byte access asks the memory controller of a tower to open its row (R31): the group is closed, and the access is
the first of those that wait for it. -/
def State.accessAsks (s : State) (t : Nat) (e : RowWait) : Bool :=
  e.group / 256 == t && (s.group e.group).row.isNone && !(s.group e.group).forcing && (s.group e.group).mc != some e.row &&
    s.rowFirst e.group e.who

/-- The activation that the scoreboard of a tower starts before any that a hart asks for (R104): a forced close's refresh, then one of
the memory controller, among the requests whose intervals are met. -/
def State.grantUnit (s : State) (t : Nat) : Option State :=
  match (towerGroups t).find? (fun k => s.forcedAsks k && s.activationMet k) with
  | some k => some (s.forcedStep k)
  | none => match s.rowQueue.find? (fun e => s.accessAsks t e && s.activationMet e.group) with
    | some e => some (s.mcOpen e.group e.row)
    | none => none

/-- The refresh of the refresh engine that the scoreboard of a tower starts when nothing else is asked for (R104). -/
def State.grantEngine (s : State) (t : Nat) : Option State :=
  ((towerGroups t).find? (fun k => s.engineDue k && s.activationMet k)).map s.refreshGroup

/-- SCOREBOARD_ACTIVATION_GRANT (R104): the tower's next activation among the requests whose intervals are met: a forced-close
refresh, then one of the memory controller for an access that waits, then a hart whose next instruction activates, which gets the
turn, then a refresh-engine refresh. -/
def execScoreboardActivationGrant (s : State) : Host.Outcome State Fault Refusal :=
  let t := s.input.n1 % 512
  .next (match s.grantUnit t with
    | some u => u
    | none => match s.grantHart t with
      | some c => s.switchTo c.reqid
      | none => (s.grantEngine t).getD s)

/-- The first moment from now at which an activation asked for on a tower can start (R104), where a hart asks for group `k`. -/
def State.nextStart (s : State) (t k : Nat) : Nat :=
  let units := (towerGroups t).filter (fun j => s.forcedAsks j || s.engineDue j)
  let accesses := (s.rowQueue.filter (s.accessAsks t)).map (fun e => e.group)
  let harts := (s.live.filter (fun c => c.kind = .tower && c.place = t && c.run = .running)).filterMap s.activates
  Nat.max s.clk ((units ++ accesses ++ harts).foldl (fun m j => Nat.min m (s.startAt j)) (s.startAt k))

/-- What the scoreboard starts before the activation that an instruction of the current hart asks for (R104): the request that can
start first, and of those that can start then the first in the order. An activation that cannot start yet blocks none that can. -/
def State.grantBefore (s : State) (i : Instr) : Option State :=
  match if s.cur.kind = .tower && ready i s then s.wordActivates s.cur i else none with
  | none => none
  | some k =>
    let t := s.cur.place
    let u := s.waitTo (s.nextStart t k)
    match u.grantUnit t with
    | some v => some v
    | none => match u.grantHart t with
      | some c => if c.reqid = s.cur.reqid then none else some (u.switchTo c.reqid)
      | none => if u.activationMet k then none else u.grantEngine t

/-! ### Errors of the rows (R112, R219) -/

/-- Whether a wire has been corrected 16 times within 1 ms (R219). -/
def wireFails (times : List Nat) : Bool :=
  match times, times[15]? with
  | now :: _, some first => now ≤ first + 1000000000
  | _, _ => false

/-- A correction of a beat of a group's row through a wire of a slice bus (R112, R219): the write-back into the sense
amplifiers is a commit point, the tower counts it, and a wire with too many makes its bus due to be retired. -/
def State.correctBeat (s : State) (k bus wire : Nat) : State :=
  let g := s.group k
  if g.row.isNone && g.mc.isNone then s else
  let s := s.setGroup k (fun g => { g with commit := s.clk })
  s.setTower (k / 256) (fun w =>
    let times := (s.clk :: w.wires.get (bus % 34 * 2 ^ 16 + wire) []).take 16
    { w with
      corrected := satInc w.corrected, wires := w.wires.put (bus % 34 * 2 ^ 16 + wire) times
      failing := if wireFails times then insertSorted (bus % 34) w.failing else w.failing })

/-- A miscorrected granule (R112): wrong bytes are delivered and written back as sound. -/
def State.miscorrect (s : State) (granule : Nat) (bs : List Byte) : State :=
  if granule * 32 < dramEnd && bs.length = 32 then s.poke (granule * 32) bs else s

/-- A wire detected as stuck makes its bus due to be retired (R219). -/
def State.stuckWire (s : State) (t bus : Nat) : State :=
  s.setTower (t % 512) (fun w => { w with failing := insertSorted (bus % 34) w.failing })

/-- MC_GROUP_CLOSE (R31): as soon as no access to the row is waiting. -/
def execMcGroupClose (s : State) : Host.Outcome State Fault Refusal :=
  .next (if s.mcWanted s.inputGroup then s else s.mcClose s.inputGroup)

end Sys2Proof.Machine
end

