-- ==== Sys2Proof/Machine/RegWrites.lean ====
section
/-! DEFINITION. The steps of the opcode table that are writes of control or hub registers (R80, R226, R277, R342, R376-R397, R412,
R419, R421), performed for the current hart or for Cairn. One that its register refuses, or that has to wait, changes nothing
(log entry 9). -/

namespace Sys2Proof.Machine

/-- A write of a control register by the current hart: nothing where the register is out of reach, read only, refuses the
value or has to wait. -/
def State.regWrite (s : State) (n : Nat) (v : Word) : State :=
  if (crReach s.cur n).isSome || crReadOnly s.cur n then s else
  match crWrite n v 0 s with
  | .ok (_, t) => t
  | .error _ => s

/-- A store to a hub register. -/
def State.hubRegWrite (s : State) (o : Nat) (v : Word) : State :=
  match s.hubWrite o v with
  | .ok t => t
  | _ => s

/-- PGFLUSH_WRITE (R226): a write made while a flush is in progress waits. -/
def execPgflushWrite (s : State) : Host.Outcome State Fault Refusal :=
  .next (if s.hub.pgflush.isSome then s else s.startFlush s.input.word)

/-- The end of a page flush (R226, R33): no cache holds a line of the page. -/
def State.endFlush (s : State) : State :=
  match s.hub.pgflush with
  | none => s
  | some p =>
    let row := (s.group (groupOf (p * 4096))).row = some (rowOf (p * 4096))
    let s1 := s.setHub (fun h => { h with pgflush := none })
    { s1 with cachedUse := s1.cachedUse.filter (· ≠ p), lineOwner := s1.lineOwner.filter (fun e => e.1 / 32 ≠ p),
              lineHolders := s1.lineHolders.filter (fun e => e.1 / 32 ≠ p),
              conflict := if row then s1.conflict else s1.conflict.filter (· ≠ p) }

/-- PGFLUSH_DONE (R226). -/
def execPgflushDone (s : State) : Host.Outcome State Fault Refusal := .next s.endFlush

/-- PUBFORCE_CLEAR (R226). -/
def execPubforceClear (s : State) : Host.Outcome State Fault Refusal :=
  .next (s.clearCounter (deviceBase + 0x4_0000 + 8 * (s.input.n1 % 32768)))

/-- PREEMPT_REQUEST (R342). -/
def execPreemptRequest (s : State) : Host.Outcome State Fault Refusal :=
  .next (s.writePreempt (s.input.n1 % 32768) (s.input.word &&& ~~~(1#64 <<< 61)))

/-- PREEMPT_MIGRATE (R393): the write with bit 61 set. -/
def execPreemptMigrate (s : State) : Host.Outcome State Fault Refusal :=
  .next (s.writePreempt (s.input.n1 % 32768) (s.input.word ||| 1#64 <<< 61))

/-- COUNTER_CLEAR (R277): a write of the counter register at an address clears it. -/
def execCounterClear (s : State) : Host.Outcome State Fault Refusal := .next (s.clearCounter s.input.n1)

/-- ATTESTATION_REQUEST (R419): ATTREQ takes a multiple of 4,096. -/
def execAttestationRequest (s : State) : Host.Outcome State Fault Refusal := .next (s.hubRegWrite 0x12_0100 s.input.word)

/-- The first 184 bytes of a report (R419), which the signature covers. -/
def State.reportHead (s : State) (nonce : List Byte) : List Byte :=
  nonce ++ leBytes s.hub.measure.toNat 64 ++ leBytes s.efpo.devid.toNat 2 ++ leBytes s.hub.incarnation.toNat 2 ++
    leBytes s.hub.attLog.length 4 ++ leBytes s.time.toNat 8 ++ leBytes (s.hub.slot s.hub.booted).svn.toNat 8 ++ leBytes Config.devicePublicKey.toNat 64

/-- The 32 KiB of a report (R419). -/
def State.report (s : State) (nonce : List Byte) : List Byte :=
  let head := s.reportHead nonce
  head ++ (List.range 29792).map (Config.attestSignature head) ++ List.replicate 2792 0

/-- Cairn writes the report into the buffer, page by page, and sets DONE, or ERR where the buffer is not DRAM (R248, R419). -/
def State.attest (s : State) : State :=
  let a := s.hub.attReq.toNat
  if !s.hub.attBusy then s
  else if dramEnd < a + 32768 then s.setHub (fun h => { h with attBusy := false, attErr := true })
  else
    let bs := s.report (s.bytes a 32)
    let s1 := (List.range 8).foldl (fun t i =>
      match cairnLeaf (BitVec.ofNat 64 (a + 4096 * i)) with
      | .ok leaf => (State.writePhys t none 64 leaf ((bs.drop (4096 * i)).take 4096)).bumpRegion leaf.pa 4096
      | .error _ => t) s
    s1.setHub (fun h => { h with attBusy := false, attDone := true })

/-- ATTESTATION_DONE (R419). -/
def execAttestationDone (s : State) : Host.Outcome State Fault Refusal := .next s.attest

/-- FEATLOCK_WRITE (R421). -/
def execFeatlockWrite (s : State) : Host.Outcome State Fault Refusal := .next (s.writeFeatlock s.input.word)

/-- FACC_WRITE (R421). -/
def execFaccWrite (s : State) : Host.Outcome State Fault Refusal := .next (s.regWrite (0x124 + s.input.n1 % 4) s.input.word)

/-- EFDEVID_WRITE (R412). -/
def execEfdevidWrite (s : State) : Host.Outcome State Fault Refusal := .next (s.writeDevid s.input.word)

/-- SENSOR_READMIT (R380, R382, R393): FAILED of the selected sensor written 0. -/
def execSensorReadmit (s : State) : Host.Outcome State Fault Refusal :=
  .next (((s.readmit s.mgmt.sensel).sensorWritten s.mgmt.sensel).recap (sensorIslands s.mgmt.sensel))

/-- SENSOR_MARK_FAILED (R380, R382, R393): FAILED of the selected sensor written 1. -/
def execSensorMarkFailed (s : State) : Host.Outcome State Fault Refusal :=
  .next (((s.markFailed s.mgmt.sensel).sensorWritten s.mgmt.sensel).recap (sensorIslands s.mgmt.sensel))

/-- ALARM_CLEAR (R380). -/
def execAlarmClear (s : State) : Host.Outcome State Fault Refusal := .next (s.clearAlarm s.mgmt.sensel)

/-- MIP_CLEAR (R394). -/
def execMipClear (s : State) : Host.Outcome State Fault Refusal := .next (s.clearMip s.input.word)

/-- LOGIDX_APPEND (R396): Cairn's register receives the old count. -/
def execLogidxAppend (s : State) : Host.Outcome State Fault Refusal :=
  .next ((s.mapCtx cairnId (fun c => c.setReg (BitVec.ofNat 6 (s.input.n1 % 32)) s.mgmt.logidx)).logAppend)

/-- MONITOR_CLEAR (R397). -/
def execMonitorClear (s : State) : Host.Outcome State Fault Refusal := .next (s.clearMonitor s.mgmt.monsel)

/-- PERMCFG_DROP (R386). -/
def execPermcfgDrop (s : State) : Host.Outcome State Fault Refusal := .next s.requestDrop

/-- ISLTHR_WRITE (R374, R376, R395). -/
def execIslthrWrite (s : State) : Host.Outcome State Fault Refusal := .next (s.writeIslthr s.input.word)

/-- SEMBITS_WRITE (R279). -/
def execSembitsWrite (s : State) : Host.Outcome State Fault Refusal := .next (s.regWrite 0x210 s.input.word)

/-- CTB_WRITE (R199). -/
def execCtbWrite (s : State) : Host.Outcome State Fault Refusal := .next (s.regWrite 0x03 s.input.word)

/-- TCFG_WRITE (R174). -/
def execTcfgWrite (s : State) : Host.Outcome State Fault Refusal := .next (s.regWrite (0x10 + s.input.n1 % 4) s.input.word)

/-- VCFG_WRITE (R117). -/
def execVcfgWrite (s : State) : Host.Outcome State Fault Refusal := .next (s.regWrite 0x01 s.input.word)

/-- VL_WRITE (R58). -/
def execVlWrite (s : State) : Host.Outcome State Fault Refusal := .next (s.regWrite 0x00 s.input.word)

/-- LCLASS_WRITE (R344). -/
def execLclassWrite (s : State) : Host.Outcome State Fault Refusal := .next (s.regWrite 0x111 s.input.word)

/-- PRIO_WRITE (R322). -/
def execPrioWrite (s : State) : Host.Outcome State Fault Refusal := .next (s.regWrite 0x113 s.input.word)

/-- SERIAL_REGISTER_WRITE (R268): SFLOOR where the first operand is 1, else SNEXT. -/
def execSerialRegisterWrite (s : State) : Host.Outcome State Fault Refusal :=
  .next (s.regWrite (if s.input.n1 = 1 then 0x1A else 0x19) s.input.word)

/-- REGISTER_WRITE (R80): a control register by its number, a hub register by its address. -/
def execRegisterWrite (s : State) : Host.Outcome State Fault Refusal :=
  .next (if s.input.n1 < 0x400 then s.regWrite s.input.n1 s.input.word
    else if deviceBase ≤ s.input.n1 ∧ s.input.n1 < deviceBase + 0x100_0000 then
      s.hubRegWrite (s.input.n1 - deviceBase) s.input.word
    else s)

end Sys2Proof.Machine
end

