-- ==== Sys2Proof/Machine/VFloat.lean ====
section
/-! DEFINITION. Class 3, OPs 43 to 60: floating-point arithmetic, compares, reductions and vfclass (R137-R140). -/

namespace Sys2Proof.Machine

/-- FC is f16, b16 or f32 (R138). -/
def fcFloat (vcfg : Word) : Bool := 8 ≤ fcOf vcfg && fcOf vcfg ≤ 10

/-- The floating format of VCFG. -/
def fmtOf (vcfg : Word) : FloatFmt := (floatFmt (fcOf vcfg)).getD default

/-- The operands of a floating element operation: format, a, b and d with their codes, rounding mode. -/
structure FloatArgs where
  f : FloatFmt
  a : Nat
  b : Nat
  d : Nat
  rm : RoundMode

/-- Round of an exact result with the flags the operation raised (R138: OV = 1). -/
def FloatFmt.result (f : FloatFmt) (r : Num × Nat) (rm : RoundMode) : Nat × Nat :=
  let x := f.round r.1 rm true
  (x.1, r.2 ||| x.2)

/-- a x b + d or d - a x b in one rounding (R139, R140). -/
def FloatArgs.fma (x : FloatArgs) (minus : Bool) : Nat × Nat :=
  let p := mulNum (x.f.decode x.a) (x.f.decode x.b)
  let q := if minus then p.1.negate else p.1
  let r := addNum q (x.f.decode x.d) x.rm
  x.f.result (r.1, p.2 ||| r.2) x.rm

/-- The element-wise FP instructions with a row result (R139). `rounds` has RM in IMM28, `readsD` is vfma and vfnma. -/
def floatBody (f : Fields) (rounds readsD unary : Bool) (op : FloatArgs → Nat × Nat) : M Unit := do
  let s ← get
  let vcfg := s.cur.vcfg
  let vg := vgOf vcfg
  let ew := ewOf vcfg
  let brows := if unary then [] else rowsB f vg
  let rm ← vecChecks
    { packed := false, fcOk := fcFloat vcfg, rows := [(f.d, vg, true), (f.a, vg, false)] ++ brows, masks := maskOf f,
      rm := if rounds then some (f.sub 0 3) else none, touch := Ctx.reachesFrom f }
  readMasks (maskOf f) vg
  let s ← get
  let ga := rowField f.a
  let gd := rowField f.d
  finishElts gd vg ew (eltsOf f s.cur s.cur.estart.toNat
    (fun e => op { f := fmtOf vcfg, a := s.elem ga e ew, b := if unary then 0 else operandVB f s e ew, d := s.elem gd e ew, rm := rm })
    (fun e => s.elemPoisoned ga e ew || (!unary && poisonVB f s e ew) || (readsD && s.elemPoisoned gd e ew)))

/-- The FP compares (R139, R140). -/
def floatCompareBody (f : Fields) (kind : Nat) : M Unit := do
  let s ← get
  let vcfg := s.cur.vcfg
  let vg := vgOf vcfg
  let ew := ewOf vcfg
  let _ ← vecChecks
    { packed := false, fcOk := fcFloat vcfg, rows := [(f.a, vg, false)] ++ rowsB f vg
      masks := maskField f.d ++ maskOf f, touch := Ctx.reachesFrom f }
  readMasks (maskOf f) vg
  let s ← get
  let ga := rowField f.a
  finishMask (f.d.toNat - 48) ew (eltsOf f s.cur s.cur.estart.toNat
    (fun e =>
      let r := compareNum kind ((fmtOf vcfg).decode (s.elem ga e ew)) ((fmtOf vcfg).decode (operandVB f s e ew))
      (if r.1 then 1 else 0, r.2))
    (fun e => s.elemPoisoned ga e ew || poisonVB f s e ew))

/-- A node of the reduction tree (R137): a code, or absent, and whether it derives from a poisoned operand. -/
structure Node where
  code : Nat
  pois : Bool
  deriving DecidableEq, Repr

/-- Combines neighbours of one level; flags of sound combinations accumulate (R137). -/
def combineLevel (c : Nat → Nat → Nat × Nat) : List (Option Node) → List (Option Node) × Nat
  | x :: y :: rest =>
    let (r, fl) := combineLevel c rest
    match x, y with
    | none, y => (y :: r, fl)
    | x, none => (x :: r, fl)
    | some a, some b =>
      let v := c a.code b.code
      let p := a.pois || b.pois
      (some { code := v.1, pois := p } :: r, if p then fl else fl ||| v.2)
  | [x] => ([x], 0)
  | [] => ([], 0)

/-- The levels of the tree (R137). -/
def combineAll (c : Nat → Nat → Nat × Nat) : Nat → List (Option Node) → Option Node × Nat
  | 0, xs => (xs.headD none, 0)
  | n + 1, xs =>
    let (ys, f1) := combineLevel c xs
    let (r, f2) := combineAll c n ys
    (r, f1 ||| f2)

/-- Levels of the tree for `n` leaves: the least k with 2^k at least n (R137). -/
def treeLevels (n : Nat) : Nat := if n ≤ 1 then 0 else Nat.log2 (n - 1) + 1

/-- vfredsum and vfredmax (R137). -/
def floatReduceBody (f : Fields) (rounds : Bool) (op : FloatFmt → RoundMode → Nat → Nat → Nat × Nat) : M Unit := do
  let s ← get
  let vcfg := s.cur.vcfg
  let vg := vgOf vcfg
  let ew := ewOf vcfg
  let rm ← vecChecks
    { packed := false, fcOk := fcFloat vcfg, rows := [(f.d, vg, true), (f.a, vg, false)] ++ rowsB f vg, masks := maskOf f,
      rm := if rounds then some (f.sub 0 3) else none, touch := Ctx.reachesReduced f }
  readMasks (maskOf f) vg
  let s ← get
  let ga := rowField f.a
  let fmt := fmtOf vcfg
  let vl := s.cur.vl.toNat
  let k := treeLevels vl
  let leaves := (List.range (2 ^ k)).map (fun e => if e < vl && s.cur.active f.m.toNat e ew then
    some { code := s.elem ga e ew, pois := s.elemPoisoned ga e ew : Node } else none)
  let init := operandVB f s 0 ew
  let initP := poisonVB f s 0 ew
  let (root, fl) := combineAll (op fmt rm) k leaves
  let elt : Elt := match root with
    | none =>
      let x := fmt.decode init
      if x.isNan then { e := 0, v := fmt.nanCode, flags := if initP then 0 else sigFlag [x], pois := initP }
      else { e := 0, v := init, flags := 0, pois := initP }
    | some t =>
      let v := op fmt rm init t.code
      { e := 0, v := v.1, flags := if initP || t.pois then fl else fl ||| v.2, pois := initP || t.pois }
  match trappingFlag (enabledFlags s.cur.frm) elt.flags with
  | some t => trapM 13 t (numericTval 0xFFFF_FFFF elt.flags)
  | none => finishWhole (rowField f.d) vg ew [elt]

/-- VFADD (R139). -/
def execVfadd (f : Fields) (s : State) : Host.Outcome State Fault Refusal :=
  issue (.vfadd f) (runBody (floatBody f true false false (fun x => x.f.result (addNum (x.f.decode x.a) (x.f.decode x.b) x.rm) x.rm))) s

/-- VFSUB (R139). -/
def execVfsub (f : Fields) (s : State) : Host.Outcome State Fault Refusal :=
  issue (.vfsub f) (runBody (floatBody f true false false (fun x => x.f.result (addNum (x.f.decode x.a) (x.f.decode x.b).negate x.rm) x.rm))) s

/-- VFMUL (R139). -/
def execVfmul (f : Fields) (s : State) : Host.Outcome State Fault Refusal :=
  issue (.vfmul f) (runBody (floatBody f true false false (fun x => x.f.result (mulNum (x.f.decode x.a) (x.f.decode x.b)) x.rm))) s

/-- VFMA (R139). -/
def execVfma (f : Fields) (s : State) : Host.Outcome State Fault Refusal :=
  issue (.vfma f) (runBody (floatBody f true true false (fun x => x.fma false))) s

/-- VFNMA (R139). -/
def execVfnma (f : Fields) (s : State) : Host.Outcome State Fault Refusal :=
  issue (.vfnma f) (runBody (floatBody f true true false (fun x => x.fma true))) s

/-- VFMIN (R139, R140). -/
def execVfmin (f : Fields) (s : State) : Host.Outcome State Fault Refusal :=
  issue (.vfmin f) (runBody (floatBody f false false false (fun x => x.f.minMax false x.a x.b))) s

/-- VFMAX (R139, R140). -/
def execVfmax (f : Fields) (s : State) : Host.Outcome State Fault Refusal :=
  issue (.vfmax f) (runBody (floatBody f false false false (fun x => x.f.minMax true x.a x.b))) s

/-- VFDIV (R139, R140). -/
def execVfdiv (f : Fields) (s : State) : Host.Outcome State Fault Refusal :=
  issue (.vfdiv f) (runBody (floatBody f true false false (fun x => x.f.result (divNum (x.f.decode x.a) (x.f.decode x.b)) x.rm))) s

/-- VFSQRT (R139, R140). -/
def execVfsqrt (f : Fields) (s : State) : Host.Outcome State Fault Refusal :=
  issue (.vfsqrt f) (runBody (floatBody f true false true (fun x => x.f.result (sqrtNum (x.f.decode x.a)) x.rm))) s

/-- VFRCP (R139, R140). -/
def execVfrcp (f : Fields) (s : State) : Host.Outcome State Fault Refusal :=
  issue (.vfrcp f) (runBody (floatBody f true false true (fun x => x.f.result (divNum (.fin false 1 0) (x.f.decode x.a)) x.rm))) s

/-- VFRSQ (R139, R140). -/
def execVfrsq (f : Fields) (s : State) : Host.Outcome State Fault Refusal :=
  issue (.vfrsq f) (runBody (floatBody f true false true (fun x => x.f.result (rsqrtNum (x.f.decode x.a)) x.rm))) s

/-- VFEXP2 (R139, R140). -/
def execVfexp2 (f : Fields) (s : State) : Host.Outcome State Fault Refusal :=
  issue (.vfexp2 f) (runBody (floatBody f true false true (fun x => x.f.result (exp2Num (x.f.decode x.a)) x.rm))) s

/-- VFCMPEQ (R139, R140). -/
def execVfcmpeq (f : Fields) (s : State) : Host.Outcome State Fault Refusal :=
  issue (.vfcmpeq f) (runBody (floatCompareBody f 0)) s

/-- VFCMPLT (R139, R140). -/
def execVfcmplt (f : Fields) (s : State) : Host.Outcome State Fault Refusal :=
  issue (.vfcmplt f) (runBody (floatCompareBody f 1)) s

/-- VFCMPLE (R139, R140). -/
def execVfcmple (f : Fields) (s : State) : Host.Outcome State Fault Refusal :=
  issue (.vfcmple f) (runBody (floatCompareBody f 2)) s

/-- VFREDSUM (R137). -/
def execVfredsum (f : Fields) (s : State) : Host.Outcome State Fault Refusal :=
  issue (.vfredsum f) (runBody (floatReduceBody f true (fun fmt rm a b => fmt.result (addNum (fmt.decode a) (fmt.decode b) rm) rm))) s

/-- VFREDMAX (R137). -/
def execVfredmax (f : Fields) (s : State) : Host.Outcome State Fault Refusal :=
  issue (.vfredmax f) (runBody (floatReduceBody f false (fun fmt _ a b => fmt.minMax true a b))) s

/-- VFCLASS (R139, R140: no flag is raised). -/
def execVfclass (f : Fields) (s : State) : Host.Outcome State Fault Refusal :=
  issue (.vfclass f) (runBody (floatBody f false false true (fun x => (2 ^ x.f.classBit (x.f.decode x.a), 0)))) s

end Sys2Proof.Machine
end

