-- ==== Sys2Proof/Machine/Dispatch.lean ====
section
/-! DEFINITION. One arm per constructor of Instr: a direct call of its meaning. -/

namespace Sys2Proof.Machine

/-- The effect of one instruction, or of one step that no program issues. -/
def exec (i : Instr) (s : State) : Host.Outcome State Fault Refusal :=
  match i with
  | .pairWord w => Sys2Proof.Machine.execPairWord w s
  | .illegalInstruction w => Sys2Proof.Machine.execIllegalInstruction w s
  | .nop f => Sys2Proof.Machine.execNop f s
  | .add f => Sys2Proof.Machine.execAdd f s
  | .sub f => Sys2Proof.Machine.execSub f s
  | .and f => Sys2Proof.Machine.execAnd f s
  | .or f => Sys2Proof.Machine.execOr f s
  | .xor f => Sys2Proof.Machine.execXor f s
  | .sll f => Sys2Proof.Machine.execSll f s
  | .srl f => Sys2Proof.Machine.execSrl f s
  | .sra f => Sys2Proof.Machine.execSra f s
  | .slt f => Sys2Proof.Machine.execSlt f s
  | .sltz f => Sys2Proof.Machine.execSltz f s
  | .mul f => Sys2Proof.Machine.execMul f s
  | .mulh f => Sys2Proof.Machine.execMulh f s
  | .mulhz f => Sys2Proof.Machine.execMulhz f s
  | .div f => Sys2Proof.Machine.execDiv f s
  | .divz f => Sys2Proof.Machine.execDivz f s
  | .rem f => Sys2Proof.Machine.execRem f s
  | .remz f => Sys2Proof.Machine.execRemz f s
  | .min f => Sys2Proof.Machine.execMin f s
  | .max f => Sys2Proof.Machine.execMax f s
  | .minz f => Sys2Proof.Machine.execMinz f s
  | .maxz f => Sys2Proof.Machine.execMaxz f s
  | .clz f => Sys2Proof.Machine.execClz f s
  | .ctz f => Sys2Proof.Machine.execCtz f s
  | .pop f => Sys2Proof.Machine.execPop f s
  | .bext f => Sys2Proof.Machine.execBext f s
  | .bins f => Sys2Proof.Machine.execBins f s
  | .lih f => Sys2Proof.Machine.execLih f s
  | .li f => Sys2Proof.Machine.execLi f s
  | .sel f => Sys2Proof.Machine.execSel f s
  | .adr f => Sys2Proof.Machine.execAdr f s
  | .crr f => Sys2Proof.Machine.execCrr f s
  | .crw f => Sys2Proof.Machine.execCrw f s
  | .crs f => Sys2Proof.Machine.execCrs f s
  | .crc f => Sys2Proof.Machine.execCrc f s
  | .ld f => Sys2Proof.Machine.execLd f s
  | .st f => Sys2Proof.Machine.execSt f s
  | .lda f => Sys2Proof.Machine.execLda f s
  | .stl f => Sys2Proof.Machine.execStl f s
  | .pf f => Sys2Proof.Machine.execPf f s
  | .bCond f => Sys2Proof.Machine.execBCond f s
  | .j f => Sys2Proof.Machine.execJ f s
  | .jl f => Sys2Proof.Machine.execJl f s
  | .jr f => Sys2Proof.Machine.execJr f s
  | .smb f => Sys2Proof.Machine.execSmb f s
  | .bk f => Sys2Proof.Machine.execBk f s
  | .bt f => Sys2Proof.Machine.execBt f s
  | .act f => Sys2Proof.Machine.execAct f s
  | .actn f => Sys2Proof.Machine.execActn f s
  | .wb f => Sys2Proof.Machine.execWb f s
  | .pre f => Sys2Proof.Machine.execPre f s
  | .prex f => Sys2Proof.Machine.execPrex f s
  | .ref f => Sys2Proof.Machine.execRef f s
  | .refa f => Sys2Proof.Machine.execRefa f s
  | .rstat f => Sys2Proof.Machine.execRstat f s
  | .rplace f => Sys2Proof.Machine.execRplace f s
  | .setvl f => Sys2Proof.Machine.execSetvl f s
  | .setcfg f => Sys2Proof.Machine.execSetcfg f s
  | .vadd f => Sys2Proof.Machine.execVadd f s
  | .vsub f => Sys2Proof.Machine.execVsub f s
  | .vrsub f => Sys2Proof.Machine.execVrsub f s
  | .vmul f => Sys2Proof.Machine.execVmul f s
  | .vmulh f => Sys2Proof.Machine.execVmulh f s
  | .vmacc f => Sys2Proof.Machine.execVmacc f s
  | .vadds f => Sys2Proof.Machine.execVadds f s
  | .vaddsz f => Sys2Proof.Machine.execVaddsz f s
  | .vsubs f => Sys2Proof.Machine.execVsubs f s
  | .vsubsz f => Sys2Proof.Machine.execVsubsz f s
  | .vavg f => Sys2Proof.Machine.execVavg f s
  | .vabsd f => Sys2Proof.Machine.execVabsd f s
  | .vmin f => Sys2Proof.Machine.execVmin f s
  | .vmax f => Sys2Proof.Machine.execVmax f s
  | .vminz f => Sys2Proof.Machine.execVminz f s
  | .vmaxz f => Sys2Proof.Machine.execVmaxz f s
  | .vand f => Sys2Proof.Machine.execVand f s
  | .vor f => Sys2Proof.Machine.execVor f s
  | .vxor f => Sys2Proof.Machine.execVxor f s
  | .vsll f => Sys2Proof.Machine.execVsll f s
  | .vsrl f => Sys2Proof.Machine.execVsrl f s
  | .vsra f => Sys2Proof.Machine.execVsra f s
  | .vnsra f => Sys2Proof.Machine.execVnsra f s
  | .vwadd f => Sys2Proof.Machine.execVwadd f s
  | .vwmul f => Sys2Proof.Machine.execVwmul f s
  | .vdot4 f => Sys2Proof.Machine.execVdot4 f s
  | .vcmpeq f => Sys2Proof.Machine.execVcmpeq f s
  | .vcmpne f => Sys2Proof.Machine.execVcmpne f s
  | .vcmplt f => Sys2Proof.Machine.execVcmplt f s
  | .vcmple f => Sys2Proof.Machine.execVcmple f s
  | .vcmpltz f => Sys2Proof.Machine.execVcmpltz f s
  | .vcmplez f => Sys2Proof.Machine.execVcmplez f s
  | .vmerge f => Sys2Proof.Machine.execVmerge f s
  | .vmov f => Sys2Proof.Machine.execVmov f s
  | .vext f => Sys2Proof.Machine.execVext f s
  | .vins f => Sys2Proof.Machine.execVins f s
  | .vredsum f => Sys2Proof.Machine.execVredsum f s
  | .vredmin f => Sys2Proof.Machine.execVredmin f s
  | .vredmax f => Sys2Proof.Machine.execVredmax f s
  | .vredand f => Sys2Proof.Machine.execVredand f s
  | .vredor f => Sys2Proof.Machine.execVredor f s
  | .vfadd f => Sys2Proof.Machine.execVfadd f s
  | .vfsub f => Sys2Proof.Machine.execVfsub f s
  | .vfmul f => Sys2Proof.Machine.execVfmul f s
  | .vfma f => Sys2Proof.Machine.execVfma f s
  | .vfnma f => Sys2Proof.Machine.execVfnma f s
  | .vfmin f => Sys2Proof.Machine.execVfmin f s
  | .vfmax f => Sys2Proof.Machine.execVfmax f s
  | .vfdiv f => Sys2Proof.Machine.execVfdiv f s
  | .vfsqrt f => Sys2Proof.Machine.execVfsqrt f s
  | .vfrcp f => Sys2Proof.Machine.execVfrcp f s
  | .vfrsq f => Sys2Proof.Machine.execVfrsq f s
  | .vfexp2 f => Sys2Proof.Machine.execVfexp2 f s
  | .vfcmpeq f => Sys2Proof.Machine.execVfcmpeq f s
  | .vfcmplt f => Sys2Proof.Machine.execVfcmplt f s
  | .vfcmple f => Sys2Proof.Machine.execVfcmple f s
  | .vfredsum f => Sys2Proof.Machine.execVfredsum f s
  | .vfredmax f => Sys2Proof.Machine.execVfredmax f s
  | .vfclass f => Sys2Proof.Machine.execVfclass f s
  | .vslide f => Sys2Proof.Machine.execVslide f s
  | .vrot f => Sys2Proof.Machine.execVrot f s
  | .vperm f => Sys2Proof.Machine.execVperm f s
  | .vcompress f => Sys2Proof.Machine.execVcompress f s
  | .vexpand f => Sys2Proof.Machine.execVexpand f s
  | .viota f => Sys2Proof.Machine.execViota f s
  | .kand f => Sys2Proof.Machine.execKand f s
  | .kor f => Sys2Proof.Machine.execKor f s
  | .kxor f => Sys2Proof.Machine.execKxor f s
  | .knot f => Sys2Proof.Machine.execKnot f s
  | .kpop f => Sys2Proof.Machine.execKpop f s
  | .kfirst f => Sys2Proof.Machine.execKfirst f s
  | .kmov f => Sys2Proof.Machine.execKmov f s
  | .kmovPm f => Sys2Proof.Machine.execKmovPm f s
  | .kmovRowToMask f => Sys2Proof.Machine.execKmovRowToMask f s
  | .kmovMaskToRow f => Sys2Proof.Machine.execKmovMaskToRow f s
  | .vcka f => Sys2Proof.Machine.execVcka f s
  | .ckchk f => Sys2Proof.Machine.execCkchk f s
  | .pmclr f => Sys2Proof.Machine.execPmclr f s
  | .vcvt f => Sys2Proof.Machine.execVcvt f s
  | .vcvtq f => Sys2Proof.Machine.execVcvtq f s
  | .tcfg f => Sys2Proof.Machine.execTcfg f s
  | .tld f => Sys2Proof.Machine.execTld f s
  | .tldExposed f => Sys2Proof.Machine.execTldExposed f s
  | .mvm f => Sys2Proof.Machine.execMvm f s
  | .mvmz f => Sys2Proof.Machine.execMvmz f s
  | .mvmw f => Sys2Proof.Machine.execMvmw f s
  | .acrd f => Sys2Proof.Machine.execAcrd f s
  | .aclr f => Sys2Proof.Machine.execAclr f s
  | .ackx f => Sys2Proof.Machine.execAckx f s
  | .tstat f => Sys2Proof.Machine.execTstat f s
  | .xput f => Sys2Proof.Machine.execXput f s
  | .xget f => Sys2Proof.Machine.execXget f s
  | .xexp f => Sys2Proof.Machine.execXexp f s
  | .xhide f => Sys2Proof.Machine.execXhide f s
  | .xtrw f => Sys2Proof.Machine.execXtrw f s
  | .xtrc f => Sys2Proof.Machine.execXtrc f s
  | .copy f => Sys2Proof.Machine.execCopy f s
  | .ctwait f => Sys2Proof.Machine.execCtwait f s
  | .ctfind f => Sys2Proof.Machine.execCtfind f s
  | .vgld f => Sys2Proof.Machine.execVgld f s
  | .vgst f => Sys2Proof.Machine.execVgst f s
  | .radd f => Sys2Proof.Machine.execRadd f s
  | .rswap f => Sys2Proof.Machine.execRswap f s
  | .rcas f => Sys2Proof.Machine.execRcas f s
  | .rmax f => Sys2Proof.Machine.execRmax f s
  | .rpush f => Sys2Proof.Machine.execRpush f s
  | .rget f => Sys2Proof.Machine.execRget f s
  | .rput f => Sys2Proof.Machine.execRput f s
  | .rsync f => Sys2Proof.Machine.execRsync f s
  | .fenceFull f => Sys2Proof.Machine.execFenceFull f s
  | .fenceAcq f => Sys2Proof.Machine.execFenceAcq f s
  | .fenceRel f => Sys2Proof.Machine.execFenceRel f s
  | .fenceSv f => Sys2Proof.Machine.execFenceSv f s
  | .fenceVs f => Sys2Proof.Machine.execFenceVs f s
  | .fenceRow f => Sys2Proof.Machine.execFenceRow f s
  | .amo f => Sys2Proof.Machine.execAmo f s
  | .semt f => Sys2Proof.Machine.execSemt f s
  | .semc f => Sys2Proof.Machine.execSemc f s
  | .semq f => Sys2Proof.Machine.execSemq f s
  | .bara f => Sys2Proof.Machine.execBara f s
  | .barw f => Sys2Proof.Machine.execBarw f s
  | .barad f => Sys2Proof.Machine.execBarad f s
  | .lkw f => Sys2Proof.Machine.execLkw f s
  | .whold f => Sys2Proof.Machine.execWhold f s
  | .wrel f => Sys2Proof.Machine.execWrel f s
  | .wreg f => Sys2Proof.Machine.execWreg f s
  | .wdone f => Sys2Proof.Machine.execWdone f s
  | .qwait f => Sys2Proof.Machine.execQwait f s
  | .ldv f => Sys2Proof.Machine.execLdv f s
  | .valid f => Sys2Proof.Machine.execValid f s
  | .casv f => Sys2Proof.Machine.execCasv f s
  | .launch f => Sys2Proof.Machine.execLaunch f s
  | .lwait f => Sys2Proof.Machine.execLwait f s
  | .lcancel f => Sys2Proof.Machine.execLcancel f s
  | .gpred f => Sys2Proof.Machine.execGpred f s
  | .gjoin f => Sys2Proof.Machine.execGjoin f s
  | .yield f => Sys2Proof.Machine.execYield f s
  | .nprb f => Sys2Proof.Machine.execNprb f s
  | .npre f => Sys2Proof.Machine.execNpre f s
  | .trap f => Sys2Proof.Machine.execTrap f s
  | .rett f => Sys2Proof.Machine.execRett f s
  | .tlbiVa f => Sys2Proof.Machine.execTlbiVa f s
  | .tlbiAsid f => Sys2Proof.Machine.execTlbiAsid f s
  | .tlbiAll f => Sys2Proof.Machine.execTlbiAll f s
  | .jrecv f => Sys2Proof.Machine.execJrecv f s
  | .hexit f => Sys2Proof.Machine.execHexit f s
  | .wfi f => Sys2Proof.Machine.execWfi f s
  | .tstamp f => Sys2Proof.Machine.execTstamp f s
  | .ctxsave f => Sys2Proof.Machine.execCtxsave f s
  | .ctxrst f => Sys2Proof.Machine.execCtxrst f s
  | .pendingTrapTaken => Sys2Proof.Machine.execPendingTrapTaken s
  | .managementInterrupt => Sys2Proof.Machine.execManagementInterrupt s
  | .cairnReset => Sys2Proof.Machine.execCairnReset s
  | .powerOn => Sys2Proof.Machine.execPowerOn s
  | .moduleReset => Sys2Proof.Machine.execModuleReset s
  | .debtIncrement => Sys2Proof.Machine.execDebtIncrement s
  | .forcedRefresh => Sys2Proof.Machine.execForcedRefresh s
  | .refreshEngineRefresh => Sys2Proof.Machine.execRefreshEngineRefresh s
  | .bandFall => Sys2Proof.Machine.execBandFall s
  | .scoreboardActivationGrant => Sys2Proof.Machine.execScoreboardActivationGrant s
  | .mcGroupClose => Sys2Proof.Machine.execMcGroupClose s
  | .sliceBusRetirement => Sys2Proof.Machine.execSliceBusRetirement s
  | .channelRead => Sys2Proof.Machine.execChannelRead s
  | .channelMaskedWrite => Sys2Proof.Machine.execChannelMaskedWrite s
  | .channelRefusedOpc => Sys2Proof.Machine.execChannelRefusedOpc s
  | .channelReply => Sys2Proof.Machine.execChannelReply s
  | .transferComplete => Sys2Proof.Machine.execTransferComplete s
  | .transferFail => Sys2Proof.Machine.execTransferFail s
  | .copyChunkPerformed => Sys2Proof.Machine.execCopyChunkPerformed s
  | .remoteRequestReceived => Sys2Proof.Machine.execRemoteRequestReceived s
  | .remoteResponseReceived => Sys2Proof.Machine.execRemoteResponseReceived s
  | .retransmissionTimer => Sys2Proof.Machine.execRetransmissionTimer s
  | .floorBeaconTimer => Sys2Proof.Machine.execFloorBeaconTimer s
  | .floorBeaconReceived => Sys2Proof.Machine.execFloorBeaconReceived s
  | .beaconAckReceived => Sys2Proof.Machine.execBeaconAckReceived s
  | .incarnationProbeReceived => Sys2Proof.Machine.execIncarnationProbeReceived s
  | .probeAnswerReceived => Sys2Proof.Machine.execProbeAnswerReceived s
  | .talusRecordExpiry => Sys2Proof.Machine.execTalusRecordExpiry s
  | .copyReadRequestReceived => Sys2Proof.Machine.execCopyReadRequestReceived s
  | .copyDataAtOwner => Sys2Proof.Machine.execCopyDataAtOwner s
  | .copyDataAtRequester => Sys2Proof.Machine.execCopyDataAtRequester s
  | .copyAcknowledgementReceived => Sys2Proof.Machine.execCopyAcknowledgementReceived s
  | .copyChunkRetransmit => Sys2Proof.Machine.execCopyChunkRetransmit s
  | .efpoPacketDropped => Sys2Proof.Machine.execEfpoPacketDropped s
  | .efpoLinkChange => Sys2Proof.Machine.execEfpoLinkChange s
  | .timeSyncExchange => Sys2Proof.Machine.execTimeSyncExchange s
  | .timeSyncAnswer => Sys2Proof.Machine.execTimeSyncAnswer s
  | .tsyncLoss => Sys2Proof.Machine.execTsyncLoss s
  | .paceRequest => Sys2Proof.Machine.execPaceRequest s
  | .paceRequestReceived => Sys2Proof.Machine.execPaceRequestReceived s
  | .paceFallDwell => Sys2Proof.Machine.execPaceFallDwell s
  | .paceAgreementReceived => Sys2Proof.Machine.execPaceAgreementReceived s
  | .paceAgreementApply => Sys2Proof.Machine.execPaceAgreementApply s
  | .paceAckReceived => Sys2Proof.Machine.execPaceAckReceived s
  | .paceAgreementResend => Sys2Proof.Machine.execPaceAgreementResend s
  | .paceMemberSilent => Sys2Proof.Machine.execPaceMemberSilent s
  | .paceCoordinatorSilent => Sys2Proof.Machine.execPaceCoordinatorSilent s
  | .sensorSample => Sys2Proof.Machine.execSensorSample s
  | .observerTick => Sys2Proof.Machine.execObserverTick s
  | .powerEstimate => Sys2Proof.Machine.execPowerEstimate s
  | .peakClampEnd => Sys2Proof.Machine.execPeakClampEnd s
  | .govRise => Sys2Proof.Machine.execGovRise s
  | .govFall => Sys2Proof.Machine.execGovFall s
  | .permitBoundary => Sys2Proof.Machine.execPermitBoundary s
  | .monitorSample => Sys2Proof.Machine.execMonitorSample s
  | .launchAdmission => Sys2Proof.Machine.execLaunchAdmission s
  | .launchPredecessorCancel => Sys2Proof.Machine.execLaunchPredecessorCancel s
  | .cancelledHartStop => Sys2Proof.Machine.execCancelledHartStop s
  | .launchReplay => Sys2Proof.Machine.execLaunchReplay s
  | .contextDispatch => Sys2Proof.Machine.execContextDispatch s
  | .yieldRequest => Sys2Proof.Machine.execYieldRequest s
  | .forcedSave => Sys2Proof.Machine.execForcedSave s
  | .regionOverrun => Sys2Proof.Machine.execRegionOverrun s
  | .barrierDestroyed => Sys2Proof.Machine.execBarrierDestroyed s
  | .roceSend => Sys2Proof.Machine.execRoceSend s
  | .roceRdmaWrite => Sys2Proof.Machine.execRoceRdmaWrite s
  | .roceRdmaRead => Sys2Proof.Machine.execRoceRdmaRead s
  | .roceUnsupported => Sys2Proof.Machine.execRoceUnsupported s
  | .roceIcrcFail => Sys2Proof.Machine.execRoceIcrcFail s
  | .hostFrameOther => Sys2Proof.Machine.execHostFrameOther s
  | .cnpReceived => Sys2Proof.Machine.execCnpReceived s
  | .readRateRaise => Sys2Proof.Machine.execReadRateRaise s
  | .pgflushWrite => Sys2Proof.Machine.execPgflushWrite s
  | .pgflushDone => Sys2Proof.Machine.execPgflushDone s
  | .pubforceClear => Sys2Proof.Machine.execPubforceClear s
  | .preemptRequest => Sys2Proof.Machine.execPreemptRequest s
  | .preemptMigrate => Sys2Proof.Machine.execPreemptMigrate s
  | .counterClear => Sys2Proof.Machine.execCounterClear s
  | .attestationRequest => Sys2Proof.Machine.execAttestationRequest s
  | .attestationDone => Sys2Proof.Machine.execAttestationDone s
  | .featlockWrite => Sys2Proof.Machine.execFeatlockWrite s
  | .faccWrite => Sys2Proof.Machine.execFaccWrite s
  | .efdevidWrite => Sys2Proof.Machine.execEfdevidWrite s
  | .sensorReadmit => Sys2Proof.Machine.execSensorReadmit s
  | .sensorMarkFailed => Sys2Proof.Machine.execSensorMarkFailed s
  | .alarmClear => Sys2Proof.Machine.execAlarmClear s
  | .mipClear => Sys2Proof.Machine.execMipClear s
  | .logidxAppend => Sys2Proof.Machine.execLogidxAppend s
  | .monitorClear => Sys2Proof.Machine.execMonitorClear s
  | .permcfgDrop => Sys2Proof.Machine.execPermcfgDrop s
  | .islthrWrite => Sys2Proof.Machine.execIslthrWrite s
  | .sembitsWrite => Sys2Proof.Machine.execSembitsWrite s
  | .ctbWrite => Sys2Proof.Machine.execCtbWrite s
  | .tcfgWrite => Sys2Proof.Machine.execTcfgWrite s
  | .vcfgWrite => Sys2Proof.Machine.execVcfgWrite s
  | .vlWrite => Sys2Proof.Machine.execVlWrite s
  | .lclassWrite => Sys2Proof.Machine.execLclassWrite s
  | .prioWrite => Sys2Proof.Machine.execPrioWrite s
  | .serialRegisterWrite => Sys2Proof.Machine.execSerialRegisterWrite s
  | .registerWrite => Sys2Proof.Machine.execRegisterWrite s
  | .uncorrectableStateError => Sys2Proof.Machine.execUncorrectableStateError s
  | .pauseFrameReceived => Sys2Proof.Machine.execPauseFrameReceived s
  | .hostPortLinkChange => Sys2Proof.Machine.execHostPortLinkChange s

end Sys2Proof.Machine
end

