-- ==== Sys2Proof/Machine/Gang.lean ====
section
/-! DEFINITION. One word of a gang (R313-R316): fetched once, executed by every active member, complete when it has completed on
each; uniform control transfers; traps taken by every active member. -/

namespace Sys2Proof.Machine

/-! ### Members -/

/-- Index of a gang member. -/
def Ctx.gangIndex (c : Ctx) : Nat := (c.gang.map (fun g => g.index)).getD 0

/-- Whether a gang member is active (R315). -/
def Ctx.gangActive (c : Ctx) : Bool := (c.gang.map (fun g => g.active)).getD false

/-- Whether a gang member has completed the word at an address that another member has not. -/
def Ctx.gangDone (c : Ctx) (x : Word) : Bool := c.gang.any (fun g => g.done == some x)

/-- Sets what a gang member has completed. -/
def Ctx.setDone (c : Ctx) (d : Option Word) : Ctx := { c with gang := c.gang.map (fun g => { g with done := d }) }

/-- The live members of the current context's gang in order of index. -/
def State.members (s : State) : List Ctx :=
  (List.range 64).filterMap (fun i => (s.gangOf s.cur).find? (fun c => c.gangIndex == i))

/-- Changes every member of the current context's gang. -/
def State.mapGang (s : State) (f : Ctx → Ctx) : State :=
  let l := s.cur.launch
  s.mapAll (fun c => if c.gang.isSome && c.launch = l && c.run != .ended then f c else c)

/-- The bitmap of members that pass a test (R314). -/
def memberMap (cs : List Ctx) (p : Ctx → Bool) : Word :=
  cs.foldl (fun w c => if p c then w ||| 1#64 <<< c.gangIndex else w) 0

/-! ### Words -/

/-- Control transfers that must be uniform (R314): b, bk, bt, smb, jr, and a pair with HOP 15 or 28. -/
def gangBranch (i : Instr) : Bool :=
  match i with
  | .bCond _ => true
  | .bk _ => true
  | .bt _ => true
  | .smb _ => true
  | .jr _ => true
  | .pairWord w => (pairParts w).any (fun p => match p.2.1 with
    | .bCond _ => true
    | .smb _ => true
    | _ => false)
  | _ => false

/-- Whether a word writes TSTAT: crw, crs or crc of 0x100. -/
def writesTstat (i : Instr) : Bool :=
  match i with
  | .crw f => crNumber f = 0x100
  | .crs f => crNumber f = 0x100
  | .crc f => crNumber f = 0x100
  | _ => false

/-- A pair keeps the halves marked done; any other word clears the mark (R333). -/
def clearSkip (i : Instr) (c : Ctx) : Ctx :=
  match i with
  | .pairWord _ => c
  | _ => { c with skip := 0 }

/-- A word executed by one member. -/
def State.runMember (s : State) (i : Instr) (id : Nat) : State :=
  match exec i ((s.switchTo id).settleIn.setCur (clearSkip i)) with
  | .next t => t
  | _ => s

/-- Whether the member's word ended in a trap: it entered trap level, or its end began. -/
def memberTrapped (i : Instr) (before after : Ctx) : Bool :=
  (!before.tl && after.tl && !(writesTstat i && after.pc = before.pc + 8)) ||
    (before.ending.isNone && after.ending.isSome)

/-- Whether a member cannot execute a control transfer yet. -/
def State.memberStalls (s : State) (i : Instr) (id : Nat) : Bool :=
  let t := s.switchTo id
  match i with
  | .pairWord w => (pairParts w).any (fun p => waitsScalar p.2.1 t) || (match pairBody w t with
    | .stay _ => true
    | _ => false)
  | _ => waitsScalar i t

/-! ### Traps -/

/-- A trap of one member with the pair state it has (R52). -/
def State.memberTrap (s : State) (id code : Nat) (tval : Word) : State :=
  let t := s.switchTo id
  if t.cur.ending.isSome then t
  else takeTrap code tval { hv := t.cur.skip != 0, hdone := t.cur.skip } (t.setCur (fun c => { c with skip := 0 }))

/-- Class 19, subcode 12, with the lowest index of a member that trapped (R316). -/
def State.companionTrap (s : State) (id low : Nat) : State := s.memberTrap id (19 * 16 + 12) (BitVec.ofNat 64 low)

/-- The lowest index among members. -/
def lowestIndex (cs : List Ctx) : Nat := cs.foldl (fun m c => Nat.min m c.gangIndex) 64

/-- The members follow the first active one: the gang has one instruction stream (R313). -/
def State.follow (s : State) : State :=
  match s.members.find? (fun c => c.gangActive && c.run = .running) with
  | some c => s.mapGang (fun d => { d with pc := c.pc })
  | none => s

/-- Whether a member of a list has to wait before it can take a trap, its record's group holding another row (R31). -/
def State.gangWaits (s : State) (active : List Ctx) : Bool := active.any (fun c => (s.switchTo c.reqid).recordWait.isSome)

/-- The records of those members have arrived at their groups. -/
def State.gangJoins (s : State) (active : List Ctx) : State := active.foldl (fun t c => (t.switchTo c.reqid).recordJoin) s

/-- What a member had completed of the word that a trap interrupts is kept for its return (R313, R316). -/
def State.keepDone (s : State) (active : List Ctx) : State :=
  active.foldl (fun t c => t.mapCtx c.reqid (fun d => { d with gang := d.gang.map (fun g => { g with
    done := none, kept := if c.gangDone d.tpc then some d.tpc else none }) })) s

/-- A gang takes a trap at the word it is at (R316): `mine` tells the members with a trap of their own, which `own` takes. -/
def State.gangTrap (s : State) (active : List Ctx) (mine : Ctx → Bool) (own : State → Nat → State) : State :=
  if s.gangWaits active then s.gangJoins active else
  let low := lowestIndex (active.filter mine)
  ((active.foldl (fun t c => if mine c then own t c.reqid else State.companionTrap t c.reqid low) s).keepDone active).follow

/-- A member past a wfi it is blocked in (R335): its trap finds the wfi ended. -/
def State.pastWfi (s : State) (id : Nat) : State :=
  let t := s.switchTo id
  let ended := match decodeWord (t.wordAt t.cur.pc) with
    | .wfi _ => t.cur.gangDone t.cur.pc || t.cur.blocked
    | _ => false
  if ended then t.setCur (fun c => Ctx.setDone { c with pc := c.pc + 8, blocked := false } none) else t

/-- An asynchronous trap due to an active member is taken by every active member (R316). -/
def State.gangPending (s : State) (active : List Ctx) : State :=
  if s.gangWaits active then s.gangJoins active else
  let low := lowestIndex (active.filter Ctx.trapDue)
  ((active.foldl (fun t c =>
    if c.trapDue then (t.switchTo c.reqid).takePending else State.companionTrap (t.pastWfi c.reqid) c.reqid low) s).keepDone active).follow

/-! ### A word of the gang -/

/-- Runs a word on one member, in a state and a list of those that trapped; a member that completes is marked. -/
def State.memberStep (i : Instr) (x : Word) (r : State × List Nat × Word) (c : Ctx) : State × List Nat × Word :=
  let s := r.1.switchTo c.reqid
  if s.cur.gangDone x || s.cur.run != .running then r else
  let t := s.runMember i c.reqid
  if memberTrapped i s.cur t.cur then (t, r.2.1 ++ [c.reqid], r.2.2)
  else if t.cur.run != .running || t.cur.pc = x then (t, r.2.1, r.2.2)
  else (t.setCur (fun d => Ctx.setDone { d with pc := x } (some x)), r.2.1, t.cur.pc)

/-- A member goes on to the next word; the return from a handler brings back what the trap interrupted (R316). -/
def Ctx.nextWord (c : Ctx) (next : Word) : Ctx :=
  { c with pc := next, gang := c.gang.map (fun g => { g with done := if c.tl then none else g.kept, kept := if c.tl then g.kept else none }) }

/-- The word is complete when each member that executes it is marked; the gang goes on to the next (R313). -/
def State.gangFinish (s : State) (x next : Word) (run : List Ctx) : State :=
  if run.all (fun c => (s.ctx? c.reqid).any (fun d => d.gangDone x)) then
    s.mapGang (fun c => c.nextWord next)
  else s

/-- Whether the trap of a member waits for its record's group, as the states before and after its word show. -/
def State.memberWaits (s t : State) (c : Ctx) : Bool :=
  match (s.switchTo c.reqid).recordWait with
  | some pa => t.rowQueue.any (fun e => e.group == groupOf pa && e.who == hartWaiter c.reqid)
  | none => false

/-- Executes a word on the members that take part; where one traps no other keeps an effect (R316);
an inactive member takes no trap. -/
def State.gangExecute (s : State) (i : Instr) (x : Word) (run : List Ctx) : State :=
  let r := run.foldl (State.memberStep i x) (s, [], x + 8)
  if run.any (fun c => s.memberWaits r.1 c) then s.arrived r.1
  else if r.2.1.isEmpty then r.1.gangFinish x r.2.2 run
  else
    let active := run.filter Ctx.gangActive
    if active.isEmpty then s.mapGang (fun c => { c with pc := x + 8 }) else
    let low := lowestIndex (run.filter (fun c => r.2.1.contains c.reqid))
    s.gangTrap active (fun c => r.2.1.contains c.reqid) (fun t id =>
      let u := t.runMember i id
      if memberTrapped i (t.switchTo id).cur u.cur then u else t.companionTrap id low)

/-- A control transfer of the gang (R314): every active member goes one way, or all trap class 19, subcode 1. -/
def State.gangBranchStep (s : State) (i : Instr) (x : Word) (active : List Ctx) : State :=
  let todo := active.filter (fun c => !c.gangDone x)
  if todo.any (fun c => s.memberStalls i c.reqid) then s else
  let ends := todo.map (fun c => (c, (s.runMember i c.reqid).cur))
  let same := match ends with
    | [] => true
    | e :: rest => rest.all (fun d => d.2.pc == e.2.pc)
  if same || ends.any (fun e => memberTrapped i e.1 e.2) then s.gangExecute i x active
  else
    let first := ((ends.head?).map (fun e => e.2.pc)).getD 0
    let jumps := (ends.filter (fun e => match i with
      | .jr _ => e.2.pc != first
      | _ => e.2.pc != x + 8)).map (fun e => e.1)
    let tval := memberMap jumps (fun _ => true)
    s.gangTrap active (fun _ => true) (fun t id => t.memberTrap id (19 * 16 + 1) tval)

/-- hexit of a gang: with any member inactive class 19, subcode 1 (R314). -/
def State.gangExit (s : State) (i : Instr) (members active : List Ctx) : State :=
  if active.length = members.length then members.foldl (fun t c => State.runMember t i c.reqid) s
  else s.gangTrap active (fun _ => true) (fun t id => t.memberTrap id (19 * 16 + 1) (memberMap active (fun _ => true)))

/-- One word on a gang (R313-R316). With no active member every word but gpred and gjoin is skipped. -/
def State.gangWord (s : State) (i : Instr) (x : Word) : State :=
  let members := s.members
  let active := members.filter Ctx.gangActive
  let s := if (s.cur.tl) then s else s.mapGang (fun c => if c.gangDone x then c else c.setDone none)
  match i with
  | .gpred _ => s.gangExecute i x members
  | .gjoin _ => s.gangExecute i x members
  | _ =>
    if active.isEmpty then s.mapGang (fun c => { c with pc := x + 8 })
    else match i with
      | .hexit _ => s.gangExit i members active
      | _ => if gangBranch i then s.gangBranchStep i x active else s.gangExecute i x active

end Sys2Proof.Machine
end

