-- ==== Sys2Proof/Machine/Turn.lean ====
section
/-! DEFINITION. One turn of the machine: the next element of the agenda, or the next boundary of the hart whose turn it is (R29,
R310, R328, R339, R394), with the fetch of a word (R40, R362). -/

namespace Sys2Proof.Machine

/-! ### Fetch -/

/-- The 8 bytes at the current PC (R40, R362): a fault of the fetch, or 21/3 for a poisoned granule (R356). -/
def State.fetch (s : State) : Except Nat (Word × State) :=
  match s.translate s.cur.pc .fetch with
  | .error c => .error c
  | .ok (leaf, t) =>
    if poisoned t.poison leaf.pa 8 then .error (21 * 16 + 3)
    else
      let (bs, u) := t.readPhys leaf 8
      .ok (BitVec.ofNat 64 (leValue bs), u)

/-- A barad record lasts until control leaves the instruction, but for a trap handler (R288). -/
def Ctx.dropStale (c : Ctx) : Ctx :=
  if c.tl || c.barad.isEmpty then c else { c with barad := c.barad.filter (fun r => !r.tl && r.pc == c.pc) }

/-- The current hart fetches, decodes and executes one word; an activation that the scoreboard grants first comes before the word
(R104). -/
def State.wordTurn (s : State) : Host.Outcome State Fault Refusal :=
  let s := (s.setCur Ctx.dropStale).settleIn
  match s.fetch with
  | .error c => .next (takeTrap c s.cur.pc { hv := s.cur.skip != 0, hdone := s.cur.skip } s)
  | .ok (w, t) => match t.grantBefore (decodeWord w) with
    | some u => .next u
    | none => exec (decodeWord w) (t.setCur (clearSkip (decodeWord w)))

/-! ### Turns -/

/-- A turn of the current hart's gang (R313, R316), while all its members run: a pending trap, a forced save
once no member is inside a region (R339, R347), or one word. -/
def State.gangTurn (s : State) : State :=
  let members := s.members
  if members.any (fun c => c.run != .running || c.ending.isSome) then s else
  let active := members.filter Ctx.gangActive
  if active.any Ctx.trapDue then s.gangPending active else
  match (if s.mayStop then members.find? (fun c => (s.switchTo c.reqid).forcedDueNow) else none) with
  | some c => (s.switchTo c.reqid).forceSave
  | none =>
  match members.find? (fun c => c.gangActive || active.isEmpty) with
  | none => s
  | some lead =>
    let t := (s.mapGang Ctx.dropStale).switchTo lead.reqid
    match t.fetch with
    | .error c => if active.isEmpty then s else s.gangTrap active (fun _ => true) (fun u id => u.memberTrap id c lead.pc)
    | .ok (w, u) => u.gangWord (decodeWord w) lead.pc

/-- A turn of the current hart: it ends (R310, R311), is cancelled (R310), waits for a partition, takes a management interrupt
(R394), takes a pending trap (R328), is saved (R339), or executes one word. -/
def State.hartTurn (s : State) : Host.Outcome State Fault Refusal :=
  let c := s.cur
  if c.run = .ended then .next s
  else if c.ending.isSome then .next s.endStep
  else if c.stops then .next (s.beginEnd (s.stopEnding c))
  else if c.run != .running then .next s
  else if c.kind = .cairn && s.dueInterrupt.isSome then .next (s.takeInterrupt (s.dueInterrupt.getD 0))
  else if c.gang.isSome then .next (s.gangTurn.switchTo c.reqid)
  else if c.trapDue then .next s.takePending
  else if s.forcedDueNow then .next s.forceSave
  else s.wordTurn

/-- Whether a row of the opcode table is a step that no program issues: it has no word. -/
def isEvent (i : Instr) : Bool := (encode i).isNone

/-- Whether a context was interrupted inside its instruction: a trap that it can take, a forced save due, or its save (R126,
R340). -/
def State.interrupted (s : State) (id : Nat) : Bool :=
  match s.ctx? id with
  | none => true
  | some c => (s.gangOf c).any (fun d => d.run != .running || d.trapDue || (s.switchTo d.reqid).forcedDueNow)

/-- Time passes, then an event comes. -/
def State.timedEvent (s : State) (ps : Nat) (i : Instr) (x : EventInput) : Host.Outcome State Fault Refusal :=
  if isEvent i then exec i { s.passTime ps with input := x } else .next (s.passTime ps)

/-- A turn of the current hart in which an event comes while an element-wise instruction performs, with the elements below `n` done
(R126, R340); in a pair, elements of H1 count on from VL of an element-wise H0. Unless the event interrupts the hart, or where no stop
can be made there, the instruction performs whole before it. -/
def State.midwayTurn (s : State) (n ps : Nat) (i : Instr) (x : EventInput) : Host.Outcome State Fault Refusal :=
  let whole : Host.Outcome State Fault Refusal := match s.hartTurn with
    | .next t => t.timedEvent ps i x
    | r => r
  match State.hartTurn { s with stopAt := some n } with
  | .next t =>
    let at_ := t.cur.estart.toNat
    let half := t.cur.skip != s.cur.skip
    if t.cur.reqid = s.cur.reqid && t.cur.pc = s.cur.pc && ((at_ = n && (s.cur.estart.toNat < n || half)) ||
        (half && s.cur.vl.toNat + at_ = n)) then
      match State.timedEvent { t with stopAt := none } ps i x with
      | .next u => if u.interrupted s.cur.reqid then .next u else whole
      | _ => whole
    else whole
  | _ => whole

/-- A packet arrives at an Efpo port (R407): it is dropped and counted, or taken as the step that its TYPE is, which counts it at that
port (R412). -/
def State.packetArrives (s : State) (port : Nat) (f : Frame) (i : Instr) (x : EventInput) : Host.Outcome State Fault Refusal :=
  match s.frameDrop f with
  | some k => .next (s.efCount port k 1)
  | none =>
    if frameTaken f i && isEvent i then
      match exec i { s with input := x, inPort := some port } with
      | .next t => .next { t with inPort := none }
      | r => r
    else .next s

/-- The oldest packet that this hub sent to itself arrives (R263). -/
def State.loopArrives (s : State) : Host.Outcome State Fault Refusal :=
  match s.efpo.loop with
  | [] => .next s
  | p :: rest =>
    let t := { s with efpo := { s.efpo with loop := rest } }
    match p.arrival with
    | some (i, x) => exec i { t with input := x }
    | none => .next t

/-- A packet that waited for a group is tried again (R31): remote operations and copies of other agents, and requests on the channels
of the stacks. -/
def State.retryRemote (s : State) (x : EventInput) (i : Instr) : State :=
  match x, i with
  | .request p, _ => s.admitRequest p
  | .block k pa tag mask data, _ => s.channelWrite k pa tag mask data
  | .nums k pa tag, .channelRead => s.channelRead k pa tag
  | .copy p, .copyReadRequestReceived => s.admitCopy p true
  | .copy p, _ => s.admitCopy p false
  | _, _ => s

/-- The waiter that a packet which waits is at its group (R31). -/
def inputWaiter (x : EventInput) : Option Nat :=
  match x with
  | .request p => some (talusWaiter p.reqid p.serial)
  | .copy p => some (copyWaiter p)
  | .block k pa tag _ _ => some (channelWaiter k pa tag)
  | .nums k pa tag => some (channelWaiter k pa tag)
  | .roce p => some (hostWaiter p.qp)
  | _ => none

/-- The packet at place `n` of those that wait for a group is tried again (R31); it keeps its place where it still waits, and else its
access leaves the queue of the group. Requests of one queue pair keep their order (R406). -/
def State.retryWaiting (s : State) (n : Nat) : State :=
  match s.waitingIn[n]? with
  | none => s
  | some (i, x) =>
    let t := { s with waitingIn := s.waitingIn.eraseIdx n }
    let u : State := match x with
      | .roce p => if (t.waitingIn.take n).any (fun e => isRoceOf e.2 p.qp) then s else t.retryHost i p
      | _ => t.retryRemote x i
    if t.waitingIn.length < u.waitingIn.length then { u with waitingIn := s.waitingIn }
    else match inputWaiter x with
      | some who => u.rowLeave who
      | none => u

/-- A context held here has been installed on another device, drained (R268, R276): its wait and its holds are no longer tracked here
(R292), and a message that woke it goes to the next receiver (R324). -/
def State.moveAway (s : State) (id dev : Nat) : State :=
  match s.ctx? id with
  | none => s
  | some c =>
    if c.run = .held && c.beacons.isEmpty && c.transfers.isEmpty && dev < 2 ^ 13 && !s.towerBound c then
      let t := (s.held id).foldl (fun s o => State.dropHold s o id)
        (s.mapCtx id (fun c => { c with reply := dev, wait := none, blocked := false }))
      if c.waitsOn .jrecv mailboxObj then t.tellReceivers (jobOf c.launch) else t
    else s

/-- A context that runs on another device has ended there: its number here is free (R268). -/
def State.endAway (s : State) (id : Nat) : State :=
  s.onBehalf id (fun t => if t.cur.reqid = id && t.away t.cur then
    t.finishEnd { cause := 0, exit := 0, failed := false, cancel := false, replay := true } else t)

/-- One element of the agenda. -/
def State.perform (s : State) (x : Turn) : Host.Outcome State Fault Refusal :=
  match x with
  | .run id => .next (s.switchTo id)
  | .event i inp => if isEvent i then exec i { s with input := inp } else .next s
  | .pass ps => .next (s.passTime ps)
  | .dropTlb unit => .next { s with tlbs := s.tlbs.del unit, walks := s.walks.del unit }
  | .evictLine tower line => .next (s.dropLine tower line)
  | .packet port f i inp => s.packetArrives port f i inp
  | .loopBack => s.loopArrives
  | .retry n => .next (s.retryWaiting n)
  | .badFrame => .next s.badFrame
  | .movedAway id dev => .next (s.moveAway id dev)
  | .endedAway id => .next (s.endAway id)
  | .foreignRelease id lines => .next (if (s.ctx? id).isSome then s else s.publish id (fun e => lines.contains e.1))
  | .poison granule => .next (if granule * 32 < dramEnd then { s with poison := insertSorted granule s.poison } else s)
  | .corrected key bus wire => .next (s.correctBeat (key % 2 ^ 17) bus wire)
  | .miscorrected granule bs => .next (s.miscorrect granule bs)
  | .stuck tower bus => .next (s.stuckWire tower bus)
  | .boundary => s.hartTurn
  | .midway n ps i inp => s.midwayTurn n ps i inp

/-- Whether the machine is stopped after start-up found no image (R415), and the next turn does not start it again. -/
def State.stopped (s : State) : Bool :=
  s.hub.startStat = 1 && (match s.agenda with
    | .event .powerOn _ :: _ => false
    | .event .moduleReset _ :: _ => false
    | _ => true)

/-- One turn of the machine. -/
def State.turn (s : State) : Host.Outcome State Fault Refusal :=
  if s.stopped then .fault .startUpStopped
  else match s.agenda with
    | [] => s.hartTurn
    | x :: rest => State.perform { s with agenda := rest } x

/-- Stores a word where the current hart fetches its next instruction. -/
def State.placeWord (s : State) (w : Nat) : State :=
  match s.translate s.cur.pc .fetch with
  | .ok (leaf, _) => s.poke leaf.pa (leBytes w 8)
  | .error _ => s

end Sys2Proof.Machine
end

