-- ==== Sys2Proof/Machine/Step.lean ====
section
/-! DEFINITION. One step of the machine, and the word a step fetches. -/

namespace Sys2Proof.Machine

/-- One step: the next turn. -/
def step (s : State) : Host.Outcome State Fault Refusal := s.turn

/-- The state with an instruction's bits stored where the next step fetches. -/
def State.withFetchWord (s : State) (nbits w : Nat) : State := s.placeWord (w % 2 ^ Nat.min nbits 64)

end Sys2Proof.Machine
end

