-- ==== Sys2Proof/Safety.lean ====
section
/-! DEFINITION. What counts as a safe run, in the terms the statements use: a machine whose memory is in canonical form; a hart
whose next turn is an instruction; rows, masks and addresses that an instruction can use without a trap or a wait; and what it means
that a code is the rounding of a number (R149, R150, R157), over the rationals. -/

namespace Sys2Proof.Machine

/-- The invariant of every run: device memory is in canonical form. -/
def State.MemInv (s : State) : Prop := Memory.wf s.mem = true

/-- VL is at most VLMAX in every context (R118). -/
def State.VlInv (s : State) : Prop := ∀ c ∈ s.live, c.vl.toNat ≤ vlMax c.vcfg c.lclass

/-- The refresh debt of every group is between -8 and 9 (R108). -/
def State.DebtInv (s : State) : Prop := ∀ k, -8 ≤ (s.group k).debt ∧ (s.group k).debt ≤ 9

/-- The registers that hold where a trap goes and what it may use (R329): only control-register writes change them. -/
def Ctx.SameVectors (c d : Ctx) : Prop :=
  d.tvec = c.tvec ∧ d.trec = c.trec ∧ d.tscratch = c.tscratch ∧ d.ptroot = c.ptroot ∧ d.ctxsave = c.ctxsave

/-- The registers that taking a trap writes (R329). -/
def Ctx.SameCause (c d : Ctx) : Prop := d.tcause = c.tcause ∧ d.tpc = c.tpc ∧ d.tval = c.tval ∧ d.pm = c.pm

/-- The next turn is an instruction of the current hart: start-up has an image, the agenda is empty, the hart runs, is not
ending and not stopped by a cancellation, belongs to no gang, and has neither an interrupt nor a trap nor a forced save due
(R29, R310, R313, R328, R339, R394). -/
structure State.AtWord (s : State) : Prop where
  started : s.stopped = false
  quiet : s.agenda = []
  running : s.cur.run = .running
  alive : s.cur.ending = none
  goesOn : s.cur.stops = false
  noInterrupt : s.cur.kind = .cairn → s.dueInterrupt = none
  single : s.cur.gang = none
  noTrap : s.cur.trapDue = false
  noSave : s.forcedDueNow = false

/-- Group `g` of the home bank can be read as a row register now, and written when `write` holds: open, not closed by force nor
about to be refreshed by force (R110), past tAU, writable, with the D bits of its pages set (R96, R97). -/
structure State.RowReady (s : State) (g : Nat) (write : Bool) : Prop where
  notForced : (s.homeGroup g).forced = false
  settled : (s.homeGroup g).forcing = false
  isOpen : (s.homeGroup g).row.isSome = true
  activated : s.usableAt (s.homeKey g) ≤ s.clk
  writes : write = true → (s.homeGroup g).writable = true ∧ (s.homeGroup g).dset = true

/-- The current hart belongs to no replayable launch (R352). -/
def State.NoReplay (s : State) : Prop := ∀ l, s.launchOf s.cur = some l → l.replayable = false

/-- No context of the device has a transfer in flight (R198). -/
def State.NoTransfers (s : State) : Prop := ∀ c ∈ s.live, c.transfers = []

/-- What the checks of R125 ask of a vector instruction's shape in a state: width and format allowed, rows and masks aligned,
the latency class wide enough, every row ready, and a rounding mode where it rounds; no interrupt comes in its midst (R340). -/
structure VecReady (sh : VecShape) (s : State) (rm : RoundMode) : Prop where
  whole : s.stopAt = none
  width : sh.packed = true ∨ ewOf s.cur.vcfg ≠ 4
  fc : sh.fcOk = true
  sizes : sh.widthOk = true
  rows : ∀ r ∈ sh.rows, rowField r.1 % r.2.1 = 0
  masks : ∀ m ∈ sh.masks, m.1 % vgOf s.cur.vcfg = 0
  length : sh.lengthOk = true
  index : ∀ i, sh.index = some i → i < s.cur.vl.toNat
  wide : vgOf s.cur.vcfg ≤ vgMax s.cur.lclass
  isOpen : ∀ r ∈ sh.rows, ∀ i < r.2.1, s.RowReady (rowField r.1 + i) r.2.2
  noReplay : s.NoReplay
  mode : match sh.rm with
    | none => rm = 0
    | some x => roundingMode x s.cur.frm = some rm

/-- Opens a ready row for a write: the hart's stores into it have performed (R73), and it is open dirty (R97). -/
def State.markRow (s : State) (g : Nat) : State :=
  (s.orderStores (s.openBase (s.homeKey g)) 8192).setGroup (s.homeKey g) (fun x => { x with dirty := true })

/-- Opens rows of the home bank for a write, one after the other. -/
def State.markDirty (s : State) (gs : List Nat) : State := gs.foldl State.markRow s

/-- The state after a row-writing instruction has written a list of elements of `ew` bits into the run of `n` groups from `g`
(R97, R123, R126, R130): rows dirty, elements, ESTART 0. -/
def State.withElements (s : State) (g n ew : Nat) (es : List Elt) : State :=
  ((s.markDirty ((touched n ew es).map (fun i => g + i))).writeElts g n ew es).setCur (fun c => { c with estart := 0 })

/-- The state in which an element-wise instruction takes an enabled numeric trap at element `e` (R161): the elements below `e`
have been written, and ESTART names `e`. -/
def State.elementsBelow (s : State) (g n ew : Nat) (es : List Elt) (e : Nat) : State :=
  (s.withElements g n ew (es.filter (fun y => y.e < e))).setCur (fun c => { c with estart := BitVec.ofNat 64 e })

/-- The masks an instruction reads have been acquired (R216). -/
def State.readMaskRun (s : State) (ms : List (Nat × Nat)) (vg : Nat) : State :=
  ((ms.filter (fun m => m.1 != 0)).flatMap (fun m => (List.range vg).map (fun i => m.1 + i))).foldl (fun s k => State.acquireMask s k) s

/-- A byte access of the current hart to DRAM at `va` of `n` bytes completes at once (R31, R82, R245, R352, R362): the address
translates to `leaf`, leaving `t`; the memory is CACHED, or ROW and served without a wait, leaving `u`, and no part of the
version side table, whose rows hold no mapping (R247). -/
structure PlainAccess (s : State) (va : Word) (n : Nat) (acc : AccKindT) (leaf : Leaf) (t u : State) : Prop where
  found : s.translate va acc = .ok (leaf, t)
  dram : leaf.mt = mtRow ∨ leaf.mt = mtCached
  regions : t.replayOk va.toNat n acc.writes false = true
  published : t.unpublished t.cur.reqid leaf n = false
  served : (if leaf.mt = mtRow then t.rowServe leaf.pa acc.writes else some t) = some u
  plain : t.cur.queues = []
  data : inSideTable leaf.pa n = false

/-- The state after a plain load (R33, R72, R262): how the page is used, which caches hold the line, and which of the hart's stores have
performed. -/
def State.afterRead (s : State) (leaf : Leaf) : State := (s.noteUse leaf.pa leaf.mt).ownRead leaf

/-- Vector instructions of the current hart see memory as it stands: no page is in conflict (R33), and every store of the hart has
performed for its vector queue (R72). -/
def State.SeesMemory (s : State) : Prop := s.conflict = [] ∧ s.cur.unfenced = []

/-- Memory, poison aside, reads as it stands: the page of an address is not in conflict between ROW and CACHED (R33). -/
def State.Settled (s : State) (leaf : Leaf) : Prop := (s.noteUse leaf.pa leaf.mt).conflict.contains (leaf.pa / 4096) = false

/-! ### Numbers -/

/-- A zero, or a finite nonzero value. -/
def Num.IsFinite (x : Num) : Prop :=
  match x with
  | .zero _ => True
  | .fin _ m _ => 0 < m
  | _ => False

/-- The rational number that a zero or a finite value is. -/
def Num.rat (x : Num) : ℚ :=
  match x with
  | .fin neg m e => (if neg then -1 else 1) * (m * 2 ^ e)
  | _ => 0

/-- The magnitude of code `c` of a floating format by R149's formula, with T the trailing bits, E the exponent field above them
and t their number. Codes beyond the format's own go on with greater exponents, as R157 rounds. -/
def FloatFmt.mag (f : FloatFmt) (c : Nat) : ℚ :=
  let t := f.prec - 1
  let e := c / 2 ^ t
  let frac := c % 2 ^ t
  if e = 0 then frac * 2 ^ (1 - (f.bias : Int) - t) else (2 ^ t + frac) * 2 ^ ((e : Int) - f.bias - t)

/-- Rounding of a positive number to a rising grid by a mode (R155, R157): the place `c`, where of two neighbours RNE takes the even
place on a tie and RNA the higher, RTZ the lower, and RUP and RDN the one their sign gives. -/
def RoundsOn (grid : Nat → ℚ) (rm : RoundMode) (neg : Bool) (x : ℚ) (c : Nat) : Prop :=
  ∃ k, grid k ≤ x ∧ x < grid (k + 1) ∧
    (x = grid k → c = k) ∧
    (x ≠ grid k →
      (rm = 0 → c = if x - grid k < grid (k + 1) - x then k else if grid (k + 1) - x < x - grid k then k + 1 else k + k % 2) ∧
      (rm = 1 → c = k) ∧ (rm = 2 → c = if neg then k else k + 1) ∧ (rm = 3 → c = if neg then k + 1 else k) ∧
      (rm = 4 → c = if x - grid k < grid (k + 1) - x then k else k + 1))

/-- Whether a positive number is tiny (R157): rounded to the format's precision with no bound on the exponent, it lies below the
smallest normal. Codes of greater range are those of the same format with its bias moved by an even amount. -/
def FloatFmt.Tiny (f : FloatFmt) (rm : RoundMode) (neg : Bool) (x : ℚ) : Prop :=
  ∃ b d, let g : FloatFmt := { f with bias := f.bias + 2 * b }
    g.mag (2 ^ (f.prec - 1)) ≤ x ∧ RoundsOn g.mag rm neg x d ∧ g.mag d < 2 ^ (1 - (f.bias : Int))

/-- Round of a positive magnitude `x` with a sign (R157, R158): the code and the FFLAGS bits. -/
def FloatFmt.Rounded (f : FloatFmt) (rm : RoundMode) (ov neg : Bool) (x : ℚ) (r : Nat × Nat) : Prop :=
  ∃ c, RoundsOn f.mag rm neg x c ∧
    let sign := if neg then 2 ^ (f.width - 1) else 0
    if neg = true ∧ f.signed = false ∧ c ≠ 0 then r = (if ov then f.nanCode else 0, 16)
    else if f.maxCode < c then
      let away := rm = 0 ∨ rm = 4 ∨ (rm = 2 ∧ neg = false) ∨ (rm = 3 ∧ neg = true)
      (ov = true → away → r = (if f.hasInf then f.maxCode + 1 + sign else f.nanCode, 5)) ∧
      (¬(ov = true ∧ away) → r = (f.maxCode + sign, 5))
    else r.1 = (if c = 0 then (if f.ieee then sign else 0) else c + sign) ∧
      (f.mag c = x → r.2 = 0) ∧ (f.mag c ≠ x → f.Tiny rm neg x → r.2 = 3) ∧ (f.mag c ≠ x → ¬f.Tiny rm neg x → r.2 = 1)

/-- A value stands for a magnitude `x` in every rounding to at most 24 bits: it is `x`, or it has at least 65 bits of which the
last is 1, and `x` lies strictly between its neighbours. -/
def Num.StandsFor (r : Num) (x : ℚ) : Prop :=
  ∃ neg m e, r = .fin neg m e ∧ 0 < m ∧
    (x = m * 2 ^ e ∨ (m % 2 = 1 ∧ 2 ^ 64 ≤ m ∧ ((m : ℚ) - 1) * 2 ^ e < x ∧ x < ((m : ℚ) + 1) * 2 ^ e))

/-- The same where `x` is a square root, of which `sq` is the square. -/
def Num.StandsForRoot (r : Num) (sq : ℚ) : Prop :=
  ∃ m e, r = .fin false m e ∧ 0 < m ∧
    (((m : ℚ) * 2 ^ e) ^ 2 = sq ∨
      (m % 2 = 1 ∧ 2 ^ 64 ≤ m ∧ (((m : ℚ) - 1) * 2 ^ e) ^ 2 < sq ∧ sq < (((m : ℚ) + 1) * 2 ^ e) ^ 2))

/-- Order of values that are not NaN, by which the compares, vfmin and vfmax go (R139). -/
def Num.Below (x y : Num) : Prop :=
  match x, y with
  | .inf a, .inf b => a = true ∧ b = false
  | .inf a, _ => a = true
  | _, .inf b => b = false
  | x, y => x.rat < y.rat

/-! ### Units -/

/-- The current hart owns the weight array (R171). -/
def State.OwnsArray (s : State) : Prop := s.cur.part = 0 ∧ s.cur.mownEn = true

/-- A record of 64 bytes is read by one plain load (R184, R213): its bytes and the state left. -/
def State.ReadsRecord (s : State) (va : Word) (bs : List Byte) (t : State) : Prop :=
  ∃ leaf s1 s2, va.toNat % 64 = 0 ∧ PlainAccess s va 64 .read leaf s1 s2 ∧ poisoned s2.poison leaf.pa 64 = false ∧ s2.Settled leaf ∧
    bs = leBytes (s2.num leaf.pa 64) 64 ∧ t = s2.afterRead leaf

/-- Loads of `n` bytes at a list of addresses, one after the other, each of them plain (R213, R351): the values, whether they are poisoned,
and the state left. -/
def ReadsAll (n : Nat) : State → List Word → List (Nat × Bool) → State → Prop
  | s, [], vs, t => vs = [] ∧ t = s
  | s, a :: rest, vs, t => ∃ leaf s1 s2 more, a.toNat % n = 0 ∧ PlainAccess s a n .read leaf s1 s2 ∧ s2.Settled leaf ∧
      vs = (s2.num leaf.pa n, poisoned s2.poison leaf.pa n) :: more ∧ ReadsAll n (s2.afterRead leaf) rest more t

/-- Element loads of vgld, one after the other, each of them plain (R218): the values as the vector queue sees memory (R72), whether they are
poisoned, and the state left. -/
def GathersAll (n : Nat) : State → List Word → List (Nat × Bool) → State → Prop
  | s, [], vs, t => vs = [] ∧ t = s
  | s, a :: rest, vs, t => ∃ leaf s1 s2 more, a.toNat % n = 0 ∧ PlainAccess s a n .read leaf s1 s2 ∧ s2.Settled leaf ∧
      vs = (leValue ((s2.bytes leaf.pa n).mapIdx (fun i b => s2.cur.queueByte (leaf.pa + i) b)), poisoned s2.poison leaf.pa n) :: more ∧
      GathersAll n ((s2.noteUse leaf.pa leaf.mt).cacheRead leaf) rest more t

/-- Element stores of vgst, one after the other, each of them plain (R206, R218): address and value; the DRAM address each went to, and the
state left. -/
def ScattersAll (n : Nat) : State → List (Word × Nat) → List Nat → State → Prop
  | s, [], pas, t => pas = [] ∧ t = s
  | s, x :: rest, pas, t => ∃ leaf s1 s2 s3 more, x.1.toNat % n = 0 ∧ PlainAccess s x.1 n .write leaf s1 s2 ∧
      storeAt leaf (leBytes x.2 n) (s2.settleReads s2.cur.reqid (groupOf leaf.pa)) = .ok ((), s3) ∧ pas = leaf.pa :: more ∧
      ScattersAll n s3 rest more t

/-! ### Copy engines and the host port -/

/-- The access of another agent to DRAM through a leaf completes at once (R31, R245): no other context has left its lines unpublished,
and a ROW group serves it, which leaves `t`. -/
def State.ServesAgent (s : State) (id who : Nat) (leaf : Leaf) (n : Nat) (write : Bool) (t : State) : Prop :=
  (leaf.mt = mtRow ∨ leaf.mt = mtCached) ∧ s.unpublished id leaf n = false ∧
    (if leaf.mt = mtRow then s.rowServeFor who leaf.pa write else some s) = some t

/-- Reads of `n` bytes by a copy engine at a list of addresses, one after the other (R214, R215): for each the bytes of DRAM and which of
them lie in a poisoned granule, or what a device register answers; and the state left. -/
def EngineReads (units : List Nat) (root : Word) (id who n : Nat) : State → List Word → List (List Byte × List Bool) → State → Prop
  | s, [], out, t => out = [] ∧ t = s
  | s, va :: rest, out, t => ∃ leaf s1 s2 more, s.translateAt units root va .read = .ok (leaf, s1) ∧
      ((s1.ServesAgent id who leaf n false s2 ∧ s2.Settled leaf ∧ inSideTable leaf.pa n = false ∧
          out = (s2.bytes leaf.pa n, (List.range n).map (fun i => s2.poison.contains ((leaf.pa + i) / 32))) :: more ∧
          EngineReads units root id who n (s2.noteUse leaf.pa leaf.mt) rest more t) ∨
        (leaf.mt = mtDev ∧ s1.replayingLaunch id = false ∧ (∃ w, s1.devLoad leaf.pa n = .ok (w, s2) ∧
          out = (leBytes w.toNat n, List.replicate n false) :: more) ∧ EngineReads units root id who n s2 rest more t))

/-- What a copy engine's write to DRAM leaves (R206, R243, R248, R262): xputs of the row have read it, then the bytes, marks and versions,
and the line is no tower cache's. -/
def State.afterEngineWrite (s : State) (id code : Nat) (leaf : Leaf) (bs : List Byte) : State :=
  if leaf.mt = mtRow then (s.settleReads id (groupOf leaf.pa)).writePhys (some id) code leaf bs
  else (s.writePhys (some id) code leaf bs).disownLine (leaf.pa / 128)

/-- Writes by a copy engine, one after the other (R214, R215): address and bytes; the DRAM address each went to, none for a device
register; and the state left. -/
def EngineWrites (units : List Nat) (root : Word) (id who code : Nat) : State → List (Word × List Byte) → List (Option Nat) → State → Prop
  | s, [], pas, t => pas = [] ∧ t = s
  | s, x :: rest, pas, t => ∃ leaf s1 s2 more, s.translateAt units root x.1 .write = .ok (leaf, s1) ∧
      ((s1.ServesAgent id who leaf x.2.length true s2 ∧ pas = some leaf.pa :: more ∧
          EngineWrites units root id who code (s2.afterEngineWrite id code leaf x.2) rest more t) ∨
        (leaf.mt = mtDev ∧ s1.replayingLaunch id = false ∧ pas = none :: more ∧
          s1.devStore leaf.pa x.2.length (BitVec.ofNat 64 (leValue x.2)) = .ok s2 ∧
          EngineWrites units root id who code s2 rest more t))

/-- A packet has left in a step (R263, R408): to another device over Efpo while a link is up, to this device by the loop back. -/
def State.Sent (s t : State) (dst : Nat) (p : Packet) : Prop :=
  (dst = s.devId → t.efpo.loop = s.efpo.loop ++ [p] ∧ t.efpo.out = s.efpo.out) ∧
    (dst ≠ s.devId → s.efpo.links ≠ 0 → t.efpo.out = s.efpo.out ++ [p] ∧ t.efpo.loop = s.efpo.loop) ∧
    (dst ≠ s.devId → s.efpo.links = 0 → t.efpo.out = s.efpo.out ∧ t.efpo.loop = s.efpo.loop)

end Sys2Proof.Machine
end

