-- ==== Sys2Proof/Certificates/Slice0/Obligations.lean ====
section
/-! DEFINITION. The statements for the provers. Each formalises what a rule of the manual says an instruction, a step or the machine does;
where one rests on a choice of the model, its text says so. -/

open Sys2Proof Sys2Proof.Machine

/-! ### Encodings and steps -/

/-- Decoding the word of a well-formed instruction gives it back, with every field at every value, and leaves the bytes after it (R40-R42,
R48, R54): no bit of an encoding is dropped, whatever follows. -/
def Obligations.EncodeThenDecode : Prop :=
  ∀ i : Instr, i.wf = true → isEvent i = false →
    ∃ w, encode i = some w ∧ decodeWord w = i ∧ ∀ rest, decode (leBytes w.toNat 8 ++ rest) = .ok (i, rest)

/-- Encoding what a word decodes to gives the word back (R41, R42, R54), so no two words mean the same instruction; no word decodes to a
step that no program issues. -/
def Obligations.DecodeThenEncode : Prop :=
  ∀ w : Word, encode (decodeWord w) = some w ∧ isEvent (decodeWord w) = false

/-- Words that the manual writes out decode to the instructions it gives them for (R263, R324, R333, R334, R311, R336, R162, R165, R315, R335, R346).
A word with P = 1 and bit 62 = 1 takes class 0, subcode 1, and a full word whose OP lies beyond its class list takes class 0, subcode 0, in every
mode and state of a hart, with the word as TVAL (R41, R54, R55). -/
def Obligations.DecodedWords : Prop :=
  (decodeWord 0 = .nop { form := 0, d := 0, a := 0, b := 0, m := 0, mz := false, imm := 0 } ∧
   decodeWord 0x709C_0000_0000_0000 = .rett { form := 3, d := 0, a := 0, b := 0, m := 0, mz := false, imm := 0 } ∧
   decodeWord 0x7088_0140_0000_0003 = .trap { form := 2, d := 0, a := 5, b := 0, m := 0, mz := false, imm := 3 } ∧
   decodeWord 0x70DC_0000_0000_0000 = .wfi { form := 3, d := 0, a := 0, b := 0, m := 0, mz := false, imm := 0 } ∧
   decodeWord 0x70EC_4000_0000_0000 = .tstamp { form := 3, d := 4, a := 0, b := 0, m := 0, mz := false, imm := 0 } ∧
   decodeWord 0x706C_0000_0000_0000 = .nprb { form := 3, d := 0, a := 0, b := 0, m := 0, mz := false, imm := 0 } ∧
   decodeWord 0x703C_0180_0000_0000 = .gpred { form := 3, d := 0, a := 6, b := 0, m := 0, mz := false, imm := 0 } ∧
   decodeWord 0x400E_4800_0000_74C8 = .vcvt { form := 3, d := 36, a := 32, b := 0, m := 0, mz := false, imm := 0x74C8 } ∧
   decodeWord 0x4016_8805_0000_72C0 = .vcvtq { form := 1, d := 40, a := 32, b := 5, m := 0, mz := false, imm := 0x72C0 } ∧
   decodeWord 0xFFFF_FFFF_FFFF_FFFF = .illegalInstruction 0xFFFF_FFFF_FFFF_FFFF) ∧
  (∀ (w : Word) (s : State),
     (w.getLsbD 63 = true → w.getLsbD 62 = true → exec (decodeWord w) s = .next (takeTrap 1 w {} s)) ∧
     (w.getLsbD 63 = false → opCount (w.extractLsb' 60 3).toNat ≤ (w.extractLsb' 52 8).toNat →
       exec (decodeWord w) s = .next (takeTrap 0 w {} s)))

/-- A step of a hart at an instruction runs the instruction that the eight bytes at its PC decode to (R29, R40, R54, R362): the fetch translates the
PC, reads the word little-endian, and `exec` has its effect. The one thing that comes first is an activation of the tower that the scoreboard
starts before the one that act, actn, ref or refa asks for (R104). Between two instructions the record of a barad is dropped once control has left it
(R288), an access of an instruction left behind leaves its queue (R31), and some stores perform (R72); halves of a pair left done count for the
word at PC only (R333). The word a hart fetches is the eight bytes of memory at the translated PC, little-endian, where no granule is poisoned, no
page is in conflict and no byte is part of the version side table (R33, R40, R247, R356, R362); a fault of the fetch is taken at the PC.
The model's own choices in it are those of log entries 1, 11 and 26. -/
def Obligations.StepRunsWord : Prop :=
  (∀ (s t : State) (w : Word), s.AtWord → (s.setCur Ctx.dropStale).settleIn.fetch = .ok (w, t) →
     (t.grantBefore (decodeWord w) = none → step s = exec (decodeWord w) (t.setCur (clearSkip (decodeWord w)))) ∧
     ∀ u, t.grantBefore (decodeWord w) = some u → step s = .next u) ∧
  (∀ (i : Instr) (t : State), (∀ f, i ≠ .act f ∧ i ≠ .actn f ∧ i ≠ .ref f ∧ i ≠ .refa f) ∨ t.cur.kind ≠ .tower → t.grantBefore i = none) ∧
  (∀ (s : State) (c : Nat), s.AtWord → (s.setCur Ctx.dropStale).settleIn.fetch = .error c →
     step s = .next (takeTrap c s.cur.pc { hv := s.cur.skip != 0, hdone := s.cur.skip } (s.setCur Ctx.dropStale).settleIn)) ∧
  (∀ s : State, s.rowQueue = [] → s.conflict = [] → s.cur.unfenced = [] → s.cur.barad = [] → (s.setCur Ctx.dropStale).settleIn = s) ∧
  (∀ (s : State),
     (∀ leaf t, s.translate s.cur.pc .fetch = .ok (leaf, t) → poisoned t.poison leaf.pa 8 = false → t.Settled leaf →
       inSideTable leaf.pa 8 = false → s.fetch = .ok (BitVec.ofNat 64 (t.num leaf.pa 8), t.noteUse leaf.pa leaf.mt)) ∧
     (∀ leaf t, s.translate s.cur.pc .fetch = .ok (leaf, t) → poisoned t.poison leaf.pa 8 = true → s.fetch = .error 0x153) ∧
     (∀ c, s.translate s.cur.pc .fetch = .error c → s.fetch = .error c))

/-- A step with an event first in its agenda performs that event and takes it from the agenda; an element that is a word's instruction, which
only a fetch can run, changes nothing else (the model's convention, log entry 1). -/
def Obligations.StepPerformsEvent : Prop :=
  ∀ (s : State) (i : Instr) (x : EventInput) (rest : List Turn), s.stopped = false → s.agenda = .event i x :: rest →
    (isEvent i = true → step s = exec i { s with agenda := rest, input := x }) ∧
    (isEvent i = false → step s = .next { s with agenda := rest })

/-- What every step keeps. Memory stays in canonical form: rising addresses, and no entry equal to what an unlisted address reads as. VL stays at
most VLMAX in every context (R118), and the refresh debt of every group between -8 and 9 (R108). Only taking a trap and rett change the mode
(R329, R333), only taking a trap writes TCAUSE, TPC, TVAL and PM beside the control-register writes, and only those write TVEC, TREC, TSCRATCH,
PTROOT and CTXSAVE: of the instructions that a hart issues and after which it still runs.
The model's own choices in it are those of log entries 3 and 22. -/
def Obligations.StepKeepsMemory : Prop :=
  (∀ s t : State, step s = .next t → (s.MemInv → t.MemInv) ∧ (s.VlInv → t.VlInv) ∧ (s.DebtInv → t.DebtInv)) ∧
  (∀ (i : Instr) (s t : State), isEvent i = false → s.cur.kind ≠ .cairn → s.cur.run = .running → exec i s = .next t →
     t.cur.reqid = s.cur.reqid → t.cur.run = .running →
     ((∀ f, i ≠ .rett f) → t.cur.sup = s.cur.sup ∨ (t.cur.sup = true ∧ t.cur.tl = true)) ∧
     ((∀ f, i ≠ .crw f ∧ i ≠ .crs f ∧ i ≠ .crc f) → s.cur.SameVectors t.cur ∧
       (s.cur.SameCause t.cur ∨ (t.cur.sup = true ∧ t.cur.tl = true))))

/-- After reset memory is in canonical form and lists nothing, VL is at most VLMAX and every debt in its range. What start-up leaves (R307, R415, R417, R418): sixteen control harts 0 to 15 in
supervisor mode at the resident program's entry with s1 at its configuration base and s2 at the hart's rank, every other scalar 0 and no trap
pending; every tower in mode
0 with clear semaphores, every group closed with debt 0; permits full and no image failure. The addresses are the flash configuration of log
entry 4.
The model's own choices in it are those of log entries 2, 4 and 5. -/
def Obligations.ResetState : Prop :=
  (State.reset.MemInv ∧ State.reset.mem = [] ∧ State.reset.VlInv ∧ State.reset.DebtInv) ∧
  (let s := State.reset
   (∀ n < 16, ∃ c ∈ s.live, c.kind = .control ∧ c.place = n ∧ c.sup = true ∧ c.run = .running ∧
     c.pc = BitVec.ofNat 64 Config.residentEntry ∧ c.reg 1 = BitVec.ofNat 64 Config.residentBase ∧
     c.reg 2 = BitVec.ofNat 64 n ∧ (∀ v : BitVec 6, v.toNat < 32 → v ≠ 1 → v ≠ 2 → c.reg v = 0) ∧ c.pend = [] ∧ c.tl = false ∧ c.reqid = Config.deviceId * 2 ^ 15 + n) ∧
   (∀ t, (s.tower t).mode = 0 ∧ (s.tower t).sem = 0 ∧ (s.tower t).exposures = [] ∧ (s.tower t).tpHolder = none) ∧
   (∀ k, (s.group k).row = none ∧ (s.group k).debt = 0 ∧ (s.group k).forced = false) ∧
   s.power.pool = 64 ∧ s.hub.startStat = 0 ∧ s.efpo.lock = true ∧ s.host.en = false)

/-! ### Scalar instructions -/

/-- Each two-operand instruction of class 0 completes and writes sD with its operation on sA and the second operand, which FORM 0b00 takes
from sB and FORM 0b10 from the sign-extended immediate; the PC goes to the next word and nothing else changes (R29, R75, R76). A destination
s0 discards the result. -/
def Obligations.ScalarArithmetic : Prop :=
  ∀ (f : Fields) (s : State),
    let a := s.reg f.a
    let b := if f.form = 0 then s.reg f.b else f.imm.signExtend 64
    ∀ p ∈ [(Instr.add f, a + b), (.sub f, a - b), (.and f, a &&& b), (.or f, a ||| b), (.xor f, a ^^^ b),
        (.sll f, a <<< (b.extractLsb' 0 6).toNat), (.srl f, a >>> (b.extractLsb' 0 6).toNat),
        (.sra f, a.sshiftRight (b.extractLsb' 0 6).toNat), (.slt f, if a.toInt < b.toInt then 1 else 0),
        (.sltz f, if a.toNat < b.toNat then 1 else 0), (.mul f, BitVec.ofInt 64 (a.toInt * b.toInt)),
        (.mulh f, BitVec.ofInt 64 (a.toInt * b.toInt / 2 ^ 64)), (.mulhz f, BitVec.ofNat 64 (a.toNat * b.toNat / 2 ^ 64)),
        (.min f, if a.toInt ≤ b.toInt then a else b), (.max f, if a.toInt ≤ b.toInt then b else a),
        (.minz f, if a.toNat ≤ b.toNat then a else b), (.maxz f, if a.toNat ≤ b.toNat then b else a)],
      ready p.1 s = true → exec p.1 s = .next (s.setReg f.d p.2).advance

/-- div, divz, rem and remz: a zero divisor, an immediate zero included, traps class 2, subcode 0, and -2^63 / -1 traps div with subcode 1,
TVAL (on Cairn INFO) holding a and no register changed, once the trap is taken (its record need not wait, R31, and its handler is aligned, R90);
otherwise sD takes the quotient toward zero or the remainder with the sign of a, and rem of -2^63 by -1 writes 0 (R76, R77). -/
def Obligations.ScalarDivision : Prop :=
  ∀ (f : Fields) (s : State),
    let a := s.reg f.a
    let b := if f.form = 0 then s.reg f.b else f.imm.signExtend 64
    (∀ p ∈ [(Instr.div f, BitVec.ofInt 64 (Int.tdiv a.toInt b.toInt)), (.divz f, BitVec.ofNat 64 (a.toNat / b.toNat)),
        (.rem f, BitVec.ofInt 64 (Int.tmod a.toInt b.toInt)), (.remz f, BitVec.ofNat 64 (a.toNat % b.toNat))],
      ready p.1 s = true →
        (b = 0 → exec p.1 s = .next (takeTrap 0x20 a {} s)) ∧
        (b ≠ 0 → ¬(p.1 = .div f ∧ a.toInt = -2 ^ 63 ∧ b.toInt = -1) → exec p.1 s = .next (s.setReg f.d p.2).advance)) ∧
    (ready (.div f) s = true → a.toInt = -2 ^ 63 → b.toInt = -1 → exec (.div f) s = .next (takeTrap 0x21 a {} s)) ∧
    (ready (.rem f) s = true → a.toInt = -2 ^ 63 → b.toInt = -1 → exec (.rem f) s = .next (s.setReg f.d 0).advance) ∧
    (∀ code ∈ [0x20, 0x21], let t := takeTrap code a {} s
      (s.cur.kind ≠ .cairn → t.cur.regs = s.cur.regs ∧
        (s.recordWait = none → s.cur.tvec.toNat % 8 = 0 → t.cur.tcause = BitVec.ofNat 64 code ∧ t.cur.tval = a)) ∧
      (s.cur.kind = .cairn → s.mgmt.ml = false → t.cur.regs = s.cur.regs ∧ t.mgmt.mcause = BitVec.ofNat 64 code ||| a <<< 16))

/-- A trap of a hart that is not Cairn changes no scalar register and no other register of computation: VL, VCFG, ESTART, CTB, FFLAGS, FRM,
the checksums, the masks, the tiles and the accumulators stand (R77, R329).
The model's own choices in it are those of log entry 14. -/
def Obligations.TrapKeepsRegisters : Prop :=
  ∀ (code : Nat) (tval : Word) (info : TrapInfo) (s : State), s.cur.kind ≠ .cairn →
    let t := takeTrap code tval info s
    t.cur.regs = s.cur.regs ∧ t.cur.vl = s.cur.vl ∧ t.cur.vcfg = s.cur.vcfg ∧ t.cur.estart = s.cur.estart ∧ t.cur.ctb = s.cur.ctb ∧
      t.cur.fflags = s.cur.fflags ∧ t.cur.frm = s.cur.frm ∧ t.cur.ck = s.cur.ck ∧ t.cur.masks = s.cur.masks ∧
      t.cur.poisonMask = s.cur.poisonMask ∧ t.cur.tiles = s.cur.tiles ∧ t.cur.accs = s.cur.accs

/-- clz, ctz and pop complete with the number of leading zero bits, of trailing zero bits and of one bits of sA (R78): the count n of clz is at most
64, the n bits from the top are 0 and the next is 1; ctz the same from the bottom; pop is the number of places that hold 1. bext and bins, bit by
bit (R78): with pos, len and X from sB or the immediate, bext gives sD bit i := sA bit pos + i below len and above it copies of the field's top
bit under X, else 0; bins replaces sD bits pos to pos + len - 1 by sA bits 0 to len - 1. A field of length 0 or past bit 63, or a bins with X =
1, traps class 2, subcode 2, with the parameters as TVAL. Their words are class 0, OP 22 to 26, with the
fields of a full word; a FORM that the table does not give traps class 0, subcode 2, a B field that is not 0 where it is unused subcode 5, and a
reserved part of IMM28 that is not 0, an immediate bins with X = 1 included, subcode 8. -/
def Obligations.BitFields : Prop :=
  (∀ (f : Fields) (s : State),
     let a := s.reg f.a
     (ready (.clz f) s = true → ∃ n ≤ 64, exec (.clz f) s = .next (s.setReg f.d (BitVec.ofNat 64 n)).advance ∧
       (∀ i < 64, 64 - n ≤ i → a.getLsbD i = false) ∧ (n < 64 → a.getLsbD (63 - n) = true)) ∧
     (ready (.ctz f) s = true → ∃ n ≤ 64, exec (.ctz f) s = .next (s.setReg f.d (BitVec.ofNat 64 n)).advance ∧
       (∀ i < n, a.getLsbD i = false) ∧ (n < 64 → a.getLsbD n = true)) ∧
     (ready (.pop f) s = true → exec (.pop f) s =
       .next (s.setReg f.d (BitVec.ofNat 64 ((List.range 64).filter (fun i => a.getLsbD i)).length)).advance)) ∧
  (∀ (f : Fields) (s : State),
     let a := s.reg f.a
     let p := if f.form = 0 then (s.reg f.b).extractLsb' 0 14 else f.imm.extractLsb' 0 14
     let pos := (p.extractLsb' 0 6).toNat
     let len := (p.extractLsb' 6 7).toNat
     let x := p.getLsbD 13
     (ready (.bext f) s = true → 1 ≤ len → pos + len ≤ 64 → ∃ r, exec (.bext f) s = .next (s.setReg f.d r).advance ∧
       ∀ i < 64, r.getLsbD i = if i < len then a.getLsbD (pos + i) else x && a.getLsbD (pos + len - 1)) ∧
     (ready (.bins f) s = true → 1 ≤ len → pos + len ≤ 64 → x = false → ∃ r, exec (.bins f) s = .next (s.setReg f.d r).advance ∧
       ∀ i < 64, r.getLsbD i = if pos ≤ i ∧ i < pos + len then a.getLsbD (i - pos) else (s.reg f.d).getLsbD i) ∧
     (ready (.bext f) s = true → len = 0 ∨ 64 < pos + len → exec (.bext f) s = .next (takeTrap 0x22 (p.zeroExtend 64) {} s)) ∧
     (ready (.bins f) s = true → len = 0 ∨ 64 < pos + len ∨ x = true → exec (.bins f) s = .next (takeTrap 0x22 (p.zeroExtend 64) {} s))) ∧
  (∀ (w : Word) (s : State),
     let op := w.extractLsb' 52 12
     let form := w.extractLsb' 50 2
     let b := w.extractLsb' 32 6
     let imm := w.extractLsb' 0 28
     let f : Fields := { form := form, d := w.extractLsb' 44 6, a := w.extractLsb' 38 6, b := b, m := w.extractLsb' 29 3, mz := w.getLsbD 28, imm := imm }
     let scalars := f.d.toNat < 32 ∧ f.a.toNat < 32 ∧ b.toNat < 32 ∧ f.m = 0 ∧ f.mz = false
     (∀ p ∈ [(22, Instr.clz f), (23, .ctz f), (24, .pop f), (25, .bext f), (26, .bins f)], op = p.1 → decodeWord w = p.2) ∧
     (∀ o ∈ [22, 23, 24], op = o → scalars →
       (form ≠ 0 → exec (decodeWord w) s = .next (takeTrap 2 w {} s)) ∧
       (form = 0 → b ≠ 0 → exec (decodeWord w) s = .next (takeTrap 5 w {} s)) ∧
       (form = 0 → b = 0 → imm ≠ 0 → exec (decodeWord w) s = .next (takeTrap 8 w {} s))) ∧
     (∀ o ∈ [25, 26], op = o → scalars →
       (form ≠ 0 → form ≠ 2 → exec (decodeWord w) s = .next (takeTrap 2 w {} s)) ∧
       (form = 0 → imm ≠ 0 → exec (decodeWord w) s = .next (takeTrap 8 w {} s)) ∧
       (form = 2 → b ≠ 0 → exec (decodeWord w) s = .next (takeTrap 5 w {} s)) ∧
       (form = 2 → b = 0 → imm.extractLsb' 14 14 ≠ 0 ∨ (o = 26 ∧ imm.getLsbD 13 = true) →
         exec (decodeWord w) s = .next (takeTrap 8 w {} s))))

/-- nop, lih, li, sel, adr, tstamp and pf complete (R76, R79, R84, R336): nop and pf change nothing but the PC; li writes the sign-extended
immediate; lih shifts sA up 28 places and adds the immediate unsigned; sel picks sA where sD is not 0, else the second operand; adr writes
PC + imm x 8; tstamp writes the device time.
The model's own choices in it are those of log entry 6. -/
def Obligations.ImmediatesAndMoves : Prop :=
  ∀ (f : Fields) (s : State),
    let b := if f.form = 0 then s.reg f.b else f.imm.signExtend 64
    (∀ i ∈ [Instr.nop f, .pf f], ready i s = true → exec i s = .next s.advance) ∧
    (∀ p ∈ [(Instr.lih f, BitVec.ofNat 64 ((s.reg f.a).toNat * 2 ^ 28 + f.imm.toNat)), (.li f, f.imm.signExtend 64),
        (.sel f, if s.reg f.d = 0 then b else s.reg f.a), (.adr f, s.cur.pc + BitVec.ofInt 64 (f.imm.toInt * 8)),
        (.tstamp f, BitVec.ofNat 64 (s.clk / 1000))],
      ready p.1 s = true → exec p.1 s = .next (s.setReg f.d p.2).advance)

/-- The scalar registers (R44): s0 reads as zero and ignores writes, another scalar reads back what was written, and a write leaves every other
scalar. The frame of the scalar instructions (R70, R75): when one runs without a trap (a divisor that is not 0, no overflow, a bit field in
range), every scalar but sD, every other field of the hart but the PC, every other context and the rest of the machine, each byte of memory
included, stay as they were. -/
def Obligations.ScalarFrame : Prop :=
  (∀ (s : State) (d v : BitVec 6) (w : Word), d.toNat < 32 → v.toNat < 32 →
     s.reg 0 = 0 ∧ s.setReg 0 w = s ∧ (d ≠ 0 → (s.setReg d w).reg d = w) ∧ (v ≠ d → (s.setReg d w).reg v = s.reg v)) ∧
  (∀ (f : Fields) (s t : State),
     let b := if f.form = 0 then s.reg f.b else f.imm.signExtend 64
     let p := if f.form = 0 then (s.reg f.b).extractLsb' 0 14 else f.imm.extractLsb' 0 14
     let len := (p.extractLsb' 6 7).toNat
     let fits := 1 ≤ len ∧ (p.extractLsb' 0 6).toNat + len ≤ 64
     ∀ q ∈ [(Instr.nop f, True), (.add f, True), (.sub f, True), (.and f, True), (.or f, True), (.xor f, True), (.sll f, True), (.srl f, True),
         (.sra f, True), (.slt f, True), (.sltz f, True), (.mul f, True), (.mulh f, True), (.mulhz f, True), (.min f, True), (.max f, True),
         (.minz f, True), (.maxz f, True), (.clz f, True), (.ctz f, True), (.pop f, True), (.lih f, True), (.li f, True), (.sel f, True),
         (.adr f, True), (.tstamp f, True), (.pf f, True), (.divz f, b ≠ 0), (.rem f, b ≠ 0), (.remz f, b ≠ 0),
         (.div f, b ≠ 0 ∧ ¬((s.reg f.a).toInt = -2 ^ 63 ∧ b.toInt = -1)), (.bext f, fits), (.bins f, fits ∧ p.getLsbD 13 = false)],
       ready q.1 s = true → q.2 → f.d.toNat < 32 → exec q.1 s = .next t →
         (∀ v : BitVec 6, v.toNat < 32 → v ≠ f.d → t.reg v = s.reg v) ∧
         t.cur = { s.cur with regs := t.cur.regs, pc := s.cur.pc + 8 } ∧ t = { s with cur := t.cur } ∧ ∀ a, t.byte a = s.byte a)

/-! ### Control registers, branches, loads and stores -/

/-- crr of a register in reach completes with its value in sD (R57, R58, R80), and the value is that of the register named, bit by bit in its layout.
On a tower or control hart: VL, VCFG, ESTART, VLMAXC, TCFG0-TCFG3, MOWN, TOWERID, PART, HOMEBANK, COMD0-COMD15, SEMBITS, CHAINMASK, THLEVEL and
VBHEALTH of a tower hart, which on a control hart read 0 or 0xFFFF where R57 gives that; CTB, FFLAGS, FRM, both halves of each checksum, PMCNT, REQID,
SNEXT, SFLOOR, HARTID, LAUNCHID, GANGINFO, TIME, PREQ, PDEADLN, WFTSTAT, VSETN, TSTAT, TCAUSE, TPC, TVAL, TVEC, TREC, TSCRATCH, PTROOT, LCLASS, CTXSAVE,
PRIO, STRICT, FEAT0-FEAT3 and FACC0-FACC3. On Cairn: MSTAT, MCAUSE, MEPC, MVEC, MIE, MIP, SENSEL, SENVAL, SENFLAG, SENPRED, ISLSEL, ISLTHR and ISLCLK of
an island and of the hub, PACEREQ, PACECUR, PERMITS, PERMCFG, CHAINSET, LOGBASE, LOGIDX, MONSEL, MONCFG, MONMIN, MONMAX and MONBIN0-MONBIN15.
The model's own choices in it are those of log entries 4 (FEAT0), 12 (a GANGINFO DEPTH of 8 reads 0) and 13. -/
def Obligations.ControlRegisterRead : Prop :=
  ∀ (f : Fields) (s : State),
    let bit := fun (b : Bool) (k : Nat) => if b then BitVec.ofNat 64 (2 ^ k) else 0
    let nat := fun (n : Nat) => BitVec.ofNat 64 n
    let low := fun (x : Int) => (BitVec.ofInt 16 x).zeroExtend 64
    let c := s.cur
    (ready (.crr f) s = true → crReach s.cur (f.sub 0 12) = none →
      exec (.crr f) s = .next (s.setReg f.d (s.crRead (f.sub 0 12))).advance) ∧
    (s.cur.kind = .tower → ∀ p ∈ [(0x00, s.cur.vl), (0x01, s.cur.vcfg), (0x02, s.cur.estart), (0x21, BitVec.ofNat 64 s.cur.place),
      (0x23, BitVec.ofNat 64 s.cur.home), (0x10, s.cur.tcfg[0]), (0x11, s.cur.tcfg[1]), (0x12, s.cur.tcfg[2]), (0x13, s.cur.tcfg[3]),
      (0x210, (s.tower s.cur.place).sem), (0x21A, (s.tower s.cur.place).vbHealth),
      (0x14, bit c.mownEn 0 ||| bit (decide (c.part = 0 ∧ c.run = .running)) 1 ||| bit c.tiles[0].loaded 2 ||| bit c.tiles[1].loaded 3 |||
        bit c.tiles[2].loaded 4 ||| bit c.tiles[3].loaded 5 ||| bit (!c.accs[0].empty) 6 ||| bit (!c.accs[1].empty) 7 |||
        bit (!c.accs[2].empty) 8 ||| bit (!c.accs[3].empty) 9),
      (0x22, nat (c.part * 2 ^ 8 + (s.tower c.place).mode)), (0x218, (s.island (c.place / 16)).chain.zeroExtend 64),
      (0x219, nat (s.eff (c.place / 16) + (s.island (c.place / 16)).step * 2 ^ 8) |||
        bit ((s.island (c.place / 16)).hold7 || (s.island (c.place / 16)).hold7Region) 10)], s.crRead p.1 = p.2) ∧
    (s.cur.kind = .tower → ∀ k < 16, s.crRead (0x200 + k) = (s.tower s.cur.place).comd[k]!) ∧
    (s.cur.kind = .control → (∀ n ∈ [0x21, 0x22, 0x23], s.crRead n = 0xFFFF) ∧
      ∀ n ∈ [0, 1, 2, 0x10, 0x11, 0x12, 0x13, 0x14], s.crRead n = 0) ∧
    (∀ p ∈ ([(0x03, s.cur.ctb), (0x04, s.cur.fflags), (0x05, s.cur.frm), (0x06, s.cur.ck[0].extractLsb' 0 64),
      (0x07, s.cur.ck[1].extractLsb' 0 64), (0x08, s.cur.ck[2].extractLsb' 0 64), (0x09, s.cur.ck[3].extractLsb' 0 64),
      (0x86, s.cur.ck[0].extractLsb' 64 64), (0x87, s.cur.ck[1].extractLsb' 64 64), (0x88, s.cur.ck[2].extractLsb' 64 64),
      (0x89, s.cur.ck[3].extractLsb' 64 64), (0x0B, s.cur.pmcnt), (0x18, BitVec.ofNat 64 s.cur.reqid),
      (0x19, s.cur.snext.zeroExtend 64), (0x1A, s.cur.sfloor.zeroExtend 64), (0x24, s.cur.launch), (0x30, BitVec.ofNat 64 (s.clk / 1000)),
      (0x32, BitVec.ofNat 64 s.cur.pdeadln), (0x41, BitVec.ofNat 64 s.cur.vset.length), (0x101, s.cur.tcause), (0x102, s.cur.tpc),
      (0x103, s.cur.tval), (0x104, s.cur.tvec), (0x105, s.cur.trec), (0x106, s.cur.tscratch), (0x110, s.cur.ptroot),
      (0x111, BitVec.ofNat 64 s.cur.lclass), (0x112, s.cur.ctxsave), (0x113, BitVec.ofNat 64 s.cur.prio), (0x120, 0x3F), (0x121, 0)] :
      List (Nat × Word)), s.crRead p.1 = p.2) ∧
    (∀ p ∈ ([(0x122, 0), (0x123, 0), (0x124, c.facc[0]), (0x125, c.facc[1]), (0x126, c.facc[2]), (0x127, c.facc[3]),
      (0x20, nat (c.rank + c.count * 2 ^ 16 + c.index * 2 ^ 32)),
      (0x25, match c.gang with
        | none => 0
        | some g => nat (1 + g.index * 2 + g.count * 2 ^ 7 + g.stack.length % 8 * 2 ^ 15) ||| bit g.active 14),
      (0x31, bit c.preq 0 ||| bit c.preqNe 8),
      (0x40, nat (c.untracked + s.eprio c.reqid * 2 ^ 16 + min 15 (s.held c.reqid).length * 2 ^ 20) |||
        bit (c.entryOf.any (fun w => w.kind = .wreg)) 19),
      (0x100, bit c.pm 0 ||| bit c.tl 1 ||| bit c.half 3 ||| bit c.hv 4 ||| bit (c.hdone.getLsbD 0) 5 ||| bit (c.hdone.getLsbD 1) 6 |||
        bit c.async 7 ||| bit c.npr.isSome 8 ||| bit c.sup 9), (0x114, bit c.strict 0)] : List (Nat × Word)),
      s.crRead p.1 = p.2) ∧
    (s.crRead 0x0A = if c.kind = .cairn then s.crRead 0x0A else nat (16384 * 2 ^ min 3 c.lclass)) ∧
    (let m := s.mgmt
     let x := s.sensor m.sensel
     let i := s.island m.islsel
     let q := s.monitor m.monsel
     (∀ p ∈ [(0x300, bit m.ie 0 ||| bit m.pie 1 ||| bit m.ml 2), (0x301, m.mcause), (0x302, m.mepc), (0x303, m.mvec), (0x304, m.mie.zeroExtend 64),
       (0x305, ((m.mip &&& 0x7FE) ||| if s.sensors.any (fun z => z.2.alarm) then 1 else 0).zeroExtend 64),
       (0x310, nat m.sensel), (0x311, low x.value ||| bit x.failed 16),
       (0x312, bit x.failed 0 ||| bit x.stuck 1 ||| bit x.range 2 ||| bit x.neigh 3 ||| bit x.alarm 4 ||| low x.alert <<< 16),
       (0x313, low x.pred ||| low x.est <<< 16), (0x314, nat m.islsel),
       (0x317, nat s.pace.level ||| s.pace.group.zeroExtend 64 <<< 16 ||| bit s.pace.en 32),
       (0x318, nat (s.pace.cur + s.pace.next * 256) ||| bit s.pace.pending 11 ||| s.pace.stamp <<< 16),
       (0x319, nat (s.power.pool + s.power.idle * 256)), (0x31A, bit s.power.boostEn 0), (0x320, m.logbase), (0x321, m.logidx), (0x330, nat m.monsel),
       (0x331, nat (q.source + q.index * 2 ^ 8 + q.shift * 2 ^ 18) ||| bit q.en 24 ||| q.thresh.zeroExtend 64 <<< 32), (0x332, q.mn), (0x333, q.mx)],
       s.crRead p.1 = p.2) ∧
     (∀ k < 16, s.crRead (0x334 + k) = q.bins[k]!) ∧
     (m.islsel = 32 → s.crRead 0x315 = nat (s.hubLevel + s.hubLevel * 256) ||| bit s.hubGate 24 ∧ s.crRead 0x316 = nat (s.hubPwr % 65536 * 65536) ∧
       s.crRead 0x31B = 0) ∧
     (m.islsel ≠ 32 → s.crRead 0x315 = nat (i.level + s.eff m.islsel * 256) ||| bit (i.hold7 || i.hold7Region) 16 ||| bit i.cap 17 |||
         bit (s.power.peakUntil.any (fun e => decide (s.clk < e))) 18 ||| bit i.gate 24 ∧
       s.crRead 0x316 = nat (i.claim + i.step * 256 + i.pwr % 65536 * 65536) ∧ s.crRead 0x31B = i.chain.zeroExtend 64))

/-- crw, crs and crc complete in one atomic step (R58, R80): the register takes sA, the old value or sA, or the old value and not sA, each cut to the
register's own layout, and sD takes the old value. Named here are, on a tower or control hart in any mode, CTB, FFLAGS, FRM and the checksums; on
a tower hart VL, ESTART and COMD0-COMD15; on a control hart VL, VCFG, ESTART, TCFG0-TCFG3 and MOWN, which ignore writes (R57); in supervisor mode
PMCNT, MOWN, SNEXT and SFLOOR with nothing outstanding, PREQ, PDEADLN, WFTSTAT, TSTAT, TCAUSE, TPC, TVAL, TVEC, TREC, TSCRATCH, PTROOT, LCLASS with the
clamp of VL (R118), CTXSAVE, PRIO, STRICT and FACC0-FACC3 (R421); an address register whose value is not aligned traps class 3, subcode 10 with the
value as TVAL. On Cairn every management register marked RW (R376-R398), where a reserved field value traps class 0, subcode 8. crs and crc with s0
as their source are reads (R58, R80): they write nothing, take no subcode 15, and complete with the register's value in sD for every register in reach.
The model's own choices in it are those of log entries 4, 15 and 31. -/
def Obligations.ControlRegisterWrite : Prop :=
  (∀ (f : Fields) (s : State),
     let n := f.sub 0 12
     let old := s.crRead n
     let a := s.reg f.a
     let c := s.cur
     ∀ p ∈ [(Instr.crw f, a, True), (.crs f, old ||| a, f.a ≠ 0), (.crc f, old &&& ~~~a, f.a ≠ 0)],
       ready p.1 s = true → p.2.2 →
       let v := p.2.1
       let done := fun (c : Ctx) => exec p.1 s = .next ({ s with cur := c }.setReg f.d old).advance
       let lclassed := { c with lclass := (v.extractLsb' 0 2).toNat }
       let feat := fun (k : Nat) => if k = 0 then Config.feat0 else 0
       (c.kind ≠ .cairn → ∀ q ∈ [(0x03, { c with ctb := v, ctbDone := c.ctbDone &&& v }), (0x04, { c with fflags := v &&& 0x1F }),
           (0x05, { c with frm := v &&& 0x1F07 }), (0x06, { c with ck := c.ck.set 0 (c.ck[0].extractLsb' 64 64 ++ v) }),
           (0x07, { c with ck := c.ck.set 1 (c.ck[1].extractLsb' 64 64 ++ v) }), (0x08, { c with ck := c.ck.set 2 (c.ck[2].extractLsb' 64 64 ++ v) }),
           (0x09, { c with ck := c.ck.set 3 (c.ck[3].extractLsb' 64 64 ++ v) }), (0x86, { c with ck := c.ck.set 0 (v ++ c.ck[0].extractLsb' 0 64) }),
           (0x87, { c with ck := c.ck.set 1 (v ++ c.ck[1].extractLsb' 0 64) }), (0x88, { c with ck := c.ck.set 2 (v ++ c.ck[2].extractLsb' 0 64) }),
           (0x89, { c with ck := c.ck.set 3 (v ++ c.ck[3].extractLsb' 0 64) })], n = q.1 → done q.2) ∧
       (c.kind = .tower → (n = 0x00 → done { c with vl := BitVec.ofNat 64 (min v.toNat (vlMax c.vcfg c.lclass)), estart := 0 }) ∧
         (n = 0x02 → done { c with estart := v }) ∧
         ∀ k < 16, n = 0x200 + k →
           exec p.1 s = .next (State.setReg (s.setTower c.place (fun w => { w with comd := w.comd.setIfInBounds k v })) f.d old).advance) ∧
       (c.kind = .control → (n ∈ [0x00, 0x01, 0x02, 0x10, 0x11, 0x12, 0x13] ∨ (n = 0x14 ∧ c.sup = true)) → done c) ∧
       (c.kind = .tower → c.sup = true → n = 0x14 → done { c with mownEn := v.getLsbD 0 }) ∧
       (c.kind ≠ .cairn → c.sup = true →
         (∀ q ∈ [(0x0B, { c with pmcnt := v }), (0x32, { c with pdeadln := (v.extractLsb' 0 32).toNat, pdeadFrac := 0 }),
             (0x31, { c with
               preq := v.getLsbD 0, preqNe := v.getLsbD 8,
               pend := c.pend ++ if !c.preq && v.getLsbD 0 && v.getLsbD 8 then [{ code := 0x14B, tval := BitVec.ofNat 64 c.pdeadln, extra := 0 }] else [] }),
             (0x40, { c with untracked := (v.extractLsb' 0 16).toNat }),
             (0x100, { c with
               pm := v.getLsbD 0, tl := v.getLsbD 1, half := v.getLsbD 3, hv := v.getLsbD 4, hdone := v.extractLsb' 5 2, async := v.getLsbD 7 }),
             (0x101, { c with tcause := v &&& 0x1FF }), (0x103, { c with tval := v }), (0x106, { c with tscratch := v }),
             (0x110, { c with ptroot := v &&& ~~~0xFFF }), (0x113, { c with prio := (v.extractLsb' 0 3).toNat }), (0x114, { c with strict := v.getLsbD 0 }),
             (0x111, if vlMax c.vcfg lclassed.lclass < c.vl.toNat then { lclassed with vl := BitVec.ofNat 64 (vlMax c.vcfg lclassed.lclass) } else lclassed)],
           n = q.1 → done q.2) ∧
         (c.transfers = [] → (n = 0x19 → done { c with snext := v.extractLsb' 0 32, sfloor := v.extractLsb' 0 32 }) ∧
           (n = 0x1A → done { c with sfloor := c.snext })) ∧
         (∀ q ∈ [(0x102, 8, { c with tpc := v }), (0x104, 8, { c with tvec := v }), (0x105, 256, { c with trec := v }), (0x112, 4096, { c with ctxsave := v })],
           n = q.1 → if v.toNat % q.2.1 = 0 then done q.2.2 else exec p.1 s = .next (takeTrap 0x3A v {} s)) ∧
         ∀ k < 4, n = 0x124 + k → done { c with
           facc := c.facc.setIfInBounds k (if s.hub.featLock then c.facc[k]! &&& v &&& feat k else v &&& feat k) }) ∧
       (c.kind = .cairn →
         let m := s.mgmt
         let gives := fun (t : State) => exec p.1 s = .next (t.setReg f.d old).advance
         let bad := exec p.1 s = .next (takeTrap 8 (wordOfInstr p.1) {} s)
         let i := m.islsel
         let claim := (v.extractLsb' 0 2).toNat
         let source := (v.extractLsb' 0 8).toNat
         let index := (v.extractLsb' 8 10).toNat
         let mon := { s.monitor m.monsel with
           source := source, index := index, shift := (v.extractLsb' 18 5).toNat, en := v.getLsbD 24, thresh := v.extractLsb' 32 32 }
         (∀ q ∈ [(0x300, { m with ie := v.getLsbD 0, pie := v.getLsbD 1, ml := v.getLsbD 2 }), (0x301, { m with mcause := v &&& 0xFFFF_FFFF_FFFF_03FF }),
             (0x304, { m with mie := v.extractLsb' 0 11 }), (0x305, { m with mip := m.mip &&& v.extractLsb' 0 11 }),
             (0x330, { m with monsel := (v.extractLsb' 0 6).toNat })], n = q.1 → gives { s with mgmt := q.2 }) ∧
         (∀ q ∈ [(0x302, 8, { m with mepc := v }), (0x303, 8, { m with mvec := v }), (0x320, 4096, { m with logbase := v })],
           n = q.1 → if v.toNat % q.2.1 = 0 then gives { s with mgmt := q.2.2 } else exec p.1 s = .next (takeTrap 0x3A v {} s)) ∧
         (n = 0x310 → if (v.extractLsb' 0 10).toNat < 648 then gives { s with mgmt := { m with sensel := (v.extractLsb' 0 10).toNat } } else bad) ∧
         (n = 0x314 → if (v.extractLsb' 0 6).toNat < 33 then gives { s with mgmt := { m with islsel := (v.extractLsb' 0 6).toNat } } else bad) ∧
         (n = 0x312 → gives (s.writeSenflag v) ∧
           let x := s.sensor m.sensel
           let y := (s.writeSenflag v).sensor m.sensel
           y.failed = v.getLsbD 0 ∧ y.alarm = (x.alarm && v.getLsbD 4) ∧ y.alert = (v.extractLsb' 16 16).toInt ∧
             y.stuck = (x.stuck && v.getLsbD 0) ∧ y.range = (x.range && v.getLsbD 0) ∧ y.neigh = (x.neigh && v.getLsbD 0)) ∧
         (n = 0x313 → gives (s.writeSenpred v) ∧
           let y := (s.writeSenpred v).sensor m.sensel
           y.pred = (v.extractLsb' 0 16).toInt ∧ y.est = (v.extractLsb' 16 16).toInt ∧ y.tracking = false) ∧
         (n = 0x315 → gives (if i = 32 then { s with hubLevel := (v.extractLsb' 0 3).toNat, hubGate := v.getLsbD 24 }
           else (s.setIsland i (fun x => { x with level := (v.extractLsb' 0 3).toNat, gate := v.getLsbD 24, floor := false })).dropBoost)) ∧
         (n = 0x316 → if claim = 3 then bad else gives (if i = 32 then s else s.setIsland i (fun x => { x with claim := claim }))) ∧
         (n = 0x317 → ∃ z : Pace, gives (State.dropBoost { s with pace := z }) ∧ z.level = (v.extractLsb' 0 3).toNat ∧ z.group = v.extractLsb' 16 16 ∧
           z.en = v.getLsbD 32 ∧ z.cur = s.pace.cur) ∧
         (n = 0x31A → gives { s with power := { s.power with
           boostEn := v.getLsbD 0, dropPending := s.power.dropPending || v.getLsbD 1 } }) ∧
         (n = 0x31B → gives (if i = 32 then s else s.setIsland i (fun x => { x with chain := v.extractLsb' 0 8 }))) ∧
         (n = 0x321 → v.getLsbD 63 = false → gives { s with mgmt := { m with logidx := v } }) ∧
         (n = 0x321 → v.getLsbD 63 = true →
           let u := { s with mgmt := { m with logidx := m.logidx + 1 } }
           gives (if (m.logidx + 1).toNat % 128 = 0 then u.raiseMip 8 (m.logidx + 1) else u)) ∧
         (n = 0x331 → if 12 < source ∨ monitorIndexOk source index = false then bad else
           gives { s with monitors := s.monitors.put m.monsel (if v.getLsbD 25 then
             { mon with mn := BitVec.allOnes 64, mx := 0, bins := Vector.replicate 16 0 } else mon) }))) ∧
  (∀ (f : Fields) (s : State), f.a = 0 → crReach s.cur (f.sub 0 12) = none →
     ∀ i ∈ [Instr.crs f, .crc f], ready i s = true → exec i s = .next (s.setReg f.d (s.crRead (f.sub 0 12))).advance)

/-- Reach of control registers (R56, R57, R58): every number from 0x400 up is reserved; a supervisor number in user mode traps class 1,
subcode 0, and a management number off Cairn class 1, subcode 1, with the number as TVAL; a tower number off a tower, on Cairn every number
below 0x300 but TIME, and every unassigned number in reach, class 0, subcode 14; a write of a register that R58 marks R for the mode, class 0, subcode
15; each with the instruction word as TVAL. -/
def Obligations.ControlRegisterReach : Prop :=
  ∀ (f : Fields) (s : State),
    let n := f.sub 0 12
    let within := fun (rs : List (Nat × Nat)) => rs.any (fun r => r.1 ≤ n && n ≤ r.2) = true
    let hart := s.cur.kind ≠ .cairn
    ∀ i ∈ [Instr.crr f, .crw f, .crs f, .crc f], ready i s = true →
      let writes := i = .crw f ∨ (i ≠ .crr f ∧ f.a ≠ 0)
      let reserved := exec i s = .next (takeTrap 14 (wordOfInstr i) {} s)
      let readOnly := exec i s = .next (takeTrap 15 (wordOfInstr i) {} s)
      (0x400 ≤ n → reserved) ∧
      (0x100 ≤ n → n < 0x200 → s.cur.kind ≠ .cairn → s.cur.sup = false → exec i s = .next (takeTrap 0x10 (BitVec.ofNat 64 n) {} s)) ∧
      (0x300 ≤ n → n < 0x400 → s.cur.kind ≠ .cairn → exec i s = .next (takeTrap 0x11 (BitVec.ofNat 64 n) {} s)) ∧
      (0x200 ≤ n → n < 0x300 → s.cur.kind ≠ .tower → reserved) ∧
      (n < 0x300 → n ≠ 0x30 → s.cur.kind = .cairn → reserved) ∧
      (hart → within [(0x0C, 0x0F), (0x15, 0x17), (0x1B, 0x1F), (0x26, 0x2F), (0x33, 0x3F), (0x42, 0x85), (0x8A, 0xFF)] → reserved) ∧
      (hart → s.cur.sup = true → within [(0x107, 0x10F), (0x115, 0x11F), (0x128, 0x1FF)] → reserved) ∧
      (s.cur.kind = .tower → within [(0x211, 0x217), (0x21B, 0x2FF)] → reserved) ∧
      (s.cur.kind = .cairn → within [(0x306, 0x30F), (0x31C, 0x31F), (0x322, 0x32F), (0x344, 0x3FF)] → reserved) ∧
      (writes →
        (n = 0x30 → readOnly) ∧
        (hart → within [(0x0A, 0x0A), (0x18, 0x18), (0x20, 0x25), (0x41, 0x41)] → readOnly) ∧
        (hart → s.cur.sup = true → within [(0x120, 0x123)] → readOnly) ∧
        (hart → s.cur.sup = false → within [(0x0B, 0x0B), (0x14, 0x14), (0x19, 0x1A), (0x31, 0x32), (0x40, 0x40)] → readOnly) ∧
        (s.cur.kind = .tower → within [(0x218, 0x21A)] → readOnly) ∧
        (s.cur.kind = .tower → s.cur.sup = false → n = 0x210 → readOnly) ∧
        (s.cur.kind = .cairn → within [(0x311, 0x311), (0x318, 0x319), (0x332, 0x343)] → readOnly))

/-- Branches and jumps (R29, R85): a branch goes to PC + SExt(offset) x 8 when its condition holds and else to the next word; j and jl always go; jl
and jr write the address of the next word to sD, jr after reading sA; a target of jr that is not a multiple of 8 traps class 3, subcode 0 with
the target as TVAL. smb, bk and bt (R86-R88). smb traps class 2, subcode 4 when VL is 0 and sD is not, subcode 3 when sD is below VL; else, with both 0 too, sD
falls by VL, the named run of scalars rises by the bytes of a strip, and the branch is taken while sD is not 0. bk branches on the mask bits that
govern elements 0 to VL - 1: some, all or none of them set, and acquires what the masks it reads stand for (R216). bt branches on a CTB bit, and a taken bt.set acquires the transfer.
The model's own choices in it are those of log entry 1. -/
def Obligations.Branches : Prop :=
  (∀ (f : Fields) (s : State),
     let goto := fun (t : State) (pc : Word) => ({ t with cur := { t.cur with pc := pc } } : State)
     let a := s.reg f.a
     let b := s.reg f.b
     let near := s.cur.pc + BitVec.ofInt 64 ((f.imm.extractLsb' 0 24).toInt * 8)
     let far := s.cur.pc + BitVec.ofInt 64 (f.imm.toInt * 8)
     let t := a + f.imm.signExtend 64
     (ready (.bCond f) s = true → ∀ p ∈ [(0, decide (a = b)), (1, decide (a ≠ b)), (2, decide (a.toInt < b.toInt)),
       (3, decide (b.toInt ≤ a.toInt)), (4, decide (a.toNat < b.toNat)), (5, decide (b.toNat ≤ a.toNat)), (6, decide (a ≠ 0)),
       (7, decide (a = 0))], f.sub 24 4 = p.1 → exec (.bCond f) s = .next (if p.2 then goto s near else s.advance)) ∧
     (ready (.j f) s = true → exec (.j f) s = .next (goto s far)) ∧
     (ready (.jl f) s = true → exec (.jl f) s = .next (goto (s.setReg f.d (s.cur.pc + 8)) far)) ∧
     (ready (.jr f) s = true → t.toNat % 8 = 0 → exec (.jr f) s = .next (goto (s.setReg f.d (s.cur.pc + 8)) t)) ∧
     (ready (.jr f) s = true → t.toNat % 8 ≠ 0 → exec (.jr f) s = .next (takeTrap 0x30 t {} s))) ∧
  (∀ (f : Fields) (s : State),
     let goto := fun (t : State) (pc : Word) => ({ t with cur := { t.cur with pc := pc } } : State)
     let vl := if s.cur.kind = .tower then s.cur.vl else 0
     let x := s.reg f.d
     let near := s.cur.pc + BitVec.ofInt 64 ((f.imm.extractLsb' 0 24).toInt * 8)
     let k := f.a.toNat - 48
     let bit := fun e => (s.cur.maskBit k e (ewOf s.cur.vcfg))
     let tag := f.sub 22 6
     let set := s.cur.kind ≠ .cairn ∧ s.cur.ctb.getLsbD tag = true
     let tagTarget := s.cur.pc + BitVec.ofInt 64 ((f.imm.extractLsb' 0 21).toInt * 8)
     (ready (.smb f) s = true → vl = 0 → x ≠ 0 → exec (.smb f) s = .next (takeTrap 0x24 x {} s)) ∧
     (ready (.smb f) s = true → x.toNat < vl.toNat → exec (.smb f) s = .next (takeTrap 0x23 x {} s)) ∧
     (ready (.smb f) s = true → (vl = 0 → x = 0) → vl.toNat ≤ x.toNat → ∃ t, exec (.smb f) s = .next (if x = vl then t.advance else goto t near) ∧
       t.cur = { s.cur with regs := t.cur.regs } ∧ t = { s with cur := t.cur } ∧ t.reg f.d = (if f.d = 0 then 0 else x - vl) ∧
       (∀ i : Nat, i ≤ f.sub 26 2 → t.reg (f.a + BitVec.ofNat 6 i) =
         s.reg (f.a + BitVec.ofNat 6 i) + BitVec.ofNat 64 ((vl.toNat * ewOf s.cur.vcfg + 7) / 8)) ∧
       ∀ v : BitVec 6, v.toNat < 32 → v ≠ f.d → (∀ i : Nat, i ≤ f.sub 26 2 → v ≠ f.a + BitVec.ofNat 6 i) → t.reg v = s.reg v) ∧
     (ready (.bk f) s = true → k % vgOf s.cur.vcfg = 0 → ∀ p ∈ [(0, ∃ e < s.cur.vl.toNat, bit e = true), (1, ∀ e < s.cur.vl.toNat, bit e = true),
       (2, ∀ e < s.cur.vl.toNat, bit e = false)], f.sub 26 2 = p.1 →
         let t := s.readMaskRun [(k, 0)] (vgOf s.cur.vcfg)
         (p.2 → exec (.bk f) s = .next (goto t near)) ∧ (¬p.2 → exec (.bk f) s = .next t.advance)) ∧
     (ready (.bk f) s = true → k % vgOf s.cur.vcfg ≠ 0 → exec (.bk f) s = .next (takeTrap 0xB5 (f.a.zeroExtend 64) {} s)) ∧
     (ready (.bt f) s = true → f.sub 21 1 = 0 → (set → exec (.bt f) s = .next (goto (s.acquireTag tag) tagTarget)) ∧
       (¬set → exec (.bt f) s = .next s.advance)) ∧
     (ready (.bt f) s = true → f.sub 21 1 = 1 → (set → exec (.bt f) s = .next s.advance) ∧
       (¬set → exec (.bt f) s = .next (goto s tagTarget))))

/-- ld and lda of DRAM complete (R31, R81-R83): at an aligned address that translates, published, sound and not in conflict, sD takes the 2^SZ bytes
there, little-endian, sign-extended under SX and else zero-extended; beyond the translation, the row's service and the page's use nothing else
changes. A misaligned ld or st traps class 3, subcode 1, and a misaligned lda or stl subcode 2, with the address as TVAL (R81); a load of a
poisoned granule traps class 21, subcode 0, with the address as TVAL (R242, R356); a fault of translation is taken with the address as TVAL
(R358).
The model's own choices in it are those of log entries 1, 11 and 27. -/
def Obligations.Loads : Prop :=
  (∀ (f : Fields) (s t u : State) (leaf : Leaf),
     let n := 2 ^ f.sub 26 2
     ∀ p ∈ [(Instr.ld f, s.reg f.a + BitVec.ofInt 64 (f.imm.extractLsb' 0 25).toInt),
         (.lda f, s.reg f.a + BitVec.ofInt 64 (f.imm.extractLsb' 0 22).toInt)],
       ready p.1 s = true → p.2.toNat % n = 0 → PlainAccess s p.2 n .read leaf t u → poisoned u.poison leaf.pa n = false →
       u.Settled leaf →
       exec p.1 s = .next ((u.afterRead leaf).setReg f.d
         (if f.sub 25 1 = 1 then BitVec.ofInt 64 (sextN (u.num leaf.pa n) (8 * n)) else BitVec.ofNat 64 (u.num leaf.pa n))).advance) ∧
  (∀ (f : Fields) (s t u : State) (leaf : Leaf) (c : Nat),
     let n := 2 ^ f.sub 26 2
     let far := s.reg f.a + BitVec.ofInt 64 (f.imm.extractLsb' 0 25).toInt
     let near := s.reg f.a + BitVec.ofInt 64 (f.imm.extractLsb' 0 22).toInt
     (∀ p ∈ [(Instr.ld f, far, 0x31), (.st f, far, 0x31), (.lda f, near, 0x32), (.stl f, near, 0x32)], ready p.1 s = true →
       p.2.1.toNat % n ≠ 0 → exec p.1 s = .next (takeTrap p.2.2 p.2.1 {} s)) ∧
     (∀ p ∈ [(Instr.ld f, far), (.lda f, near)], ready p.1 s = true → p.2.toNat % n = 0 →
       (s.translate p.2 .read = .error c → exec p.1 s = .next (takeTrap c p.2 {} s)) ∧
       (PlainAccess s p.2 n .read leaf t u → poisoned u.poison leaf.pa n = true → exec p.1 s = .next (takeTrap 0x150 p.2 {} s))) ∧
     (ready (.st f) s = true → far.toNat % n = 0 → s.translate far .write = .error c → exec (.st f) s = .next (takeTrap c far {} s)))

/-- st and stl of DRAM complete, and store what R81-R83 say: the low 2^SZ bytes of sD, little-endian, at the address the translation gives,
and the frame: every other byte of memory reads as it did after the translation, every scalar and every flag of the hart stands, and the PC
goes to the next word.
The model's own choices in it are those of log entries 1 and 28. -/
def Obligations.StoresComplete : Prop :=
  ∀ (f : Fields) (s t u : State) (leaf : Leaf),
    let n := 2 ^ f.sub 26 2
    ∀ p ∈ [(Instr.st f, s.reg f.a + BitVec.ofInt 64 (f.imm.extractLsb' 0 25).toInt),
        (.stl f, s.reg f.a + BitVec.ofInt 64 (f.imm.extractLsb' 0 22).toInt)],
      ready p.1 s = true → p.2.toNat % n = 0 → s.MemInv → (p.1 = .stl f → s.cur.pubs = [] ∧ s.cur.run = .running) →
      PlainAccess s p.2 n .write leaf t u → ∃ v, exec p.1 s = .next v ∧
        (∀ i < n, v.byte (leaf.pa + i) = (s.reg f.d).extractLsb' (8 * i) 8) ∧
        (∀ a, a < leaf.pa ∨ leaf.pa + n ≤ a → v.byte a = t.byte a) ∧
        v.cur.regs = s.cur.regs ∧ v.cur.pc = s.cur.pc + 8 ∧ v.cur.fflags = s.cur.fflags ∧ v.cur.vl = s.cur.vl ∧ v.cur.vcfg = s.cur.vcfg ∧
        v.cur.masks = s.cur.masks ∧ v.cur.sup = s.cur.sup ∧ v.cur.tl = s.cur.tl

/-- Translation changes no register of the hart, and of memory at most the eight bytes of the leaf entry whose A and D bits it sets (R362,
R365); Cairn's addresses are physical and change nothing (R371).
The model's own choices in it are those of log entries 7 and 27. -/
def Obligations.TranslationFrame : Prop :=
  ∀ (s t : State) (va : Word) (acc : AccKindT) (leaf : Leaf), s.translate va acc = .ok (leaf, t) →
    t.cur = s.cur ∧ t.others = s.others ∧ t.clk = s.clk ∧ (s.MemInv → ∀ a, a < leaf.entry ∨ leaf.entry + 8 ≤ a → t.byte a = s.byte a) ∧
    (s.cur.kind = .cairn → t = s)

/-! ### Open rows -/

/-- act and actn complete (R96) when every check of the run passes, which finds a row for each group: afterwards every group holds its row under its
virtual address, clean under act and dirty under actn, and no other byte of memory than those of the rows that actn opens has changed since the
translations. wb, pre, prex, ref and refa complete (R98, R99) on a run of vg groups whose first is a multiple of vg. wb leaves every group open
and clean; pre leaves it closed; prex closes it and changes no byte outside its row, whose contents are then undefined (free values); a refresh
of a closed group advances RPTR modulo 1,024 and lowers the debt by 1, to no lower than -8; refa refreshes every closed group of the home bank
and leaves the open ones open. wb, pre, ref and refa change no byte of memory. An activation of a group in which accesses wait to the row that the
memory controller holds open there waits for them, and nothing changes (R31, R32).
The model's own choices in it are those of log entries 8 and 16. -/
def Obligations.RowCommands : Prop :=
  (∀ (f : Fields) (s u : State) (ts : List RowTarget), s.MemInv → s.NoReplay →
     let vg := vgOf s.cur.vcfg
     let base := s.reg f.a + BitVec.ofInt 64 (f.imm.toInt * 8192)
     let free := ∀ i < vg, s.mcWanted (s.homeKey (rowField f.d + i)) = false
     rowField f.d % vg = 0 → vg ≤ vgMax s.cur.lclass → base.toNat % 8192 = 0 →
     (¬free → ∀ i ∈ [Instr.act f, .actn f], ready i s = true → exec i s = .next s) ∧
     (free → rowTargets (rowField f.d) base .read vg 0 s = .ok (ts, u) → ready (.act f) s = true → ∃ t, exec (.act f) s = .next t ∧
       t.mem = u.mem ∧ ∀ x ∈ ts, (t.group x.key).row = some x.row ∧ (t.group x.key).dirty = false ∧ (t.group x.key).va = x.va) ∧
     (free → rowTargets (rowField f.d) base .write vg 0 s = .ok (ts, u) → ready (.actn f) s = true → ∃ t, exec (.actn f) s = .next t ∧
       (∀ x ∈ ts, (t.group x.key).row = some x.row ∧ (t.group x.key).dirty = true ∧ (t.group x.key).va = x.va) ∧
       ∀ a, (∀ x ∈ ts, a < rowBase x.key x.row ∨ rowBase x.key x.row + 8192 ≤ a) → t.byte a = u.byte a)) ∧
  (∀ (f : Fields) (s : State), s.NoTransfers → s.cur.home < 16 →
     let vg := vgOf s.cur.vcfg
     let key := fun i => s.homeKey (rowField f.d + i)
     let usable := rowField f.d % vg = 0 ∧ rowField f.d + vg ≤ 16 ∧ vg ≤ vgMax s.cur.lclass
     let allOpen := ∀ i < vg, (s.group (key i)).forced = false ∧ (s.group (key i)).forcing = false ∧ (s.group (key i)).row.isSome = true
     let allClosed := ∀ i < vg, (s.group (key i)).row = none ∧ (s.group (key i)).forcing = false
     let free := ∀ i < vg, s.mcWanted (key i) = false
     let bankFree := ∀ g < 16, s.mcWanted (s.homeKey g) = false
     let refreshed := fun (k : Nat) (t : State) => (t.group k).rptr = ((s.group k).rptr + 1) % 1024 ∧
       (t.group k).debt = max ((s.group k).debt - 1) (-8) ∧ (t.group k).forced = false
     (ready (.wb f) s = true → usable → allOpen → ∃ t, exec (.wb f) s = .next t ∧ t.mem = s.mem ∧
       ∀ i < vg, (t.group (key i)).row = (s.group (key i)).row ∧ (t.group (key i)).dirty = false) ∧
     (ready (.pre f) s = true → usable → allOpen → ∃ t, exec (.pre f) s = .next t ∧ t.mem = s.mem ∧
       ∀ i < vg, (t.group (key i)).row = none ∧ (t.group (key i)).dirty = false) ∧
     (ready (.prex f) s = true → usable → allOpen → s.MemInv → ∃ t, exec (.prex f) s = .next t ∧
       (∀ i < vg, (t.group (key i)).row = none) ∧
       ∀ a, (∀ i < vg, ∀ r, (s.group (key i)).row = some r → a < rowBase (key i) r ∨ rowBase (key i) r + 8192 ≤ a) → t.byte a = s.byte a) ∧
     (ready (.ref f) s = true → usable → allClosed → ¬free → exec (.ref f) s = .next s) ∧
     (ready (.refa f) s = true → ¬bankFree → exec (.refa f) s = .next s) ∧
     (ready (.ref f) s = true → usable → allClosed → free → ∃ t, exec (.ref f) s = .next t ∧ t.mem = s.mem ∧ ∀ i < vg, refreshed (key i) t) ∧
     (ready (.refa f) s = true → bankFree → ∃ t, exec (.refa f) s = .next t ∧ t.mem = s.mem ∧ ∀ g < 16,
       ((s.homeGroup g).row = none → (s.homeGroup g).forcing = false → refreshed (s.homeKey g) t) ∧
       ((s.homeGroup g).row.isSome = true → (t.group (s.homeKey g)).row = (s.homeGroup g).row ∧ (t.group (s.homeKey g)).debt = (s.homeGroup g).debt)))

/-- rstat and rplace complete (R100, R101): rstat reports the state of the group in bits 1:0 (closed, open clean, open dirty), a forced close in
bit 2, the memory controller's hold in bit 3, a writable open row in bit 4 and the debt in bits 9:5; rplace reports 0 for a closed group, else
bit 63 with the place of the row, and in bit 62 whether it is writable. Neither starts while the refreshes of a forced close are under way (R110). -/
def Obligations.RowReports : Prop :=
  ∀ (f : Fields) (s : State),
    let k := s.homeKey (rowField f.a)
    let g := s.group k
    g.forcing = false →
    (ready (.rstat f) s = true → ∃ r, exec (.rstat f) s = .next (s.setReg f.d r).advance ∧
      r.extractLsb' 0 2 = (if g.row.isNone then 0 else if g.dirty then 2 else 1) ∧ r.getLsbD 2 = g.forced ∧ r.getLsbD 3 = g.mc.isSome ∧
      r.getLsbD 4 = (g.row.isSome && g.writable) ∧ r.extractLsb' 5 5 = BitVec.ofInt 5 g.debt) ∧
    (ready (.rplace f) s = true → ∃ r, exec (.rplace f) s = .next (s.setReg f.d r).advance ∧ (g.row = none → r = 0) ∧
      ∀ x, g.row = some x → r.getLsbD 63 = true ∧ r.extractLsb' 0 27 = BitVec.ofNat 27 (rowBase k x / 8192) ∧
        (x < 1024 → k < 2 ^ 17 → r.getLsbD 62 = g.writable))

/-! ### Vector instructions -/

/-- setvl and setcfg complete (R116-R120): VL becomes the smaller of the request and VLMAX, which the latency class clamps, ESTART 0 and sD the
request; a valid configuration becomes VCFG's layout, VL is clamped, ESTART 0 and sD the old VCFG; an element width code above 4 traps class 0,
subcode 8, an unassigned format class 11, subcode 0, and a format of another width subcode 1. -/
def Obligations.VectorConfiguration : Prop :=
  ∀ (f : Fields) (s : State),
    let vmax := fun (vcfg : Word) => min (vgOf vcfg * 65536 / ewOf vcfg) (vlMaxC s.cur.lclass)
    let req : Word := if f.form = 0 then s.reg f.a else f.imm.zeroExtend 64
    let v : Word := if f.form = 0 then (s.reg f.a) &&& 0xFFF else (f.imm.zeroExtend 64) &&& 0xFFF
    (ready (.setvl f) s = true → exec (.setvl f) s = .next (({ s with cur := { s.cur with
      vl := BitVec.ofNat 64 (min req.toNat (vmax s.cur.vcfg)), estart := 0 } } : State).setReg f.d req).advance) ∧
    (ready (.setcfg f) s = true → vcfgFault v = none → ∃ t : State, exec (.setcfg f) s = .next (t.setReg f.d s.cur.vcfg).advance ∧
      t = { s with cur := { s.cur with vcfg := v &&& 0xFF7, estart := 0, vl := t.cur.vl } } ∧
      t.cur.vl = (if vmax (v &&& 0xFF7) < s.cur.vl.toNat then BitVec.ofNat 64 (vmax (v &&& 0xFF7)) else s.cur.vl)) ∧
    (ready (.setcfg f) s = true → 4 < fld v.toNat 0 3 → exec (.setcfg f) s = .next (takeTrap 8 (wordOfInstr (.setcfg f)) {} s)) ∧
    (ready (.setcfg f) s = true → fld v.toNat 0 3 ≤ 4 → fcValid (fld v.toNat 6 6) = false → exec (.setcfg f) s = .next (takeTrap 0xB0 v {} s)) ∧
    (ready (.setcfg f) s = true → fld v.toNat 0 3 ≤ 4 → fcValid (fld v.toNat 6 6) = true → fcWidth (fld v.toNat 6 6) ≠ ewOf v →
      exec (.setcfg f) s = .next (takeTrap 0xB1 v {} s))

/-- What the writing of elements does to a run of open rows, element by element (R8, R97, R123), where the vector queue sees memory as it stands: an
element in the list reads back its value cut to
its width, every other element of the run and every byte of memory outside the run's rows is unchanged, the groups written are dirty, and ESTART
is 0. What the writing of compare results does to the masks, bit by bit (R122, R130, R134): an element in the list reads back its value, or 0
where it is poisoned; every other element of the run and every other mask register stands. -/
def Obligations.WritesReadBack : Prop :=
  (∀ (s : State) (g n ew : Nat) (es : List Elt), s.MemInv → s.SeesMemory → ew ∈ [4, 8, 16, 32, 64] → g + n ≤ 16 → s.cur.home < 16 →
     (∀ i < n, ∃ r < 1024, (s.homeGroup (g + i)).row = some r) → (es.map (fun x => x.e)).Nodup →
     (∀ x ∈ es, x.e * ew < n * 65536) →
     let t := s.withElements g n ew es
     (∀ x ∈ es, t.elem g x.e ew = x.v % 2 ^ ew) ∧
     (∀ e, e * ew < n * 65536 → (∀ x ∈ es, x.e ≠ e) → t.elem g e ew = s.elem g e ew) ∧
     (∀ a, (∀ i < n, ∀ r, (s.homeGroup (g + i)).row = some r →
       a < rowBase (s.homeKey (g + i)) r ∨ rowBase (s.homeKey (g + i)) r + 8192 ≤ a) → t.byte a = s.byte a) ∧
     (∀ x ∈ es, (t.homeGroup (g + x.e * ew / 65536)).dirty = true) ∧ t.cur.estart = 0 ∧ t.cur.regs = s.cur.regs) ∧
  (∀ (s : State) (k ew : Nat) (es : List Elt), ew ∈ [8, 16, 32, 64] → k < 8 →
     (es.map (fun x => x.e)).Nodup → (∀ x ∈ es, 1 ≤ k + x.e * (ew / 8) / 8192 ∧ k + x.e * (ew / 8) / 8192 < 8) →
     let t := s.writeMaskElts k ew es
     let bit := fun (u : State) e => (u.cur.mask (k + e * (ew / 8) / 8192)).getLsbD (e * (ew / 8) % 8192)
     (∀ x ∈ es, bit t x.e = (!x.pois && x.v != 0)) ∧
     (∀ e, 1 ≤ k + e * (ew / 8) / 8192 → k + e * (ew / 8) / 8192 < 8 → (∀ x ∈ es, x.e ≠ e) → bit t e = bit s e) ∧
     (∀ j, 1 ≤ j → j < 8 → (∀ x ∈ es, k + x.e * (ew / 8) / 8192 ≠ j) → t.cur.mask j = s.cur.mask j) ∧
     t.cur.regs = s.cur.regs ∧ t.mem = s.mem)

/-- The element-wise integer instructions complete (R121-R125, R130, R132): with every row ready and FC an integer format where it matters, the
active elements from ESTART to VL - 1 take the low ew bits of the operation on a, b and d (a under its signedness is `sa`, b `sb`), masked-off
ones 0 under MZ and nothing else; the second operand is a row element, the low bits of a scalar, or those of an immediate. -/
def Obligations.IntegerElements : Prop :=
  ∀ (f : Fields) (s : State) (rm : RoundMode), s.NoTransfers →
    let vg := vgOf s.cur.vcfg
    let w := ewOf s.cur.vcfg
    let brow := if f.form = 0 then [(f.b, vg, false)] else []
    VecReady { rows := [(f.d, vg, true), (f.a, vg, false)] ++ brow, masks := [(f.m.toNat, f.m.toNat)] } s rm →
    let u := s.readMaskRun [(f.m.toNat, f.m.toNat)] vg
    let a := fun e => u.elem (rowField f.a) e w
    let b := fun e => operandVB f u e w
    let d := fun e => u.elem (rowField f.d) e w
    let sa := fun e => sextN (a e) w
    let sb := fun e => sextN (b e) w
    let fcSign := fcOf s.cur.vcfg % 2 = 0
    let va := fun e => if fcSign then sa e else (a e % 2 ^ w : Nat)
    let vb := fun e => if fcSign then sb e else (b e % 2 ^ w : Nat)
    let clamp := fun (lo hi x : Int) => if x < lo then lo else if hi < x then hi else x
    let top : Int := 2 ^ (w - 1)
    let pois := fun (needsD : Bool) e => u.elemPoisoned (rowField f.a) e w || (f.form = 0 && u.elemPoisoned (rowField f.b) e w) ||
      (needsD && u.elemPoisoned (rowField f.d) e w)
    let result := fun (needsD : Bool) (op : Nat → Int) => (u.withElements (rowField f.d) vg w
      (eltsOf f u.cur u.cur.estart.toNat (fun e => (lowN (op e) w, 0)) (pois needsD))).advance
    (∀ p ∈ [(Instr.vadd f, fun e => (a e + b e : Int)), (.vsub f, fun e => (a e : Int) - b e), (.vrsub f, fun e => (b e : Int) - a e),
        (.vmul f, fun e => (a e * b e : Int)), (.vadds f, fun e => clamp (-top) (top - 1) (sa e + sb e)),
        (.vaddsz f, fun e => clamp 0 (2 ^ w - 1) ((a e % 2 ^ w + b e % 2 ^ w : Nat) : Int)),
        (.vsubs f, fun e => clamp (-top) (top - 1) (sa e - sb e)),
        (.vsubsz f, fun e => clamp 0 (2 ^ w - 1) (((a e % 2 ^ w : Nat) : Int) - (b e % 2 ^ w : Nat))),
        (.vmin f, fun e => min (sa e) (sb e)), (.vmax f, fun e => max (sa e) (sb e)),
        (.vminz f, fun e => ((min (a e % 2 ^ w) (b e % 2 ^ w) : Nat) : Int)), (.vmaxz f, fun e => ((max (a e % 2 ^ w) (b e % 2 ^ w) : Nat) : Int)),
        (.vand f, fun e => ((a e &&& b e : Nat) : Int)), (.vor f, fun e => ((a e ||| b e : Nat) : Int)),
        (.vxor f, fun e => ((a e ^^^ b e : Nat) : Int)), (.vsll f, fun e => ((a e * 2 ^ (b e % w) : Nat) : Int)),
        (.vsrl f, fun e => ((a e / 2 ^ (b e % w) : Nat) : Int)), (.vsra f, fun e => sa e / 2 ^ (b e % w))],
      ready p.1 s = true → exec p.1 s = .next (result false p.2)) ∧
    (ready (.vmacc f) s = true → exec (.vmacc f) s = .next (result true (fun e => (d e + a e * b e : Int)))) ∧
    (fcOf s.cur.vcfg % 32 ≤ 7 → ∀ p ∈ [(Instr.vmulh f, fun e => va e * vb e / 2 ^ w), (.vavg f, fun e => (va e + vb e + 1) / 2),
        (.vabsd f, fun e => ((va e - vb e).natAbs : Int))], ready p.1 s = true → exec p.1 s = .next (result false p.2))

/-- vnsra, vwadd, vwmul and vdot4 complete (R126, R133): with the widths, rows and formats of their entries, each active element takes the rounded
and clamped shift of a double-width element, the exact double-width sum or product, or the sum of d and four products; masked-off elements take 0
under MZ. vcvt and vcvtq complete (R162-R165): each active element of the source format is converted to the destination format, rounded once
under RM and OV; equal widths are element-wise, other widths whole-row; vcvtq multiplies each f32 element by the scale in sB, exactly, before the
one rounding. An enabled flag takes class 13; a format without an assignment class 11, subcode 0. What the conversion gives is pinned here: the
smallest nonzero, smallest normal and largest magnitudes of every format (R148, R151), the value of every code (R147-R150), the canonical NaNs, Round
of every value as the nearest or directed code with its flags, by overflow and tininess (R157), the special inputs (R158), and the conversions to and
from integers (R159); a value of 65 bits or more whose last bit is a sticky one rounds as any number between its neighbours. -/
def Obligations.FormatChanges : Prop :=
  (∀ p ∈ ([(8, 2 ^ (-24 : Int), 2 ^ (-14 : Int), 65504), (9, 2 ^ (-133 : Int), 2 ^ (-126 : Int), 255 * 2 ^ 120),
       (10, 2 ^ (-149 : Int), 2 ^ (-126 : Int), (2 ^ 24 - 1) * 2 ^ 104), (11, 0.25, 0.5, 3),
       (16, 2 ^ (-63 : Int), 2 ^ (-63 : Int), 2 ^ 63), (17, 2 ^ (-32 : Int), 2 ^ (-31 : Int), 1.5 * 2 ^ 31), (18, 2 ^ (-17 : Int), 2 ^ (-15 : Int), 57344),
       (19, 2 ^ (-10 : Int), 2 ^ (-7 : Int), 240), (20, 2 ^ (-7 : Int), 2 ^ (-3 : Int), 15.5), (21, 2 ^ (-6 : Int), 2 ^ (-1 : Int), 3.9375),
       (22, 2 ^ (-6 : Int), 1, 1.984375), (24, 2 ^ (-127 : Int), 2 ^ (-127 : Int), 2 ^ 126), (25, 2 ^ (-64 : Int), 2 ^ (-63 : Int), 2 ^ 63),
       (26, 2 ^ (-33 : Int), 2 ^ (-31 : Int), 1.5 * 2 ^ 31), (27, 2 ^ (-18 : Int), 2 ^ (-15 : Int), 57344), (28, 2 ^ (-11 : Int), 2 ^ (-7 : Int), 240),
       (29, 2 ^ (-8 : Int), 2 ^ (-3 : Int), 15.5), (30, 2 ^ (-7 : Int), 2 ^ (-1 : Int), 3.9375),
       (48, 2 ^ (-63 : Int), 2 ^ (-63 : Int), 2 ^ 62), (49, 2 ^ (-32 : Int), 2 ^ (-31 : Int), 2 ^ 31), (50, 2 ^ (-17 : Int), 2 ^ (-15 : Int), 49152),
       (51, 2 ^ (-10 : Int), 2 ^ (-7 : Int), 224), (52, 2 ^ (-7 : Int), 2 ^ (-3 : Int), 15), (53, 2 ^ (-6 : Int), 2 ^ (-1 : Int), 3.875),
       (54, 2 ^ (-6 : Int), 1, 1.96875), (56, 2 ^ (-127 : Int), 2 ^ (-127 : Int), 2 ^ 125), (57, 2 ^ (-64 : Int), 2 ^ (-63 : Int), 1.5 * 2 ^ 62),
       (58, 2 ^ (-33 : Int), 2 ^ (-31 : Int), 1.25 * 2 ^ 31), (59, 2 ^ (-18 : Int), 2 ^ (-15 : Int), 53248), (60, 2 ^ (-11 : Int), 2 ^ (-7 : Int), 232),
       (61, 2 ^ (-8 : Int), 2 ^ (-3 : Int), 15.25), (62, 2 ^ (-7 : Int), 2 ^ (-1 : Int), 3.90625)] : List (Nat × ℚ × ℚ × ℚ)),
     ∃ f, floatFmt p.1 = some f ∧ f.mag 1 = p.2.1 ∧ f.mag (2 ^ (f.prec - 1)) = p.2.2.1 ∧ f.mag f.maxCode = p.2.2.2) ∧
  (∀ p ∈ [(8, 0x7E00), (9, 0x7FC0), (10, 0x7FC0_0000), (11, 8), (16, 0x80), (22, 0x80), (24, 0xFF), (30, 0xFF), (48, 0x80), (54, 0x80), (56, 0xFF), (62, 0xFF)],
     ∃ f, floatFmt p.1 = some f ∧ f.nanCode = p.2) ∧
  (∀ (fc : Nat) (f : FloatFmt), fcValid fc = true → floatFmt fc = some f →
     (∀ b < 2 ^ f.width,
       let half := 2 ^ (f.width - 1)
       let neg := f.signed && decide (half ≤ b)
       let c := if f.signed then b % half else b
       let inf := half - 2 ^ (f.prec - 1)
       let finite := (c = 0 → f.decode b = .zero neg) ∧ (0 < c → (f.decode b).IsFinite ∧ (f.decode b).neg? = neg ∧
         (f.decode b).rat = if neg then -f.mag c else f.mag c)
       valueOf b fc f.width = f.decode b ∧
       (f.ieee = true → (inf < c → f.decode b = .nan (decide (c < inf + 2 ^ (f.prec - 2)))) ∧ (c = inf → f.decode b = .inf neg) ∧ (c < inf → finite)) ∧
       (f.ieee = false →
         let nan := b = if f.signed then half else 0xFF
         let top := f.hasInf = true ∧ c = if f.signed then 0x7F else 0xFE
         (nan → f.decode b = .nan false) ∧ (¬nan → top → f.decode b = .inf neg) ∧ (¬nan → ¬top → finite))) ∧
     (∀ (rm : RoundMode) (ov : Bool), rm ≤ 4 →
       (∀ (x : Machine.Num) (v : ℚ), 0 < v → x.StandsFor v → f.Rounded rm ov x.neg? v (f.round x rm ov)) ∧
       (∀ sig, f.round (.nan sig) rm ov = (f.nanCode, if sig then 16 else 0)) ∧
       (∀ neg, f.round (.zero neg) rm ov = (if f.ieee && neg then 2 ^ (f.width - 1) else 0, 0)) ∧
       (∀ neg, let sign := if neg then 2 ^ (f.width - 1) else 0
         f.round (.inf neg) rm ov = if neg && !f.signed then (if ov then f.nanCode else 0, 16)
           else if f.hasInf then (f.maxCode + 1 + sign, 0) else if ov then (f.nanCode, 16) else (f.maxCode + sign, 1)) ∧
       ∀ (x : Machine.Num) (fs wd : Nat), convert x fs fc wd rm ov = f.round x rm ov)) ∧
  (∀ fc < 8,
     let w := fcWidth fc
     let lo : Int := if fc % 2 = 0 then -2 ^ (w - 1) else 0
     let hi : Int := if fc % 2 = 0 then 2 ^ (w - 1) - 1 else 2 ^ w - 1
     (∀ b, valueOf b fc w = intNum (if fc % 2 = 0 then (BitVec.ofNat w b).toInt else (b % 2 ^ w : Nat))) ∧
     (∀ v : Int, (intNum v).IsFinite ∧ (intNum v).rat = v) ∧
     (∀ (fs : Nat) (rm : RoundMode) (ov : Bool), fcValid fs = true → rm ≤ 4 →
       (8 ≤ fs →
         (∀ sig, convert (.nan sig) fs fc w rm ov = (0, 16)) ∧ (∀ neg, convert (.zero neg) fs fc w rm ov = (0, 0)) ∧
         (∀ neg, convert (.inf neg) fs fc w rm ov = (lowN (if neg then lo else hi) w, 16)) ∧
         ∀ (neg : Bool) (m : Nat) (e : Int), 0 < m → ∃ k : Nat, RoundsOn (fun n => n) rm neg (m * 2 ^ e) k ∧
           let v : Int := if neg then -k else k
           convert (.fin neg m e) fs fc w rm ov = if v < lo then (lowN lo w, 16) else if hi < v then (lowN hi w, 16)
             else (lowN v w, if (k : ℚ) = m * 2 ^ e then 0 else 1)) ∧
       (fs < 8 → ∀ v : Int, convert (intNum v) fs fc w rm ov =
         (if fcWidth fs < w ∨ ov = true then lowN v w else lowN (max lo (min hi v)) w, 0)))) ∧
  (∀ (f : Fields) (s : State) (rm : RoundMode), s.NoTransfers →
     let vg := vgOf s.cur.vcfg
     let w := ewOf s.cur.vcfg
     let brow := fun n => if f.form = 0 then [(f.b, n, false)] else []
     let ms := [(f.m.toNat, f.m.toNat)]
     let u := s.readMaskRun ms vg
     let sg := fun (v n : Nat) => if fcOf s.cur.vcfg % 2 = 0 then sextN v n else (v % 2 ^ n : Nat)
     let bp := fun e n => f.form = 0 && u.elemPoisoned (rowField f.b) e n
     let clamp := fun (lo hi x : Int) => if x < lo then lo else if hi < x then hi else x
     let shifted := fun (a sh : Nat) => clamp (-2 ^ (w - 1)) (2 ^ (w - 1) - 1)
       ((sextN a (2 * w) + (if 0 < sh then 2 ^ (sh - 1) else 0)) / 2 ^ sh)
     let b4 := fun e => if f.form = 0 then u.elem (rowField f.b) e w else fld (s.reg f.b).toNat (e % 4 * w) w
     (ready (.vnsra f) s = true →
       VecReady { packed := false, widthOk := w != 64 && vg != 8, rows := [(f.d, vg, true), (f.a, 2 * vg, false)] ++ brow (2 * vg), masks := ms } s rm →
       exec (.vnsra f) s = .next (u.withElements (rowField f.d) vg w (eltsOf f u.cur 0
         (fun e => (lowN (shifted (u.elem (rowField f.a) e (2 * w)) (operandVB f u e (2 * w) % (2 * w))) w, 0))
         (fun e => u.elemPoisoned (rowField f.a) e (2 * w) || bp e (2 * w)))).advance) ∧
     (∀ p ∈ [(Instr.vwadd f, fun (x y : Int) => x + y), (.vwmul f, fun x y => x * y)], ready p.1 s = true →
       VecReady { packed := false, fcOk := fcOf s.cur.vcfg % 32 ≤ 7, widthOk := w != 64 && vg != 8,
                  rows := [(f.d, 2 * vg, true), (f.a, vg, false)] ++ brow vg, masks := ms } s rm →
       exec p.1 s = .next (u.withElements (rowField f.d) (2 * vg) (2 * w) (eltsOf f u.cur 0
         (fun e => (lowN (p.2 (sg (u.elem (rowField f.a) e w) w) (sg (operandVB f u e w) w)) (2 * w), 0))
         (fun e => u.elemPoisoned (rowField f.a) e w || bp e w))).advance) ∧
     (ready (.vdot4 f) s = true →
       VecReady { packed := false, fcOk := fcOf s.cur.vcfg % 32 ≤ 7, widthOk := w = 8 || w = 16, lengthOk := s.cur.vl.toNat % 4 = 0,
                  rows := [(f.d, vg, true), (f.a, vg, false)] ++ brow vg, masks := ms } s rm →
       exec (.vdot4 f) s = .next (u.withElements (rowField f.d) vg (4 * w) ((List.range (s.cur.vl.toNat / 4)).filterMap (fun j =>
         if u.cur.active f.m.toNat (4 * j) w then
           some { e := j,
                  v := lowN ((List.range 4).foldl (fun (t : Int) i => t + sg (u.elem (rowField f.a) (4 * j + i) w) w * sg (b4 (4 * j + i)) w)
                    (u.elem (rowField f.d) j (4 * w) : Int)) (4 * w),
                  pois := u.elemPoisoned (rowField f.d) j (4 * w) || (List.range 4).any (fun i =>
                    u.elemPoisoned (rowField f.a) (4 * j + i) w || bp (4 * j + i) w) : Elt }
         else if f.mz then some { e := j, v := 0 } else none))).advance)) ∧
  (∀ (f : Fields) (s : State) (rm : RoundMode), s.NoTransfers →
     let vg := vgOf s.cur.vcfg
     let ms := [(f.m.toNat, f.m.toNat)]
     let u := s.readMaskRun ms vg
     let fs := f.sub 0 6
     let fd := f.sub 6 6
     let ws := fcWidth fs
     let wd := fcWidth fd
     let nd := if ws < wd then 2 * vg else vg
     let na := if wd < ws then 2 * vg else vg
     let ov := f.sub 15 1 = 1
     let tv : Word := BitVec.ofNat 64 (f.sub 0 16)
     let r := if fd = 11 then 8 else 4
     let scale := if f.b = 0 then Num.fin false 1 0 else valueOf ((s.reg f.b).toNat % 2 ^ 32) 10 32
     let quant := fun v => let p := mulNum (valueOf v 10 32) scale
       ((convert p.1 10 fd wd rm ov).1, p.2 ||| (convert p.1 10 fd wd rm ov).2)
     (ready (.vcvt f) s = true → (fcValid fs && fcValid fd) = true → (wd = ws ∨ wd = 2 * ws ∨ ws = 2 * wd) → ewOf s.cur.vcfg = min ws wd →
       (ws = wd ∨ vg ≠ 8) → VecReady { rows := [(f.d, nd, true), (f.a, na, false)], masks := ms, rm := some (f.sub 12 3) } s rm →
       let es := eltsOf f u.cur (if ws = wd then u.cur.estart.toNat else 0)
         (fun e => convert (valueOf (u.elem (rowField f.a) e ws) fs ws) fs fd wd rm ov) (fun e => u.elemPoisoned (rowField f.a) e ws)
       (trapElt s.cur.frm es = none → exec (.vcvt f) s = .next (u.withElements (rowField f.d) nd wd es).advance) ∧
       (∀ x t, trapElt s.cur.frm es = some (x, t) → (ws = wd → (u.elementsBelow (rowField f.d) nd wd es x.e).recordWait = none) →
         exec (.vcvt f) s = .next (takeTrap (0xD0 + t) (numericTval x.e x.flags) {}
           (if ws = wd then u.elementsBelow (rowField f.d) nd wd es x.e else s)))) ∧
     (ready (.vcvt f) s = true → (fcValid fs && fcValid fd) = false → exec (.vcvt f) s = .next (takeTrap 0xB0 tv {} s)) ∧
     (ready (.vcvtq f) s = true → fcValid fd = true → (fd = 11 ∨ (16 ≤ fd % 32 ∧ fd % 32 ≤ 22)) → ewOf s.cur.vcfg = wd → r * vg ≤ 16 →
       VecReady { rows := [(f.d, vg, true), (f.a, r * vg, false)], masks := ms, rm := some (f.sub 12 3) } s rm →
       let es := eltsOf f u.cur 0 (fun e => quant (u.elem (rowField f.a) e 32)) (fun e => u.elemPoisoned (rowField f.a) e 32)
       (trapElt s.cur.frm es = none → exec (.vcvtq f) s = .next (u.withElements (rowField f.d) vg wd es).advance) ∧
       (∀ x t, trapElt s.cur.frm es = some (x, t) → exec (.vcvtq f) s = .next (takeTrap (0xD0 + t) (numericTval x.e x.flags) {} s))))

/-- The compares complete (R134, R139, R140): each element in range sets its mask bits to the outcome, masked-off ones to 0 under MZ; a poisoned
element gives 0. The integer compares read both operands signed, or unsigned under Z; the floating ones decode both under FC and
raise the flags of R140, and an enabled flag takes class 13 with ESTART at the element after those below it have performed. -/
def Obligations.Compares : Prop :=
  ∀ (f : Fields) (s : State) (rm : RoundMode),
    let vg := vgOf s.cur.vcfg
    let w := ewOf s.cur.vcfg
    let ms := [(f.m.toNat, f.m.toNat)]
    let shape : VecShape := { rows := [(f.a, vg, false)] ++ (if f.form = 0 then [(f.b, vg, false)] else []),
                              masks := (f.d.toNat - 48, f.d.toNat) :: ms }
    let u := s.readMaskRun ms vg
    let a := fun e => u.elem (rowField f.a) e w
    let b := fun e => operandVB f u e w
    let pois := fun e => u.elemPoisoned (rowField f.a) e w || (f.form = 0 && u.elemPoisoned (rowField f.b) e w)
    let k := f.d.toNat - 48
    let fmt := fmtOf s.cur.vcfg
    let written := fun es e => (u.writeMaskElts k w es).setCur (fun c => { c with estart := e })
    (∀ p ∈ [(Instr.vcmpeq f, fun e => decide (a e = b e)), (.vcmpne f, fun e => decide (a e ≠ b e)),
        (.vcmplt f, fun e => decide (sextN (a e) w < sextN (b e) w)), (.vcmple f, fun e => decide (sextN (a e) w ≤ sextN (b e) w)),
        (.vcmpltz f, fun e => decide (a e < b e)), (.vcmplez f, fun e => decide (a e ≤ b e))],
      ready p.1 s = true → VecReady shape s rm →
      exec p.1 s = .next (written (eltsOf f u.cur u.cur.estart.toNat (fun e => (if p.2 e then 1 else 0, 0)) pois) 0).advance) ∧
    (∀ p ∈ [(Instr.vfcmpeq f, 0), (.vfcmplt f, 1), (.vfcmple f, 2)], ready p.1 s = true →
      VecReady { shape with packed := false, fcOk := 8 ≤ fcOf s.cur.vcfg && fcOf s.cur.vcfg ≤ 10 } s rm →
      let es := eltsOf f u.cur u.cur.estart.toNat (fun e =>
        let r := compareNum p.2 (fmt.decode (a e)) (fmt.decode (b e))
        (if r.1 then 1 else 0, r.2)) pois
      (trapElt s.cur.frm es = none → exec p.1 s = .next (written es 0).advance) ∧
      (∀ x t, trapElt s.cur.frm es = some (x, t) →
        let kept := written (es.filter (fun y => y.e < x.e)) (BitVec.ofNat 64 x.e)
        kept.recordWait = none → exec p.1 s = .next (takeTrap (0xD0 + t) (numericTval x.e x.flags) {} kept)))

/-- The element-wise floating instructions complete (R138-R140): with FC f16, b16 or f32, each active element from ESTART takes the operation on
its decoded operands, rounded once; one that raises a flag FRM enables takes class 13 and the flag's number, TVAL holding the element and
its flags, after the elements below it have performed, and ESTART names it (R161). What each operation gives before that rounding is pinned here:
the exact sum and product, the quotient and the roots to 65 bits or more with a sticky bit, 2^x exactly for integers and between its powers of 2
elsewhere, and the special cases of R140: NaNs quiet with invalid for signalling ones, infinities, zeros of either sign, division by zero, the order
of vfmin, vfmax and the compares, and the bit of vfclass.
The model's own choice in it is that of log entry 40 (how 2^x is computed). -/
def Obligations.FloatElements : Prop :=
  (∀ (x y : Machine.Num) (rm : RoundMode),
     let nan := x.isNan = true ∨ y.isNan = true
     let quiet := (Machine.Num.nan false, if x = .nan true ∨ y = .nan true then 16 else 0)
     let invalid := (Machine.Num.nan false, 16)
     let n := x.neg? != y.neg?
     (nan → addNum x y rm = quiet ∧ mulNum x y = quiet ∧ divNum x y = quiet) ∧
     (x.IsFinite → y.IsFinite →
       ((addNum x y rm).2 = 0 ∧ (addNum x y rm).1.IsFinite ∧ (addNum x y rm).1.rat = x.rat + y.rat ∧
         (x.rat + y.rat = 0 → (addNum x y rm).1 = .zero (if x = y then x.neg? else decide (rm = 3)))) ∧
       ((mulNum x y).2 = 0 ∧ (mulNum x y).1.IsFinite ∧ (mulNum x y).1.rat = x.rat * y.rat ∧ (mulNum x y).1.neg? = n) ∧
       (x.rat ≠ 0 → y.rat ≠ 0 → (divNum x y).2 = 0 ∧ (divNum x y).1.neg? = n ∧ (divNum x y).1.StandsFor |x.rat / y.rat|) ∧
       (x.rat ≠ 0 → y.rat = 0 → divNum x y = (.inf n, 8)) ∧ (x.rat = 0 → y.rat ≠ 0 → divNum x y = (.zero n, 0)) ∧
       (x.rat = 0 → y.rat = 0 → divNum x y = invalid) ∧ (x.negate.rat = -x.rat ∧ x.negate.neg? = !x.neg?)) ∧
     (∀ a, x = .inf a →
       (∀ b, y = .inf b → addNum x y rm = (if a = b then (.inf a, 0) else invalid) ∧ mulNum x y = (.inf n, 0) ∧ divNum x y = invalid) ∧
       (y.IsFinite → addNum x y rm = (.inf a, 0) ∧ addNum y x rm = (.inf a, 0) ∧ divNum x y = (.inf n, 0) ∧ divNum y x = (.zero n, 0) ∧
         mulNum x y = (if y.rat = 0 then invalid else (.inf n, 0)) ∧ mulNum y x = (if y.rat = 0 then invalid else (.inf n, 0)))) ∧
     (compareNum 0 x y).2 = (if x = .nan true ∨ y = .nan true then 16 else 0) ∧
     (∀ k ∈ [1, 2], (compareNum k x y).2 = if x.isNan || y.isNan then 16 else 0) ∧
     (nan → ∀ k < 3, (compareNum k x y).1 = false) ∧
     ((x.IsFinite ∨ ∃ a, x = .inf a) → (y.IsFinite ∨ ∃ a, y = .inf a) → ((compareNum 1 x y).1 = true ↔ x.Below y) ∧ ((compareNum 2 x y).1 = true ↔ ¬y.Below x) ∧
       ((compareNum 0 x y).1 = true ↔ ¬x.Below y ∧ ¬y.Below x))) ∧
  ((∀ sig, ∀ op ∈ [sqrtNum, rsqrtNum, exp2Num], op (.nan sig) = (.nan false, if sig then 16 else 0)) ∧
   (∀ op ∈ [sqrtNum, rsqrtNum], op (.inf true) = (.nan false, 16) ∧ ∀ m e, op (.fin true m e) = (.nan false, 16)) ∧
   (∀ neg, sqrtNum (.zero neg) = (.zero neg, 0) ∧ rsqrtNum (.zero neg) = (.inf neg, 8) ∧ exp2Num (.zero neg) = (.fin false 1 0, 0)) ∧
   sqrtNum (.inf false) = (.inf false, 0) ∧ rsqrtNum (.inf false) = (.zero false, 0) ∧ exp2Num (.inf true) = (.zero false, 0) ∧
   exp2Num (.inf false) = (.inf false, 0) ∧
   ∀ (m : Nat) (e : Int), 0 < m →
     ((sqrtNum (.fin false m e)).2 = 0 ∧ (sqrtNum (.fin false m e)).1.StandsForRoot (m * 2 ^ e)) ∧
     ((rsqrtNum (.fin false m e)).2 = 0 ∧ (rsqrtNum (.fin false m e)).1.StandsForRoot (1 / (m * 2 ^ e))) ∧
     ∀ neg, let x := Machine.Num.fin neg m e
       let r := exp2Num x
       r.2 = 0 ∧ r.1.neg? = false ∧ (∀ k : Int, x.rat = k → -4096 < k → k < 4096 → r.1.rat = 2 ^ k) ∧
         ∀ k : Int, k < x.rat → x.rat < k + 1 → -4096 < k → k < 4095 → (2 : ℚ) ^ k < r.1.rat ∧ r.1.rat < 2 ^ (k + 1)) ∧
  (∀ fc ∈ [8, 9, 10], ∀ f, floatFmt fc = some f → ∀ a < 2 ^ f.width, ∀ b < 2 ^ f.width,
     let x := f.decode a
     let y := f.decode b
     let low := a % 2 ^ (f.width - 1)
     let inf := 2 ^ (f.width - 1) - 2 ^ (f.prec - 1)
     let neg := 2 ^ (f.width - 1) ≤ a
     (∀ isMax, (f.minMax isMax a b).2 = if x = .nan true ∨ y = .nan true then 16 else 0) ∧
     (∀ isMax, (x.isNan = true → y.isNan = true → (f.minMax isMax a b).1 = f.nanCode) ∧
       (x.isNan = true → y.isNan = false → (f.minMax isMax a b).1 = b) ∧ (x.isNan = false → y.isNan = true → (f.minMax isMax a b).1 = a)) ∧
     (x.isNan = false → y.isNan = false → x.Below y ∨ (x = .zero true ∧ y = .zero false) →
       (f.minMax false a b).1 = a ∧ (f.minMax true a b).1 = b ∧ (f.minMax false b a).1 = a ∧ (f.minMax true b a).1 = b) ∧
     f.classBit x = if inf < low then (if low < inf + 2 ^ (f.prec - 2) then 8 else 9) else if low = inf then (if neg then 0 else 7)
       else if low = 0 then (if neg then 3 else 4) else if low < 2 ^ (f.prec - 1) then (if neg then 2 else 5) else if neg then 1 else 6) ∧
  (∀ (f : Fields) (s : State) (rm : RoundMode), s.NoTransfers →
    let vg := vgOf s.cur.vcfg
    let w := ewOf s.cur.vcfg
    let ms := [(f.m.toNat, f.m.toNat)]
    let u := s.readMaskRun ms vg
    let fmt := fmtOf s.cur.vcfg
    let a := fun e => u.elem (rowField f.a) e w
    let b := fun e => operandVB f u e w
    let d := fun e => u.elem (rowField f.d) e w
    let na := fun e => fmt.decode (a e)
    let nb := fun e => fmt.decode (b e)
    let nd := fun e => fmt.decode (d e)
    let round := fun (r : Machine.Num × Nat) => ((fmt.round r.1 rm true).1, r.2 ||| (fmt.round r.1 rm true).2)
    let fused := fun (x : Machine.Num × Nat) (minus : Bool) e =>
      let r := addNum (if minus then x.1.negate else x.1) (nd e) rm
      round (r.1, x.2 ||| r.2)
    ∀ p ∈ [(Instr.vfadd f, true, false, false, fun e => round (addNum (na e) (nb e) rm)),
        (.vfsub f, true, false, false, fun e => round (addNum (na e) (nb e).negate rm)),
        (.vfmul f, true, false, false, fun e => round (mulNum (na e) (nb e))),
        (.vfma f, true, true, false, fun e => fused (mulNum (na e) (nb e)) false e),
        (.vfnma f, true, true, false, fun e => fused (mulNum (na e) (nb e)) true e),
        (.vfmin f, false, false, false, fun e => fmt.minMax false (a e) (b e)),
        (.vfmax f, false, false, false, fun e => fmt.minMax true (a e) (b e)),
        (.vfdiv f, true, false, false, fun e => round (divNum (na e) (nb e))), (.vfsqrt f, true, false, true, fun e => round (sqrtNum (na e))),
        (.vfrcp f, true, false, true, fun e => round (divNum (.fin false 1 0) (na e))),
        (.vfrsq f, true, false, true, fun e => round (rsqrtNum (na e))), (.vfexp2 f, true, false, true, fun e => round (exp2Num (na e))),
        (.vfclass f, false, false, true, fun e => (2 ^ fmt.classBit (na e), 0))],
      ready p.1 s = true →
      VecReady { packed := false, fcOk := 8 ≤ fcOf s.cur.vcfg && fcOf s.cur.vcfg ≤ 10,
                 rows := [(f.d, vg, true), (f.a, vg, false)] ++ (if !p.2.2.2.1 && f.form = 0 then [(f.b, vg, false)] else []),
                 masks := ms, rm := if p.2.1 then some (f.sub 0 3) else none } s rm →
      let es := eltsOf f u.cur u.cur.estart.toNat p.2.2.2.2 (fun e => u.elemPoisoned (rowField f.a) e w ||
        (!p.2.2.2.1 && (f.form = 0 && u.elemPoisoned (rowField f.b) e w)) || (p.2.2.1 && u.elemPoisoned (rowField f.d) e w))
      (trapElt s.cur.frm es = none → exec p.1 s = .next (u.withElements (rowField f.d) vg w es).advance) ∧
      (∀ x t, trapElt s.cur.frm es = some (x, t) → (u.elementsBelow (rowField f.d) vg w es x.e).recordWait = none → exec p.1 s =
        .next (takeTrap (0xD0 + t) (numericTval x.e x.flags) {} (u.elementsBelow (rowField f.d) vg w es x.e))))

/-- vmerge, vmov, vext and vins complete (R135): vmerge takes A where the mask bit is 1 and the second operand elsewhere; vmov copies a row, a scalar
or an immediate; vext reads one element into sD, sign-extended under a signed integer FC, and a poisoned one traps class 21, subcode 0; vins
writes the low bits of sA to one element. The permutes complete (R141): vslide reads element e + k where it lies in 0 to VL - 1 and else 0, vrot
element (e + k) mod VL, vperm the element that B names; vcompress packs the active elements downward and fills with 0 under MZ; vexpand spreads
the first elements over the active places; viota counts the bits of kA below each element. -/
def Obligations.ElementMoves : Prop :=
  (∀ (f : Fields) (s : State) (rm : RoundMode), s.NoTransfers →
     let vg := vgOf s.cur.vcfg
     let w := ewOf s.cur.vcfg
     let ms := [(f.m.toNat, f.m.toNat)]
     let u := s.readMaskRun ms vg
     let a := fun e => u.elem (rowField f.a) e w
     let bp := fun e => f.form = 0 && u.elemPoisoned (rowField f.b) e w
     let ap := fun e => u.elemPoisoned (rowField f.a) e w
     let arow := if f.form = 0 then [(f.a, vg, false)] else []
     let brow := if f.form = 0 then [(f.b, vg, false)] else []
     let first := s.cur.estart.toNat
     let i := if f.form = 1 then (s.reg f.b).toNat else f.sub 0 16
     let fc := fcOf s.cur.vcfg % 32
     let x := s.elem (rowField f.a) i w
     (ready (.vmerge f) s = true → VecReady { rows := [(f.d, vg, true), (f.a, vg, false)] ++ brow, masks := ms } s rm →
       exec (.vmerge f) s = .next (u.withElements (rowField f.d) vg w ((List.range (s.cur.vl.toNat - first)).map (fun j =>
         if u.cur.active f.m.toNat (first + j) w then { e := first + j, v := a (first + j), pois := ap (first + j) : Elt }
         else { e := first + j, v := operandVB f u (first + j) w, pois := bp (first + j) }))).advance) ∧
     (ready (.vmov f) s = true → VecReady { rows := [(f.d, vg, true)] ++ arow, masks := ms } s rm →
       exec (.vmov f) s = .next (u.withElements (rowField f.d) vg w (eltsOf f u.cur first
         (fun e => (if f.form = 0 then a e else operandVB f u e w, 0)) (fun e => f.form = 0 && ap e))).advance) ∧
     (ready (.vext f) s = true → VecReady { packed := false, rows := [(f.a, vg, false)], index := some i } s rm →
       (s.elemPoisoned (rowField f.a) i w = false → exec (.vext f) s = .next ((s.setCur (fun c => { c with estart := 0 })).setReg f.d
         (BitVec.ofInt 64 (if fc ≤ 6 ∧ fc % 2 = 0 then sextN x w else (x % 2 ^ w : Nat)))).advance) ∧
       (s.elemPoisoned (rowField f.a) i w = true → exec (.vext f) s = .next (takeTrap 0x150 (BitVec.ofNat 64 i) {} s))) ∧
     (ready (.vins f) s = true → VecReady { packed := false, rows := [(f.d, vg, true)], index := some i } s rm →
       exec (.vins f) s = .next (s.withElements (rowField f.d) vg w [{ e := i, v := (s.reg f.a).toNat % 2 ^ w }]).advance)) ∧
  (∀ (f : Fields) (s : State) (rm : RoundMode), s.NoTransfers →
     let vg := vgOf s.cur.vcfg
     let w := ewOf s.cur.vcfg
     let vl := s.cur.vl.toNat
     let ms := [(f.m.toNat, f.m.toNat)]
     let u := s.readMaskRun ms vg
     let a := fun e => u.elem (rowField f.a) e w
     let ap := fun e => u.elemPoisoned (rowField f.a) e w
     let shape : VecShape := { packed := false, rows := [(f.d, vg, true), (f.a, vg, false)], masks := ms }
     let k : Int := if f.form = 1 then (s.reg f.b).toInt else sextN f.immN 28
     let pick := fun (i : Int) => if 0 ≤ i ∧ i < vl then (a i.toNat, ap i.toNat) else (0, false)
     let on := fun e => u.cur.active f.m.toNat e w
     let rank := fun (e : Nat) => ((List.range e).filter on).length
     let act := (List.range vl).filter on
     let v := s.readMaskRun ((f.a.toNat - 48, f.a.toNat) :: ms) vg
     (∀ p ∈ [(Instr.vslide f, fun (e : Nat) => (e : Int) + k), (.vrot f, fun e => ((e : Int) + k) % vl)],
       ready p.1 s = true → VecReady shape s rm → exec p.1 s = .next (u.withElements (rowField f.d) vg w
         (eltsOf f u.cur 0 (fun e => ((pick (p.2 e)).1, 0)) (fun e => (pick (p.2 e)).2))).advance) ∧
     (ready (.vperm f) s = true → VecReady { shape with rows := [(f.d, vg, true), (f.a, vg, false), (f.b, vg, false)] } s rm →
       exec (.vperm f) s = .next (u.withElements (rowField f.d) vg w (eltsOf f u.cur 0 (fun e => ((pick (u.elem (rowField f.b) e w)).1, 0))
         (fun e => (pick (u.elem (rowField f.b) e w)).2 || u.elemPoisoned (rowField f.b) e w))).advance) ∧
     (ready (.vcompress f) s = true → VecReady shape s rm → exec (.vcompress f) s = .next (u.withElements (rowField f.d) vg w
       ((List.range act.length).map (fun i => { e := i, v := a (act.getD i 0), pois := ap (act.getD i 0) }) ++
         (if f.mz then (List.range (vl - act.length)).map (fun i => { e := act.length + i, v := 0 }) else []))).advance) ∧
     (ready (.vexpand f) s = true → VecReady shape s rm → exec (.vexpand f) s = .next (u.withElements (rowField f.d) vg w
       ((List.range vl).filterMap (fun e => if on e then some { e := e, v := a (rank e), pois := ap (rank e) }
         else if f.mz then some { e := e, v := 0 } else none))).advance) ∧
     (ready (.viota f) s = true →
       VecReady { packed := false, rows := [(f.d, vg, true)], masks := (f.a.toNat - 48, f.a.toNat) :: ms } s rm →
       exec (.viota f) s = .next (v.withElements (rowField f.d) vg w ((List.range vl).filterMap (fun e =>
         if v.cur.active f.m.toNat e w then
           some { e := e, v := ((List.range e).filter (fun j => v.cur.maskBit (f.a.toNat - 48) j w)).length % 2 ^ w }
         else if f.mz then some { e := e, v := 0 } else none))).advance))

/-- The reductions complete (R136, R137): element 0 of D takes the fold of the active elements of A onto element 0 of the second operand: sum,
minimum, maximum, and, or of integers; the sum or maximum over the pairwise tree of floating values, rounded at each node. An enabled
flag takes class 13 with TVAL naming element 0xFFFF_FFFF and nothing is written. -/
def Obligations.Reductions : Prop :=
  ∀ (f : Fields) (s : State) (rm : RoundMode), s.NoTransfers →
    let vg := vgOf s.cur.vcfg
    let w := ewOf s.cur.vcfg
    let ms := [(f.m.toNat, f.m.toNat)]
    let rows := [(f.d, vg, true), (f.a, vg, false)] ++ (if f.form = 0 then [(f.b, vg, false)] else [])
    let u := s.readMaskRun ms vg
    let a := fun e => u.elem (rowField f.a) e w
    let act := (List.range s.cur.vl.toNat).filter (fun e => u.cur.active f.m.toNat e w)
    let b0 := operandVB f u 0 w
    let p0 := f.form = 0 && u.elemPoisoned (rowField f.b) 0 w
    let pois := act.any (fun e => u.elemPoisoned (rowField f.a) e w) || p0
    let int := fun (signed : Bool) (v : Nat) => if signed then sextN v w else (v % 2 ^ w : Nat)
    let sg := decide (fcOf s.cur.vcfg % 2 = 0)
    let fold := fun (signed : Bool) (op : Int → Int → Int) => lowN (act.foldl (fun t e => op t (int signed (a e))) (int signed b0)) w
    let fmt := fmtOf s.cur.vcfg
    let sum := fun x y => fmt.result (addNum (fmt.decode x) (fmt.decode y) rm) rm
    let leaves := (List.range (2 ^ treeLevels s.cur.vl.toNat)).map (fun e => if e < s.cur.vl.toNat && u.cur.active f.m.toNat e w then
      some { code := a e, pois := u.elemPoisoned (rowField f.a) e w : Node } else none)
    (∀ p ∈ [(Instr.vredsum f, true, fold sg (fun x y => x + y)), (.vredmin f, true, fold sg (fun x y => min x y)),
        (.vredmax f, true, fold sg (fun x y => max x y)), (.vredand f, false, fold false (fun x y => ((x.toNat &&& y.toNat : Nat) : Int))),
        (.vredor f, false, fold false (fun x y => ((x.toNat ||| y.toNat : Nat) : Int)))],
      ready p.1 s = true → VecReady { packed := false, fcOk := !p.2.1 || fcOf s.cur.vcfg % 32 ≤ 7, rows := rows, masks := ms } s rm →
      exec p.1 s = .next (u.withElements (rowField f.d) vg w [{ e := 0, v := p.2.2, pois := pois }]).advance) ∧
    (∀ p ∈ [(Instr.vfredsum f, some (f.sub 0 3), sum), (.vfredmax f, none, fun x y => fmt.minMax true x y)], ready p.1 s = true →
      VecReady { packed := false, fcOk := 8 ≤ fcOf s.cur.vcfg && fcOf s.cur.vcfg ≤ 10, rows := rows, masks := ms, rm := p.2.1 } s rm →
      let tree := combineAll p.2.2 (treeLevels s.cur.vl.toNat) leaves
      let x : Elt := match tree.1 with
        | none => if (fmt.decode b0).isNan then { e := 0, v := fmt.nanCode, flags := if p0 then 0 else sigFlag [fmt.decode b0], pois := p0 }
          else { e := 0, v := b0, pois := p0 }
        | some t => { e := 0, v := (p.2.2 b0 t.code).1, flags := if p0 || t.pois then tree.2 else tree.2 ||| (p.2.2 b0 t.code).2, pois := p0 || t.pois }
      match trappingFlag (enabledFlags s.cur.frm) x.flags with
      | some k => exec p.1 s = .next (takeTrap (0xD0 + k) (numericTval 0xFFFF_FFFF x.flags) {} s)
      | none => exec p.1 s = .next (u.withElements (rowField f.d) vg w [x]).advance)

/-- The mask instructions on runs complete (R122, R142): kand, kor, kxor and knot work register by register on the run, k0 reading as ones, and leave
every other mask; kpop counts the governing bits of elements 0 to VL - 1, kfirst gives the first set one, or all ones. ESTART is 0 after each;
scalars but kpop's and kfirst's destination, rows and memory stand. kmov in its four forms completes (R130, R142): between masks, from pm, from a
row, whose bytes other than 0 set their bits and whose poisoned bytes set pm, and to a row, whose bytes become 0xFF or 0 and are sound. Each
writes one register or row, and every byte outside the row stands. -/
def Obligations.MaskInstructions : Prop :=
  (∀ (f : Fields) (s : State) (rm : RoundMode),
     let vg := vgOf s.cur.vcfg
     let kd := f.d.toNat - 48
     let ka := f.a.toNat - 48
     let kb := f.b.toNat - 48
     let fld := fun (v : BitVec 6) => (v.toNat - 48, v.toNat)
     let run := fun (k i : Nat) => if k = 0 then BitVec.allOnes 8192 else s.cur.mask (k + i)
     let bit := fun e => s.cur.maskBit ka e (ewOf s.cur.vcfg)
     (kd + vg ≤ 8 → ∀ p ∈ [(Instr.kand f, [fld f.a, fld f.b], fun i => run ka i &&& run kb i),
         (.kor f, [fld f.a, fld f.b], fun i => run ka i ||| run kb i), (.kxor f, [fld f.a, fld f.b], fun i => run ka i ^^^ run kb i),
         (.knot f, [fld f.a], fun i => ~~~run ka i)],
       ready p.1 s = true → VecReady { masks := fld f.d :: p.2.1 } s rm → ∃ t, exec p.1 s = .next t ∧
         (∀ i < vg, 1 ≤ kd + i → t.cur.mask (kd + i) = p.2.2 i) ∧
         (∀ j, 1 ≤ j → j < 8 → j < kd ∨ kd + vg ≤ j → t.cur.mask j = s.cur.mask j) ∧
         t.cur.estart = 0 ∧ t.cur.regs = s.cur.regs ∧ t.cur.pc = s.cur.pc + 8 ∧ t.mem = s.mem ∧ t.groups = s.groups) ∧
     (∀ p ∈ [(Instr.kpop f, BitVec.ofNat 64 ((List.range s.cur.vl.toNat).filter (fun e => bit e)).length),
         (.kfirst f, match (List.range s.cur.vl.toNat).find? (fun e => bit e) with
           | some e => BitVec.ofNat 64 e
           | none => BitVec.allOnes 64)],
       ready p.1 s = true → VecReady { masks := [fld f.a] } s rm → exec p.1 s =
         .next (((s.readMaskRun [fld f.a] vg).setCur (fun c => { c with estart := 0 })).setReg f.d p.2).advance)) ∧
  (∀ (f : Fields) (s : State), s.NoReplay → s.NoTransfers →
     let kd := f.d.toNat - 48
     let ka := f.a.toNat - 48
     let gd := rowField f.d
     let ga := rowField f.a
     let others := fun (t : State) => ∀ j, 1 ≤ j → j < 8 → j ≠ kd → t.cur.mask j = s.cur.mask j
     let same := fun (t : State) => t.cur.estart = 0 ∧ t.cur.regs = s.cur.regs ∧ t.cur.pc = s.cur.pc + 8
     (1 ≤ kd → kd < 8 → ∀ p ∈ [(Instr.kmov f, s.cur.mask ka), (.kmovPm f, s.cur.poisonMask)], ready p.1 s = true →
       ∃ t, exec p.1 s = .next t ∧ t.cur.mask kd = p.2 ∧ others t ∧ same t ∧ t.mem = s.mem) ∧
     (1 ≤ kd → kd < 8 → ready (.kmovRowToMask f) s = true → s.RowReady ga false → s.SeesMemory → s.MemInv → ∃ t, exec (.kmovRowToMask f) s = .next t ∧
       (∀ b < 8192, (t.cur.mask kd).getLsbD b = (s.byte (s.runAddr ga b) != 0 && !s.elemPoisoned ga b 8) ∧
         t.cur.poisonMask.getLsbD b = (s.cur.poisonMask.getLsbD b || s.elemPoisoned ga b 8)) ∧ others t ∧ same t ∧ t.mem = s.mem) ∧
     (ready (.kmovMaskToRow f) s = true → s.RowReady gd true → s.MemInv → ∃ t, exec (.kmovMaskToRow f) s = .next t ∧
       (∀ b < 8192, t.byte (s.runAddr gd b) = if (s.cur.mask ka).getLsbD b then 0xFF else 0) ∧
       (∀ a, a < s.runAddr gd 0 ∨ s.runAddr gd 0 + 8192 ≤ a → t.byte a = s.byte a) ∧
       (∀ b < 8192, t.elemPoisoned gd b 8 = false) ∧ (t.homeGroup gd).dirty = true ∧ same t ∧ t.cur.masks = s.cur.masks))

/-- vcka, ckchk and pmclr complete (R143-R145): vcka adds the active elements of A, each times its index plus 1 under W, to checksum CKn modulo
2^128; ckchk writes whether two checksums differ, clearing both under CL, and traps class 21, subcode 1 under T where they differ, with nothing
changed while the trap's record has to wait for a row group (R31);
pmclr clears the bits of pm that are set in the run of kA.
The model's own choices in it are those of log entry 15. -/
def Obligations.Integrity : Prop :=
  ∀ (f : Fields) (s : State) (rm : RoundMode),
    let vg := vgOf s.cur.vcfg
    let w := ewOf s.cur.vcfg
    let ms := [(f.m.toNat, f.m.toNat)]
    let u := s.readMaskRun ms vg
    let fc := fcOf s.cur.vcfg % 32
    let n := f.sub 0 2
    let m := f.sub 2 2
    let value := fun v => if fc ≤ 6 ∧ fc % 2 = 0 then sextN v w else (v % 2 ^ w : Nat)
    let weight := fun (e : Nat) => if f.sub 2 1 = 1 then (e : Int) + 1 else 1
    let es := ((List.range (s.cur.vl.toNat - s.cur.estart.toNat)).map (fun i => s.cur.estart.toNat + i)).filter
      (fun e => u.cur.active f.m.toNat e w)
    let sum := es.foldl (fun t e => t + value (u.elem (rowField f.a) e w) * weight e) ((s.cur.ckN n).toNat : Int)
    let cleared := if f.sub 5 1 = 1 then s.setCur (fun c => (c.setCk n 0).setCk m 0) else s
    (ready (.vcka f) s = true → VecReady { rows := [(f.a, vg, false)], masks := ms } s rm → ∃ t, exec (.vcka f) s = .next t ∧
      t.cur.ckN n = BitVec.ofInt 128 sum ∧ (∀ j < 4, j ≠ n → t.cur.ckN j = s.cur.ckN j) ∧ t.cur.estart = 0 ∧ t.cur.regs = s.cur.regs ∧
      t.cur.pc = s.cur.pc + 8 ∧ t.mem = s.mem) ∧
    (ready (.ckchk f) s = true →
      (s.cur.ckN n = s.cur.ckN m → exec (.ckchk f) s = .next ((cleared.setCur (fun c => { c with estart := 0 })).setReg f.d 0).advance) ∧
      (s.cur.ckN n ≠ s.cur.ckN m → f.sub 4 1 = 0 →
        exec (.ckchk f) s = .next ((cleared.setCur (fun c => { c with estart := 0 })).setReg f.d 1).advance) ∧
      (s.cur.ckN n ≠ s.cur.ckN m → f.sub 4 1 = 1 → cleared.recordWait = none →
        exec (.ckchk f) s = .next (takeTrap 0x151 (BitVec.ofNat 64 (f.sub 0 4)) {} cleared)) ∧
      (s.cur.ckN n ≠ s.cur.ckN m → f.sub 4 1 = 1 → s.NoReplay → ∀ pa, cleared.recordWait = some pa →
        exec (.ckchk f) s = .next (s.arrived (cleared.rowJoin pa (hartWaiter s.cur.reqid))))) ∧
    (ready (.pmclr f) s = true → VecReady { masks := [(f.a.toNat - 48, f.a.toNat)] } s rm → ∃ t, exec (.pmclr f) s = .next t ∧
      (∀ b < 8192, t.cur.poisonMask.getLsbD b = (s.cur.poisonMask.getLsbD b && !((List.range vg).any (fun i =>
        if f.a.toNat - 48 = 0 then true else (s.cur.mask (f.a.toNat - 48 + i)).getLsbD b)))) ∧
      t.cur.estart = 0 ∧ t.cur.masks = s.cur.masks ∧ t.cur.regs = s.cur.regs ∧ t.mem = s.mem)

/-! ### The weight array, moves and tags -/

/-- Every matrix instruction checks ownership first (R171): off partition 0 it traps class 12, subcode 0, with PART as TVAL; without MOWN.EN class
12, subcode 1. tcfg, tld, tstat and aclr of a hart that owns the array complete (R173-R177, R190, R192): tcfg carries a valid value to TCFGn,
emptying the tile under OWN 0, and a bad one traps class 12; tld loads the tile from an open row of the hart or from one exposed on its tower,
the weights outside ROWS and COLS zero, the latched fields those of TCFGn, a column poisoned where a granule of it is; aclr clears an
accumulator; tstat reports.
The model's own choices in it are those of log entry 18. -/
def Obligations.ArrayTiles : Prop :=
  (∀ (f : Fields) (s : State), ∀ i ∈ [Instr.tcfg f, .tld f, .tldExposed f, .mvm f, .mvmz f, .mvmw f, .acrd f, .aclr f, .ackx f, .tstat f],
     ready i s = true →
       (s.cur.part ≠ 0 → exec i s = .next (takeTrap 0xC0 (s.crRead 0x22) {} s)) ∧
       (s.cur.part = 0 → s.cur.mownEn = false → exec i s = .next (takeTrap 0xC1 0 {} s))) ∧
  (∀ (f : Fields) (s : State), s.OwnsArray → s.NoReplay → s.MemInv → s.SeesMemory →
     let n := f.d.toNat - 60
     let v := s.reg f.a
     let cfg := (s.cur.tcfgN n).toNat
     let rows := fld cfg 6 8
     let cols := fld cfg 14 7
     let same := fun (t : State) => t.cur.regs = s.cur.regs ∧ t.cur.pc = s.cur.pc + 8 ∧ t.mem = s.mem ∧ t.cur.accs = s.cur.accs ∧
       ∀ j < 4, j ≠ n → t.cur.tile j = s.cur.tile j
     let loaded := fun (t : State) (base : Nat) =>
       let x := t.cur.tile n
       x.loaded = true ∧ x.fc = fld cfg 0 6 ∧ x.rows = rows ∧ x.cols = cols ∧ x.scale = BitVec.ofNat 32 (fld cfg 32 32) ∧
         (∀ i < 8192, x.wt.extractLsb' (8 * i) 8 = if i / 64 < rows ∧ i % 64 < cols then s.byte (base + i) else 0) ∧
         ∀ j < min cols 64, x.pcol.getLsbD j = (List.range rows).any (fun k => s.poison.contains (base / 32 + 2 * k + j / 32))
     let usable := fld cfg 24 2 ≠ 0 ∧ fld cfg 24 2 ≠ 2 ∧ rows ≤ tileRowClamp s.cur.lclass
     (ready (.tcfg f) s = true → tcfgFault s.cur.lclass v = none → ∃ t, exec (.tcfg f) s = .next t ∧ same t ∧
       t.cur.tcfgN n = v &&& 0xFFFF_FFFF_031F_FFFF ∧ t.cur.tile n = if v.extractLsb' 24 2 = 0 then Tile.blank else s.cur.tile n) ∧
     (∀ sub, ready (.tcfg f) s = true → tcfgFault s.cur.lclass v = some sub →
       exec (.tcfg f) s = .next (takeTrap (0xC0 + sub) (tcfgTval sub v) {} s)) ∧
     (ready (.tld f) s = true → usable → s.RowReady (rowField f.a) false → ∃ t, exec (.tld f) s = .next t ∧ same t ∧
       loaded t (s.runAddr (rowField f.a) 0)) ∧
     (∀ v : Word, v &&& 0xFFFF_FFFF_031F_FFFF = 0 → tcfgFault s.cur.lclass v = none) ∧
     (∀ e, ready (.tldExposed f) s = true → usable → s.exposure s.cur.place (f.sub 0 16) = some e → bitAt e.acc 0 = true →
       s.usableAt (groupKey e.rows.tower e.rows.bank e.rows.group) ≤ s.clk → ∃ t, exec (.tldExposed f) s = .next t ∧ same t ∧ loaded t (s.openBase (groupKey e.rows.tower e.rows.bank e.rows.group))) ∧
     (∀ i ∈ [Instr.tld f, .tldExposed f], ready i s = true →
       (fld cfg 24 2 = 0 → exec i s = .next (takeTrap 0xC5 (BitVec.ofNat 64 n) {} s)) ∧
       (fld cfg 24 2 = 2 → exec i s = .next (takeTrap 0xCF (BitVec.ofNat 64 n) {} s))) ∧
     (ready (.aclr f) s = true → exec (.aclr f) s = .next (s.setCur (fun c => c.setAcc (f.d.toNat - 56) Acc.blank)).advance) ∧
     (ready (.tstat f) s = true → ∃ r, exec (.tstat f) s = .next (s.setReg f.d r).advance ∧
       (60 ≤ f.a.toNat → let x := s.cur.tile (f.a.toNat - 60)
         x.fc < 64 → x.rows < 256 → x.cols < 128 → r.extractLsb' 32 32 = x.scale ∧ r.getLsbD 26 = x.loaded ∧ r.getLsbD 27 = (x.pcol != 0)) ∧
       (f.a.toNat < 60 → let x := s.cur.acc (f.a.toNat - 56)
         r.getLsbD 0 = x.empty ∧ r.getLsbD 1 = x.sat ∧ r.getLsbD 2 = x.elems.toList.any (fun e => e.kind != .finite) ∧
         r.getLsbD 3 = x.elems.toList.any (fun e => e.poison))))

/-- mvm, mvmz and mvmw complete (R180-R187): with the tile loaded, the pair of formats accepted and the scale that of the accumulator, the
accumulator named takes the sums of the segment of the row, or of the window that the shape record describes; mvmz starts from a cleared one. A
NaN that a product or a sum makes raises NV, or traps class 13 where FRM enables it, with the lowest such column. acrd and ackx complete
(R188-R191): acrd rounds each of the 64 elements once into the destination format and writes them from its offset, a clamped bound raising OF and
NX, an enabled flag taking class 13 with nothing written; ackx adds the finite integers to a checksum and traps class 12, subcode 12, at the
first element that is not finite. The factors a code gives are its value in units of 2^q (R167); the shape record is accepted exactly where R185 and
R186 accept it; element k of a window's segment is the input element that R187 computes, the pad, or an exact zero, and only input elements poison it;
what acrd rounds is V x 2^Q x S (R189).
The model's own choices in it are those of log entry 18. -/
def Obligations.ArrayMultiply : Prop :=
  (∀ fc code, tileFormat fc = true → code < 2 ^ fcWidth fc →
     let x := valueOf code fc (fcWidth fc)
     let y := factorOf code fc
     (x.isNan = true → y.kind = .nan) ∧ (∀ neg, x = .inf neg → y.kind = if neg then .negInf else .posInf) ∧
     (x.IsFinite → y.kind = .finite ∧ (y.v : ℚ) * 2 ^ arrayQ fc = x.rat)) ∧
  (∀ (r : List Byte) (w g n : Nat) (s : State),
     let h := recNum r 0 2
     let wid := recNum r 2 2
     let ch := recNum r 4 2
     let kh := recNum r 6 1
     let kw := recNum r 7 1
     let fca := recNum r 17 1
     let oh : Int := ((h : Int) + recNum r 12 1 + recNum r 13 1 - recNum r 10 1 * ((kh : Int) - 1) - 1) / recNum r 8 1 + 1
     let ow : Int := ((wid : Int) + recNum r 14 1 + recNum r 15 1 - recNum r 11 1 * ((kw : Int) - 1) - 1) / recNum r 9 1 + 1
     let seg := windowSegment r w g s n
     let inside := fun (k : Nat) =>
       let j := recNum r 20 4 + k
       let q := j / ch
       let y : Int := (w / ow.toNat * recNum r 8 1 : Nat) - (recNum r 12 1 : Int) + (q / kw * recNum r 10 1 : Nat)
       let x : Int := (w % ow.toNat * recNum r 9 1 : Nat) - (recNum r 14 1 : Int) + (q % kw * recNum r 11 1 : Nat)
       (j < kh * kw * ch, 0 ≤ y ∧ y < h ∧ 0 ≤ x ∧ x < wid, (y.toNat * wid + x.toNat) * ch + j % ch)
     shapeOH r = oh ∧ shapeOW r = ow ∧
     (shapeFault r = none ↔ (∀ o ∈ [0, 2, 4], recNum r o 2 ≠ 0) ∧ (∀ o ∈ [6, 7, 8, 9, 10, 11], recNum r o 1 ≠ 0) ∧
       (fca % 64 = 11 → recNum r 16 1 < 16) ∧ tileFormat fca = true ∧ recNum r 19 1 = 0 ∧ recNum r 20 4 < kh * kw * ch ∧
       (∀ o, 24 ≤ o → o < 64 → recNum r o 1 = 0) ∧ 1 ≤ oh ∧ 1 ≤ ow) ∧
     seg.1.length = n ∧
     (∀ k < n, (¬(inside k).1 → seg.1[k]? = some { kind := .finite, v := 0 }) ∧
       ((inside k).1 → (inside k).2.1 → seg.1[k]? = some (factorOf (s.elem g (inside k).2.2 (fcWidth fca)) fca)) ∧
       ((inside k).1 → ¬(inside k).2.1 → seg.1[k]? = some (factorOf (recNum r 16 1) fca))) ∧
     (seg.2 = true ↔ ∃ k < n, (inside k).1 ∧ (inside k).2.1 ∧ s.elemPoisoned g (inside k).2.2 (fcWidth fca) = true)) ∧
  (∀ (a : Acc) (el : AccElem) (fd wd : Nat) (rm : RoundMode) (ov : Bool),
     let r := readElement a el fd wd rm ov
     let scale := valueOf a.ts.toNat 10 32
     let flags := fun (x : Nat) => if el.poison then 0
       else if el.kind = .finite ∧ a.sat = true ∧ (el.v = -2 ^ 95 ∨ el.v = 2 ^ 95 - 1) then x ||| 4 ||| 1 else x
     let gives := fun (x : Machine.Num) => r = ((convert x 10 fd wd rm ov).1, flags (convert x 10 fd wd rm ov).2)
     (el.kind = .nan → gives (.nan false)) ∧ (el.kind = .posInf → gives (.inf false)) ∧ (el.kind = .negInf → gives (.inf true)) ∧
     (el.kind = .finite → a.empty = true ∨ el.v = 0 → gives (.zero (decide (rm = 3)))) ∧
     (el.kind = .finite → a.empty = false → el.v ≠ 0 → scale.IsFinite → ∃ x : Machine.Num, x.IsFinite ∧ x.rat = el.v * 2 ^ a.q * (scale.rat * 2 ^ a.sx) ∧
       gives x)) ∧
  (∀ (f : Fields) (s : State), s.OwnsArray → s.NoReplay →
     let n := f.d.toNat - 56
     let multiplied := fun (i : Instr) (s : State) (s1 : State) (a : Acc) (fca : Nat) (sx : Int) (seg : List Factor × Bool) =>
       let x := s1.cur.tile (f.b.toNat - 60)
       let r := a.multiply x seg.1 seg.2 fca sx
       x.loaded = true → formatsFit x.fc fca = true → a.matchesScale (arrayQ x.fc + arrayQ fca) x.scale sx = true →
         (r.2 = none → exec i s = .next (s1.setCur (fun c => c.setAcc n r.1)).advance) ∧
         (∀ col, r.2 = some col → (s1.cur.frm.getLsbD 12 = false → exec i s =
             .next (s1.setCur (fun c => { c.setAcc n r.1 with fflags := c.fflags ||| 16 })).advance) ∧
           (s1.cur.frm.getLsbD 12 = true → exec i s = .next (takeTrap 0xD4 (numericTval col 16) {} s)))
     (∀ p ∈ [(Instr.mvm f, s.cur.acc n), (.mvmz f, Acc.blank)], ready p.1 s = true →
       let fca := f.sub 0 6
       let off := f.sub 6 14
       let w := fcWidth fca
       let g := rowField f.a
       let kt := (s.cur.tile (f.b.toNat - 60)).inputs
       tileFormat fca = true → off + kt ≤ 65536 / w → (fca = 11 → off % 2 = 0) → s.RowReady g false →
       multiplied p.1 s s p.2 fca (sextN (f.sub 20 8) 8)
         ((List.range kt).map (fun i => factorOf (s.elem g (off + i) w) fca), (List.range kt).any (fun i => s.elemPoisoned g (off + i) w))) ∧
     (∀ t u leaf, ready (.mvmw f) s = true →
       let va := s.reg (BitVec.ofNat 6 (f.sub 5 5))
       let w := s.reg (BitVec.ofNat 6 (f.sub 0 5))
       va.toNat % 64 = 0 → PlainAccess s va 64 .read leaf t u → poisoned u.poison leaf.pa 64 = false → u.Settled leaf →
       let v := u.afterRead leaf
       let rec_ := leBytes (u.num leaf.pa 64) 64
       let g := rowField f.a
       let groups := ceilDiv (shapeBytes rec_) 8192
       shapeFault rec_ = none → g + groups ≤ 16 → w.toNat < (shapeOH rec_ * shapeOW rec_).toNat → v.NoReplay →
       (∀ i < groups, v.RowReady (g + i) false) →
       let kt := (v.cur.tile (f.b.toNat - 60)).inputs
       multiplied (.mvmw f) s v (v.cur.acc n) (recNum rec_ 17 1) (sextN (recNum rec_ 18 1) 8) (windowSegment rec_ w.toNat g v kt))) ∧
  (∀ (f : Fields) (s : State) (rm : RoundMode), s.OwnsArray → s.NoReplay → s.NoTransfers →
     let a := s.cur.acc (f.a.toNat - 56)
     let fd := f.sub 0 6
     let wd := fcWidth fd
     let off := f.sub 10 14
     let read := fun n => readElement a (a.elems.toArray.getD n default) fd wd rm (f.sub 9 1 = 1)
     let es := (List.range 64).map (fun n =>
       ({ e := n, v := (read n).1, flags := (read n).2, pois := (a.elems.toArray.getD n default).poison } : Elt))
     (ready (.acrd f) s = true → fcValid fd = true → off + 64 ≤ 65536 / wd → (wd = 4 → off % 2 = 0) → s.RowReady (rowField f.d) true →
       roundingMode (f.sub 6 3) s.cur.frm = some rm →
       (trapElt s.cur.frm es = none → exec (.acrd f) s =
         .next (s.withElements (rowField f.d) 1 wd (es.map (fun x => { x with e := off + x.e }))).advance) ∧
       (∀ x k, trapElt s.cur.frm es = some (x, k) → exec (.acrd f) s = .next (takeTrap (0xD0 + k) (numericTval x.e x.flags) {} s))) ∧
     (ready (.ackx f) s = true → (∀ n : Fin 64, a.elems[n].kind = .finite) → ∃ t, exec (.ackx f) s = .next t ∧
       t.cur.ckN (f.sub 0 2) = BitVec.ofInt 128 (((s.cur.ckN (f.sub 0 2)).toNat : Int) +
         (a.elems.toList.zipIdx.map (fun p => p.1.v * (if f.sub 2 1 = 1 then (p.2 : Int) + 1 else 1))).foldl (· + ·) 0) ∧
       (∀ j < 4, j ≠ f.sub 0 2 → t.cur.ckN j = s.cur.ckN j) ∧ t.cur.regs = s.cur.regs ∧ t.cur.accs = s.cur.accs ∧
       t.cur.pc = s.cur.pc + 8 ∧ t.mem = s.mem) ∧
     (∀ n : Fin 64, ready (.ackx f) s = true → a.elems[n].kind ≠ .finite → (∀ m : Fin 64, m < n → a.elems[m].kind = .finite) →
       exec (.ackx f) s = .next (takeTrap 0xCC (BitVec.ofNat 64 n) {} s)))

/-- The sums of a multiply (R179, R182): a column below COLS whose element, weights and inputs are finite takes the exact sum of its products
added to V, clamped to the 96 bits; a column at or above COLS keeps its element; an element is poisoned from then on where it, an
input byte or its column is; an empty accumulator takes the unit and the scale of the multiply. -/
def Obligations.ArraySums : Prop :=
  ∀ (a : Acc) (x : Tile) (xs : List Factor) (bad : Bool) (fca : Nat) (sx : Int),
    let r := (a.multiply x xs bad fca sx).1
    r.empty = false ∧ (a.empty = true → r.q = arrayQ x.fc + arrayQ fca ∧ r.ts = x.scale ∧ r.sx = sx) ∧
    (a.empty = false → r.q = a.q ∧ r.ts = a.ts ∧ r.sx = a.sx) ∧
    ∀ n : Fin 64, r.elems[n].poison = (a.elems[n].poison || bad || x.pcol.getLsbD n) ∧
      (x.cols ≤ n → r.elems[n].v = a.elems[n].v ∧ r.elems[n].kind = a.elems[n].kind) ∧
      (n < x.cols → a.elems[n].kind = .finite →
        (∀ p ∈ xs.zipIdx, p.1.kind = .finite ∧ (x.weight p.2 n).kind = .finite) →
        r.elems[n].kind = .finite ∧ r.elems[n].v = max (-(2 ^ 95)) (min (2 ^ 95 - 1)
          (a.elems[n].v + (xs.zipIdx.map (fun p => (x.weight p.2 n).v * p.1.v)).foldl (· + ·) 0)))

/-- The Traverse and the transpose tile (R203-R206, R208, R209): xexp exposes a run of open rows under an unused tag; xhide ends the exposure of its
owner; xput and xget of a free tag against a tower of the stack are accepted: the tag is busy, its CTB bit 0, the move named with the
hart's own run; xtrw takes the tile with half a row; xtrc writes the tile by columns into half a row and may release it; without the
tile it traps class 14, subcode 13.
The model's own choices in it are those of log entries 16 and 21. -/
def Obligations.TraverseMoves : Prop :=
  ∀ (f : Fields) (s : State), s.NoReplay → s.NoTransfers → s.cur.transfers = [] →
    let vg := vgOf s.cur.vcfg
    let etag := f.sub 0 16
    let tag := f.sub 16 6
    let target := (s.reg f.b).toNat
    let place := s.cur.place
    let run := fun (v : BitVec 6) => ({ tower := place, bank := s.cur.home, group := rowField v, len := vg } : RowRun)
    let usable := fun (v : BitVec 6) => rowField v % vg = 0 ∧ vg ≤ vgMax s.cur.lclass ∧ ∀ i < vg, s.RowReady (rowField v + i) false
    let writable := fun (v : BitVec 6) => ∀ i < vg, (s.homeGroup (rowField v + i)).writable = true ∧ (s.homeGroup (rowField v + i)).dset = true
    let moving := fun (put : Bool) (v : BitVec 6) => (s.setCur (fun c => { c with
      ctb := c.ctb &&& ~~~(1#64 <<< tag)
      ctbDone := c.ctbDone &&& (c.ctb &&& ~~~(1#64 <<< tag))
      pubs := (c.pubs.map (fun e => if e.2 % 128 = tag then (e.1, e.2 - tag + 65) else e)).eraseDups
      transfers := c.transfers ++ [{ tag := tag, work := .traverse put (run v) target etag, scope := f.sub 22 3, ptroot := c.ptroot, serial := 0,
                                     chunks := 0, done := [], failed := false, expinc := none, flights := [], failing := none }] })).advance
    let tw := s.tower place
    let half := 4096 * f.sub 0 1
    let w := 2 ^ f.sub 1 2
    let cells : List Elt := (List.range 64).flatMap (fun i => (List.range (64 / w)).map (fun j =>
      { e := 4096 * f.sub 0 1 / w + j * 64 + i, v := leValue ((tw.tpData.drop (64 * i + j * w)).take w),
        pois := tw.tpPoison.any (fun q => 64 * i + j * w ≤ q && q < 64 * i + j * w + w) }))
    let written := s.withElements (rowField f.d) 1 (8 * w) cells
    (ready (.xexp f) s = true → usable f.a → (f.sub 17 1 = 1 → writable f.a) → s.exposure place etag = none →
      exec (.xexp f) s = .next (s.setTower place (fun x => { x with
        exposures := x.exposures ++ [{ etag := etag, owner := s.cur.reqid, acc := f.sub 16 2, rows := run f.a }] })).advance) ∧
    (∀ e, ready (.xhide f) s = true → s.exposure place etag = some e → e.owner = s.cur.reqid →
      exec (.xhide f) s = .next (s.setTower place (fun x => { x with exposures := x.exposures.filter (fun e => e.etag != etag) })).advance) ∧
    (ready (.xhide f) s = true → (∀ e, s.exposure place etag = some e → e.owner ≠ s.cur.reqid) →
      exec (.xhide f) s = .next (takeTrap 0xEC (BitVec.ofNat 64 etag) {} s)) ∧
    (ready (.xput f) s = true → target < 512 → target / 64 = place / 64 → usable f.a →
      exec (.xput f) s = .next (moving true f.a)) ∧
    (ready (.xget f) s = true → target < 512 → target / 64 = place / 64 → usable f.d → writable f.d →
      exec (.xget f) s = .next (moving false f.d)) ∧
    (∀ i ∈ [Instr.xput f, .xget f], ready i s = true → 512 ≤ target ∨ target / 64 ≠ place / 64 →
      exec i s = .next (takeTrap 0xE5 (s.reg f.b) {} s)) ∧
    (ready (.xtrw f) s = true → s.RowReady (rowField f.a) false → s.SeesMemory → tw.tpHolder = none ∨ tw.tpHolder = some s.cur.reqid → ∃ t,
      exec (.xtrw f) s = .next t ∧ (t.tower place).tpHolder = some s.cur.reqid ∧
      (t.tower place).tpData = s.bytes (s.runAddr (rowField f.a) half) 4096 ∧ t.cur = { s.cur with estart := 0, pc := s.cur.pc + 8 } ∧
      t.mem = s.mem) ∧
    (ready (.xtrc f) s = true → s.RowReady (rowField f.d) true → tw.tpHolder = some s.cur.reqid → exec (.xtrc f) s =
      .next (if f.sub 3 1 = 1 then written.setTower place (fun x => { x with tpHolder := none, tpPoison := [] }) else written).advance) ∧
    (ready (.xtrc f) s = true → s.RowReady (rowField f.d) true → tw.tpHolder ≠ some s.cur.reqid →
      exec (.xtrc f) s = .next (takeTrap 0xED 0 {} s))

/-- ctwait and ctfind (R200, R201): a mask of 0 answers 0 at once; a mask without a live tag traps class 14, subcode 14; with what it asks for
complete ctwait writes the bits set, and under its CLEAR bit clears them; else the hart waits. ctfind answers the lowest complete tag of its
mask, or 64. copy within the device is accepted (R210-R216, R344): its two descriptors read, destination first, and found valid, of one element
size and count, within the chunk clamp, in bounds and without an overlap that no order resolves; the tag becomes busy with its CTB bit 0, and the
chunk mask's low bits are cleared. A busy tag traps class 14, subcode 0; a bad descriptor subcode 1, with its byte.
The model's own choices in it are those of log entry 19. -/
def Obligations.Copies : Prop :=
  (∀ (f : Fields) (s : State),
     let m := s.reg f.a
     let all := f.sub 0 1 = 1
     let clear := f.sub 1 1 = 1
     let live := fun i => s.cur.busyTag i || s.cur.ctb.getLsbD i
     let tags := (List.range 64).filter (fun i => m.getLsbD i)
     let some_ := if all then tags.all live else tags.any live
     let got := s.cur.ctb &&& m
     let acquired := ((List.range 64).filter (fun i => got.getLsbD i)).foldl (fun s i => State.acquireTag s i) s
     (ready (.ctwait f) s = true → m = 0 → exec (.ctwait f) s = .next (s.setReg f.d 0).advance) ∧
     (ready (.ctwait f) s = true → m ≠ 0 → some_ = false → exec (.ctwait f) s = .next (takeTrap 0xEE m {} s)) ∧
     (ready (.ctwait f) s = true → m ≠ 0 → some_ = true → (if all then got = m else got ≠ 0) → exec (.ctwait f) s = .next ((acquired.setCur (fun c =>
       let v := if clear then c.ctb &&& ~~~got else c.ctb
       { c with blocked := false, ctb := v, ctbDone := c.ctbDone &&& v })).setReg f.d got).advance) ∧
     (ready (.ctwait f) s = true → m ≠ 0 → some_ = true → ¬(if all then got = m else got ≠ 0) →
       exec (.ctwait f) s = .next (s.setCur (fun c => { c with blocked := true }))) ∧
     (ready (.ctfind f) s = true → got = 0 → exec (.ctfind f) s = .next (s.setReg f.d 64).advance) ∧
     (∀ i < 64, ready (.ctfind f) s = true → got.getLsbD i = true → (∀ j < i, got.getLsbD j = false) → exec (.ctfind f) s =
       .next (((s.acquireTag i).setCur (fun c =>
         let v := if clear then c.ctb &&& ~~~(1#64 <<< i) else c.ctb
         { c with ctb := v, ctbDone := c.ctbDone &&& v })).setReg f.d (BitVec.ofNat 64 i)).advance)) ∧
  (∀ (f : Fields) (s u v : State) (src dst : List Byte),
     let tag := f.sub 0 6
     let n := chunkCount src
     let k := f.sub 10 3
     let masked := f.sub 9 1 = 1
     s.ReadsRecord (s.reg f.d) dst u → u.ReadsRecord (s.reg f.a) src v → ready (.copy f) s = true → s.reg f.b = 0 →
     v.NoReplay → v.cur.run = .running →
     (v.cur.busyTag tag = false → descFault dst = none → descFault src = none → dEsize src = dEsize dst → dCount src = dCount dst →
       (∀ c, chunkClamp v.cur.lclass = some c → n ≤ c) → (masked → n ≤ 8192) → boundsFault src = none → boundsFault dst = none →
       overlapFault src dst true = false → (v.cur.kind ≠ .tower ∨ v.outstanding v.cur.place < 2048) →
       exec (.copy f) s = .next (v.setCur (fun c => { c with
         masks := if masked then (c.setMask k ((c.mask k >>> n) <<< n)).masks else c.masks
         unfenced := []
         ctb := c.ctb &&& ~~~(1#64 <<< tag)
         ctbDone := c.ctbDone &&& (c.ctb &&& ~~~(1#64 <<< tag))
         pubs := ((if masked then (c.pubs.map (fun e =>
             if e.2 / 2 ^ 40 = k ∧ e.2 / 128 % 2 ^ 33 < n then (e.1, e.2 % 128) else e)).eraseDups else c.pubs).map (fun e =>
           if e.2 % 128 = tag then (e.1, e.2 - tag + 65) else e)).eraseDups
         transfers := c.transfers ++ [{ tag := tag, work := .copy src dst 0 0 (if masked then some k else none), scope := f.sub 6 3,
                                        ptroot := c.ptroot, serial := 0, chunks := n, done := [], failed := false, expinc := none,
                                        flights := [], failing := none }] })).advance) ∧
     (v.cur.busyTag tag = true → exec (.copy f) s = .next (takeTrap 0xE0 (BitVec.ofNat 64 tag) {} s)) ∧
     (∀ o, v.cur.busyTag tag = false → descFault dst = some o → exec (.copy f) s = .next (takeTrap 0xE1 (BitVec.ofNat 64 (64 + o)) {} s)) ∧
     (∀ o, v.cur.busyTag tag = false → descFault dst = none → descFault src = some o →
       exec (.copy f) s = .next (takeTrap 0xE1 (BitVec.ofNat 64 o) {} s)))

/-- vgld and vgst complete (R217, R218): each active element from ESTART is loaded from, or stored to, its own address sB plus the sign-extended offset that
the run of A holds, in ascending order; masked-off elements of vgld take 0 under MZ; VL stands and ESTART is 0. A fault at the lowest
active element is taken.
The model's own choices in it are those of log entry 27. -/
def Obligations.GatherScatter : Prop :=
  ∀ (f : Fields) (s t : State) (rm : RoundMode),
    let vg := vgOf s.cur.vcfg
    let w := ewOf s.cur.vcfg
    let ow := 32 * 2 ^ f.sub 0 1
    let r := max 1 (vg * ow / w)
    let ms := [(f.m.toNat, f.m.toNat)]
    let u := s.readMaskRun ms vg
    let shape := fun (load : Bool) => ({ packed := false, rows := [(f.d, vg, load), (f.a, r, false)], masks := ms } : VecShape)
    let act := ((List.range (s.cur.vl.toNat - s.cur.estart.toNat)).map (fun i => s.cur.estart.toNat + i)).filter
      (fun e => u.cur.active f.m.toNat e w)
    let va := fun e => s.reg f.b + BitVec.ofInt 64 (sextN (u.elem (rowField f.a) e ow) ow)
    let op := fun e => u.elemPoisoned (rowField f.a) e ow
    let dp := fun e => u.elemPoisoned (rowField f.d) e w
    (∀ vs, ready (.vgld f) s = true → VecReady (shape true) s rm → rowField f.a + r ≤ 16 → GathersAll (w / 8) u (act.map va) vs t →
      t.NoTransfers → (∀ i < vg, (t.homeGroup (rowField f.d + i)).dset = true) → exec (.vgld f) s =
        .next (t.withElements (rowField f.d) vg w ((List.range (s.cur.vl.toNat - s.cur.estart.toNat)).filterMap (fun i =>
          let e := s.cur.estart.toNat + i
          match (act.zip vs).find? (fun p => p.1 == e) with
          | some p => some { e := e, v := p.2.1, pois := p.2.2 || op e }
          | none => if f.mz then some { e := e, v := 0 } else none))).advance) ∧
    (∀ pas, ready (.vgst f) s = true → VecReady (shape false) s rm → rowField f.a + r ≤ 16 →
      ScattersAll (w / 8) u (act.map (fun e => (va e, u.elem (rowField f.d) e w))) pas t →
      exec (.vgst f) s = .next ((t.spreadPoison ((act.zip pas).map (fun p => (p.2, List.replicate (w / 8) (dp p.1 || op p.1))))).setCur (fun c =>
        (act.filter (fun e => dp e || op e)).foldl (fun c e => Ctx.countPoison c e w) { c with estart := 0 })).advance) ∧
    (∀ e rest, act = e :: rest → (va e).toNat % (w / 8) ≠ 0 → rowField f.a + r ≤ 16 →
      (ready (.vgld f) s = true → VecReady (shape true) s rm → exec (.vgld f) s = .next (takeTrap 0x37 (va e) {} s)) ∧
      (ready (.vgst f) s = true → VecReady (shape false) s rm → exec (.vgst f) s = .next (takeTrap 0x37 (va e) {} s)))

/-- radd, rswap, rcas, rmax, rpush, rget and rput are accepted (R263, R265, R269-R271, R273): at an aligned address of a device that can be reached, with a
free tag, the operation takes the serial SNEXT and its tag, and its request leaves at once, over a link or back to this device, with the serial,
the floor, the 57-bit address and the operands, for rget and rput and for an owner whose incarnation is recorded; otherwise a probe leaves, unless one is under way. Scalars and memory
stand until the answer. A misaligned address traps class 3, subcode 4, a device out of reach class 17, subcode 0.
The model's own choices in it are those of log entries 10 and 20. -/
def Obligations.RemoteAccepted : Prop :=
  ∀ (f : Fields) (s : State), s.NoReplay → s.cur.run = .running →
    let a := s.reg f.a
    let e := s.reg (BitVec.ofNat 6 (f.sub 0 5))
    let owner := (e.toNat % 2 ^ 13)
    let n := 2 ^ f.sub 11 2
    let tag := f.sub 5 6
    let sent := fun (t : State) (q : Packet) =>
      if owner = s.devId then t.efpo.loop = s.efpo.loop ++ [q] ∧ t.efpo.out = s.efpo.out
      else t.efpo.out = s.efpo.out ++ [q] ∧ t.efpo.loop = s.efpo.loop
    ∀ p ∈ [(Instr.radd f, 0), (.rswap f, 1), (.rcas f, 2), (.rmax f, 3), (.rpush f, 4), (.rget f, 5), (.rput f, 6)],
      ready p.1 s = true →
      (a.toNat % n ≠ 0 → exec p.1 s = .next (takeTrap 0x34 a {} s)) ∧
      (a.toNat % n = 0 → 2 ^ 13 ≤ e.toNat ∨ s.routed owner = false → exec p.1 s = .next (takeTrap 0x110 e {} s)) ∧
      (a.toNat % n = 0 → e.toNat < 2 ^ 13 → s.routed owner = true → s.cur.busyTag tag = true →
        exec p.1 s = .next (takeTrap 0xE0 (BitVec.ofNat 64 tag) {} s)) ∧
      (a.toNat % n = 0 → e.toNat < 2 ^ 13 → s.routed owner = true → s.cur.busyTag tag = false →
        (s.cur.kind ≠ .tower ∨ s.outstanding s.cur.place < 2048) → ∃ t, exec p.1 s = .next t ∧
        t.cur.busyTag tag = true ∧ t.cur.ctb = s.cur.ctb &&& ~~~(1#64 <<< tag) ∧ t.cur.snext = s.cur.snext + 1 ∧ t.cur.regs = s.cur.regs ∧
        t.cur.pc = s.cur.pc + 8 ∧ t.mem = s.mem ∧ t.others = s.others ∧
        (p.2 = 5 ∨ p.2 = 6 ∨ (s.hub.incarnations.find owner).isSome = true → ∃ q, sent t (.request owner q) ∧
          q.src = s.devId ∧ q.kind = p.2 ∧ q.sz = f.sub 11 2 ∧ q.u = decide (f.sub 13 1 = 1) ∧ q.reqid = s.cur.reqid ∧ q.reply = s.cur.reply ∧
          q.serial = s.cur.snext ∧ q.floor = t.cur.sfloor ∧ q.sent = BitVec.ofNat 64 (s.clk / 1000) ∧ q.job = jobOf s.cur.launch ∧
          q.addr = a.extractLsb' 0 57 ∧ q.opnd = (if p.2 = 5 then 0 else s.reg f.b) ∧ q.exp = (if p.2 = 2 then s.reg f.d else 0) ∧
          q.expinc = (s.hub.incarnations.find owner).getD 0) ∧
        (p.2 ≤ 4 → s.hub.incarnations.find owner = none → s.hub.probes.any (fun x => x.1 == owner) = false →
          ∃ q, sent t (.probe owner q) ∧ q.reqid = s.cur.reqid) ∧
        (p.2 ≤ 4 → s.hub.incarnations.find owner = none → s.hub.probes.any (fun x => x.1 == owner) = true →
          t.efpo.out = s.efpo.out ∧ t.efpo.loop = s.efpo.loop))

/-! ### Ordering, atomic accesses and versions -/

/-- The fences, and rsync with nothing outstanding, complete (R232, R238, R244, R275): fence.full and fence.rel release at their scope, which publishes
the hart's lines at .d and .y; they and fence.sv make every store of the hart visible to its vector queue (R72); the others change nothing but
the PC in a model whose other accesses are already ordered (log entry 1); rsync with no operation outstanding and an empty beacon set acquires
every completed remote operation and ends its drain, and with an operation outstanding waits.
The model's own choices in it are those of log entries 1, 20 and 28. -/
def Obligations.FencesAndRsync : Prop :=
  ∀ (f : Fields) (s : State),
    let scope := f.sub 3 3
    let performed : State := { s with cur := { s.cur with unfenced := [] } }
    let published := if 3 ≤ scope then performed.publish s.cur.reqid (fun e => e.2 == 64) else performed
    let remote := s.cur.transfers.any (fun t => !t.failed && (match t.work with
      | .remote _ _ _ _ _ _ _ _ => true
      | _ => false))
    (∀ i ∈ [Instr.fenceFull f, .fenceRel f], ready i s = true → exec i s = .next published.advance) ∧
    (ready (.fenceSv f) s = true → exec (.fenceSv f) s = .next performed.advance) ∧
    (∀ i ∈ [Instr.fenceAcq f, .fenceVs f, .fenceRow f], ready i s = true → exec i s = .next s.advance) ∧
    (ready (.rsync f) s = true → remote = false → s.cur.beacons = [] → exec (.rsync f) s = .next (s.setCur (fun c => { c with
      pubs := (c.pubs.map (fun e => if e.2 / 2 ^ 50 = 1 ∧ c.busyTag (e.2 % 128) = false then (e.1, 64) else e)).eraseDups
      blocked := false
      drain := [] })).advance) ∧
    (ready (.rsync f) s = true → remote = true → exec (.rsync f) s = .next (s.setCur (fun c => { c with blocked := true })))

/-- amo on DRAM completes (R259-R262): sD takes the old value, zero-extended, and memory the operation of R260 on it and the low bits of sB:
swap, add, and, or, xor, signed maximum and minimum, unsigned maximum and minimum, or sB where the old value is that of sD; every other
byte stands. A misaligned address traps class 3, subcode 3; device memory class 17, subcode 6; a poisoned granule class 21, subcode 0.
The model's own choices in it are those of log entry 1. -/
def Obligations.Atomics : Prop :=
  ∀ (f : Fields) (s t u : State) (leaf : Leaf),
    let n := 2 ^ f.sub 21 2
    let w := 8 * n
    let va := s.reg f.a + BitVec.ofInt 64 (f.imm.extractLsb' 0 16).toInt
    let old := u.num leaf.pa n
    let b := (s.reg f.b).toNat % 2 ^ w
    let d := (s.reg f.d).toNat % 2 ^ w
    let op := f.sub 23 4
    ready (.amo f) s = true →
    (va.toNat % n ≠ 0 → exec (.amo f) s = .next (takeTrap 0x33 va {} s)) ∧
    (va.toNat % n = 0 → s.translate va .readWrite = .ok (leaf, t) → leaf.mt = mtDev → exec (.amo f) s = .next (takeTrap 0x116 va {} s)) ∧
    (va.toNat % n = 0 → PlainAccess s va n .readWrite leaf t u → poisoned u.poison leaf.pa n = true →
      exec (.amo f) s = .next (takeTrap 0x150 va {} s)) ∧
    (va.toNat % n = 0 → PlainAccess s va n .readWrite leaf t u → poisoned u.poison leaf.pa n = false → u.Settled leaf → s.MemInv →
      f.d.toNat < 32 → ∃ v, exec (.amo f) s = .next v ∧ v.reg f.d = (if f.d = 0 then 0 else BitVec.ofNat 64 old) ∧
        (∀ x : BitVec 6, x.toNat < 32 → x ≠ f.d → v.reg x = s.reg x) ∧ v.cur.pc = s.cur.pc + 8 ∧
        (∀ p ∈ [(0, b), (1, (old + b) % 2 ^ w), (2, old &&& b), (3, old ||| b), (4, old ^^^ b),
          (5, if sextN old w < sextN b w then b else old), (6, if sextN b w < sextN old w then b else old), (7, max old b), (8, min old b),
          (9, if old = d then b else old)], op = p.1 → v.num leaf.pa n = p.2) ∧
        ∀ a, a < leaf.pa ∨ leaf.pa + n ≤ a → v.byte a = u.byte a)

/-- ldv, valid and casv complete (R247-R252): ldv loads eight bytes of a versioned CACHED line and its version, recording it in the validation set
under its bit; valid answers 0 where no recorded version has changed, else 1 plus the index of the first that has, and empties the
set; casv stores sB where the version is that in sD, and answers the version it found. A line without versions traps class 16,
subcode 0, a ninth record subcode 1.
The model's own choices in it are those of log entry 1. -/
def Obligations.VersionedLines : Prop :=
  ∀ (f : Fields) (s t u : State) (leaf : Leaf),
    let va := s.reg f.a + BitVec.ofInt 64 (f.imm.extractLsb' 0 22).toInt
    let recorded := f.sub 27 1 = 1
    let ver := fun (x : State) => versionOf x.versions (leaf.pa / 128)
    let changed := fun (e : Word × Nat × Nat) => versionOf s.versions e.2.1 ≠ e.2.2
    let set_ := s.cur.vset
    (∀ i ∈ [Instr.ldv f, .casv f], ready i s = true → va.toNat % 8 ≠ 0 → exec i s = .next (takeTrap 0x35 va {} s)) ∧
    (ready (.ldv f) s = true → va.toNat % 8 = 0 → recorded → set_.length = 8 → exec (.ldv f) s = .next (takeTrap 0x101 va {} s)) ∧
    (ready (.ldv f) s = true → va.toNat % 8 = 0 → ¬(recorded ∧ set_.length = 8) → s.translate va .read = .ok (leaf, t) →
      leaf.mt ≠ mtCached ∨ leaf.ver = false → exec (.ldv f) s = .next (takeTrap 0x100 va {} s)) ∧
    (ready (.ldv f) s = true → va.toNat % 8 = 0 → ¬(recorded ∧ set_.length = 8) → s.translate va .read = .ok (leaf, t) →
      leaf.mt = mtCached → leaf.ver = true → PlainAccess t va 8 .read leaf u u → poisoned u.poison leaf.pa 8 = false → u.Settled leaf →
      ∃ v, exec (.ldv f) s = .next v ∧ (f.d ≠ 0 → f.d ≠ f.b → v.reg f.d = BitVec.ofNat 64 (u.num leaf.pa 8)) ∧
        (f.b ≠ 0 → v.reg f.b = BitVec.ofNat 64 (ver u)) ∧ v.mem = u.mem ∧ v.cur.pc = u.cur.pc + 8 ∧
        v.cur.vset = if recorded then u.cur.vset ++ [(va >>> 7, leaf.pa / 128, ver u)] else u.cur.vset) ∧
    (ready (.valid f) s = true → ∃ r, exec (.valid f) s = .next ((s.setReg f.d r).setCur (fun c => { c with vset := [] })).advance ∧
      ((∀ e ∈ set_, ¬changed e) → r = 0) ∧
      ∀ i e, set_[i]? = some e → changed e → (∀ j x, j < i → set_[j]? = some x → ¬changed x) → r = BitVec.ofNat 64 (1 + i)) ∧
    (ready (.casv f) s = true → va.toNat % 8 = 0 → s.MemInv →
      PlainAccess s va 8 .readWrite leaf u u → leaf.mt = mtCached → leaf.ver = true → poisoned u.poison leaf.pa 8 = false →
      ∃ v, exec (.casv f) s = .next v ∧ (f.d ≠ 0 → v.reg f.d = BitVec.ofNat 64 (ver u)) ∧
        (ver u = (s.reg f.d).toNat % 2 ^ 48 → v.num leaf.pa 8 = (s.reg f.b).toNat ∧ (∀ a, a < leaf.pa ∨ leaf.pa + 8 ≤ a → v.byte a = u.byte a) ∧
          ver v = (ver u + 1) % 2 ^ 48) ∧
        (ver u ≠ (s.reg f.d).toNat % 2 ^ 48 → v.mem = u.mem ∧ v.versions = u.versions))

/-! ### Synchronisation -/

/-- Semaphores (R279-R282, R291, R292, R295): semt takes a clear bit, whose holder becomes the hart, and waits for a set one; semq takes a clear bit
and answers 1, and answers 0 for a set one; semc clears a bit that no context waits for and hands a bit with a waiter over without
clearing it. Off a tower each traps class 18, subcode 1.
The model's own choices in it are those of log entry 17. -/
def Obligations.Semaphores : Prop :=
  ∀ (f : Fields) (s : State),
    let place := s.cur.place
    let bit := if f.form = 0 then (s.reg f.a).toNat % 64 else f.sub 0 6
    let o := semObj place bit
    let sem := fun (t : State) i => (t.tower place).sem.getLsbD i
    let room := (s.holders o).contains s.cur.reqid = true ∨ ((s.holders o).length < 8 ∧ s.objectRoom o = true)
    let taken := fun (t : State) => (∀ i < 64, sem t i = if i = bit then true else sem s i) ∧
      (t.tower place).holders.get bit (2 ^ 30) = s.cur.reqid ∧ (t.holders o).contains s.cur.reqid = true ∧ t.cur.pc = s.cur.pc + 8 ∧ t.mem = s.mem
    let kept := fun (t : State) => t.cur.pc = s.cur.pc + 8 ∧ t.cur.regs = s.cur.regs ∧ t.mem = s.mem
    (∀ i ∈ [Instr.semt f, .semc f, .semq f], ready i s = true → s.cur.kind ≠ .tower → exec i s = .next (takeTrap 0x121 0 {} s)) ∧
    (s.cur.kind = .tower →
      (ready (.semt f) s = true → s.cur.wait = none → s.cur.handed = none → sem s bit = false → room → ∃ t, exec (.semt f) s = .next t ∧ taken t ∧
        t.cur.blocked = false ∧ t.cur.regs = s.cur.regs) ∧
      (ready (.semt f) s = true → s.cur.wait = none → s.cur.handed = none → sem s bit = true → s.cur.strict = false → s.cycleFrom s.cur.reqid o 16 = none → ∃ t,
        exec (.semt f) s = .next t ∧ t.cur.blocked = true ∧ t.cur.waitsOn .semt o = true ∧ t.cur.pc = s.cur.pc ∧ t.cur.regs = s.cur.regs ∧
        t.towers = s.towers ∧ t.mem = s.mem) ∧
      (ready (.semq f) s = true → sem s bit = false → room → ∃ t, exec (.semq f) s = .next t ∧ taken t ∧ (f.d ≠ 0 → t.reg f.d = 1)) ∧
      (ready (.semq f) s = true → sem s bit = true → exec (.semq f) s = .next (s.setReg f.d 0).advance) ∧
      (ready (.semc f) s = true → (∀ c ∈ s.live, c.waitsOn .semt o = false) → ∃ t, exec (.semc f) s = .next t ∧ kept t ∧
        ∀ i < 64, sem t i = if i = bit then false else sem s i) ∧
      (ready (.semc f) s = true → sem s bit = true → (∃ c ∈ s.live, c.waitsOn .semt o = true) → ∃ t,
        exec (.semc f) s = .next t ∧ kept t ∧ (∀ i < 64, sem t i = sem s i) ∧
        ∃ c ∈ s.live, c.waitsOn .semt o = true ∧ (t.tower place).holders.get bit (2 ^ 30) = c.reqid ∧
          ∃ d ∈ t.live, d.reqid = c.reqid ∧ d.handed = some o ∧ d.wait = none) ∧
      (ready (.semt f) s = true → s.cur.handed = some o → s.cur.wait = none → exec (.semt f) s =
        .next (s.setCur (fun c => { c with handed := none, blocked := false })).advance))

/-- Barriers (R283-R288): an arrival at a tower barrier that no other count uses adds one, and the last of CNT ends the generation: count and
arrivals 0, GEN + 1; a device barrier of the job counts to its own COUNT. bara answers the generation it arrived in; barw waits for
the end of the one in sB; barad arrives, records where, and waits. A count that differs traps class 18, subcode 9.
The model's own choices in it are those of log entry 17. -/
def Obligations.Barriers : Prop :=
  ∀ (f : Fields) (s : State) (n id : Nat) (d : DeviceBarrier),
    let a := s.reg f.a
    let x := if f.form = 0 then a.toNat % 2 ^ 20 else f.sub 0 20
    let cnt := f.sub 20 5
    let place := s.cur.place
    let b := (s.tower place).bar n
    let named := s.cur.kind = .tower ∧ n < 8 ∧ x = n ∧ (f.form = 0 → a.toNat = n)
    let arriving := named ∧ (f.form = 0 → cnt ≠ 0)
    let last := b.arr + 1 = cnt
    let after : TowerBarrier := if last then { count := 0, arr := 0, gen := b.gen + 1 } else { count := cnt, arr := b.arr + 1, gen := b.gen }
    let arrived := fun (t : State) => (t.tower place).bar n = after ∧ (∀ m < 8, m ≠ n → (t.tower place).bar m = (s.tower place).bar m) ∧
      t.mem = s.mem
    let kept := fun (t : State) => ∀ v : BitVec 6, v.toNat < 32 → v ≠ f.d → t.reg v = s.reg v
    let o : ObjKey := { cls := 1, key := place * 8 + n }
    let free := s.cur.wait = none ∧ s.cur.strict = false ∧ s.cycleFrom s.cur.reqid o 16 = none
    (ready (.bara f) s = true → arriving → b.count = 0 ∨ b.count = cnt → ∃ t, exec (.bara f) s = .next t ∧ arrived t ∧ kept t ∧
      (f.d ≠ 0 → t.reg f.d = b.gen.zeroExtend 64) ∧ t.cur.pc = s.cur.pc + 8) ∧
    (∀ i ∈ [Instr.bara f, .barad f], ready i s = true → arriving → b.count ≠ 0 → b.count ≠ cnt → s.cur.wait = none → s.cur.barad = [] →
      exec i s = .next (takeTrap 0x129 (BitVec.ofNat 64 (b.count + cnt * 2 ^ 8)) {} s)) ∧
    (ready (.barw f) s = true → named → s.cur.wait = none →
      (b.gen ≠ (s.reg f.b).extractLsb' 0 32 → exec (.barw f) s = .next (s.setCur (fun c => { c with wait := none, blocked := false })).advance) ∧
      (b.gen = (s.reg f.b).extractLsb' 0 32 → free → ∃ t, exec (.barw f) s = .next t ∧ t.cur.blocked = true ∧ t.cur.waitsOn .barw o = true ∧
        t.cur.pc = s.cur.pc ∧ t.cur.regs = s.cur.regs ∧ t.mem = s.mem)) ∧
    (ready (.barad f) s = true → arriving → b.count = 0 ∨ b.count = cnt → s.cur.barad = [] → free →
      (last → ∃ t, exec (.barad f) s = .next t ∧ arrived t ∧ kept t ∧ (f.d ≠ 0 → t.reg f.d = b.gen.zeroExtend 64) ∧ t.cur.barad = [] ∧
        t.cur.blocked = false ∧ t.cur.pc = s.cur.pc + 8) ∧
      (¬last → ∃ t, exec (.barad f) s = .next t ∧ arrived t ∧ t.cur.barad = [{ pc := s.cur.pc, tl := s.cur.tl, gen := b.gen, bar := some o }] ∧ t.cur.blocked = true ∧
        t.cur.waitsOn .barad o = true ∧ t.cur.pc = s.cur.pc ∧ kept t ∧ (f.d ≠ 0 → t.reg f.d = b.gen.zeroExtend 64))) ∧
    (ready (.bara f) s = true → (f.form = 0 → a.toNat = 2 ^ 18 + id ∧ cnt = 0) → x = 2 ^ 18 + id → 0x1000 ≤ id → id < 2 ^ 18 →
      s.hub.barriers.find? (fun b => b.id == id) = some d → d.job = jobOf s.cur.launch → d.scope ≠ 2 ∨ (s.cur.kind = .tower ∧ place / 64 = d.stack) →
      ∃ t, exec (.bara f) s = .next t ∧ kept t ∧ (f.d ≠ 0 → t.reg f.d = d.gen.zeroExtend 64) ∧
        t.hub.barriers.find? (fun b => b.id == id) = some (if d.arr + 1 = d.count then { d with arr := 0, gen := d.gen + 1 }
          else { d with arr := d.arr + 1 }))

/-- lkw and qwait (R289-R292): lkw takes a free lock word of unchecked CACHED memory, which then holds bit 63 and the requester ID, and waits for a held
one; qwait answers the entries of a valid queue, or its free slots, and waits while there are none. Each names its hold or its wait in
the table. A misaligned lock traps class 3, subcode 3; a header out of place class 18, subcode 7.
The model's own choices in it are those of log entry 17. -/
def Obligations.LockAndQueueWaits : Prop :=
  ∀ (f : Fields) (s t u : State) (leaf : Leaf), s.NoReplay → s.cur.replay = [] →
    let va := s.reg f.a + BitVec.ofInt 64 (f.imm.extractLsb' 0 22).toInt
    let lock : ObjKey := { cls := 3, key := leaf.pa }
    let queue : ObjKey := { cls := 4, key := leaf.pa }
    let head := u.num leaf.pa 8
    let tail := u.num (leaf.pa + 8) 8
    let n := (tail + 2 ^ 64 - head) % 2 ^ 64
    let slots := 2 ^ u.num (leaf.pa + 16) 1
    let mode := f.sub 22 1
    let answer := if mode = 0 then n else slots - n
    let some_ := if mode = 0 then n ≠ 0 else n < slots
    let locked := PlainAccess s va 8 .readWrite leaf t t ∧ leaf.mt = mtCached ∧ leaf.chk = false ∧ poisoned t.poison leaf.pa 8 = false ∧ t.Settled leaf
    let queued := PlainAccess s va 64 .read leaf t u ∧ leaf.chk = false ∧ poisoned u.poison leaf.pa 64 = false ∧ u.Settled leaf ∧
      headerOk leaf.pa (u.bytes leaf.pa 64) = true
    let seen := (u.noteUse leaf.pa leaf.mt).readSettles leaf 64
    let waits := fun (v : State) (k : WaitKind) (o : ObjKey) (m : List Host.Cell) => v.cur.blocked = true ∧ v.cur.waitsOn k o = true ∧
      v.cur.pc = s.cur.pc ∧ v.cur.regs = s.cur.regs ∧ v.mem = m
    (ready (.lkw f) s = true → va.toNat % 8 ≠ 0 → exec (.lkw f) s = .next (takeTrap 0x33 va {} s)) ∧
    (ready (.qwait f) s = true → va.toNat % 64 ≠ 0 → exec (.qwait f) s = .next (takeTrap 0x127 va {} s)) ∧
    (ready (.lkw f) s = true → va.toNat % 8 = 0 → s.cur.wait = none → s.MemInv → locked → bitAt (t.num leaf.pa 8) 63 = false →
      (t.holders lock).length < 8 → t.objectRoom lock = true → s.cur.reqid < 2 ^ 28 → ∃ v, exec (.lkw f) s = .next v ∧ v.num leaf.pa 8 = 2 ^ 63 + s.cur.reqid ∧
        (∀ a, a < leaf.pa ∨ leaf.pa + 8 ≤ a → v.byte a = t.byte a) ∧ (v.holders lock).contains s.cur.reqid = true ∧ v.cur.wait = none ∧
        v.cur.pc = s.cur.pc + 8 ∧ v.cur.regs = s.cur.regs) ∧
    (ready (.lkw f) s = true → va.toNat % 8 = 0 → s.cur.wait = none → locked → bitAt (t.num leaf.pa 8) 63 = true → s.cur.strict = false →
      ((s.afterTest va).adoptHolder leaf.pa (t.num leaf.pa 8)).cycleFrom s.cur.reqid lock 16 = none →
      ∃ v, exec (.lkw f) s = .next v ∧ waits v .lkw lock (s.afterTest va).mem) ∧
    (ready (.qwait f) s = true → va.toNat % 64 = 0 → s.cur.wait = none → queued → some_ → exec (.qwait f) s =
      .next ((seen.setReg f.d (BitVec.ofNat 64 answer)).setCur (fun c => { c with wait := none, blocked := false })).advance) ∧
    (ready (.qwait f) s = true → va.toNat % 64 = 0 → s.cur.wait = none → queued → ¬some_ → s.cur.strict = false →
      seen.cycleFrom s.cur.reqid queue 16 = none → ∃ v, exec (.qwait f) s = .next v ∧ waits v .qwait queue t.mem)

/-- whold, wrel, wreg and wdone complete (R298): of a semaphore bit or barrier of the tower, the mailbox, or a word of memory, whold records the hart as a
holder by declaration, unless it is one, wrel drops the hold, wreg registers a wait that does not block, wdone ends it. Where the table has no room
the hold or wait counts as untracked and nothing else happens, or traps class 18, subcode 2 under STRICT (R296). A second wait traps class 18,
subcode 8, where the first has an entry; a value of sA out of its class subcode 10.
The model's own choices in it are those of log entry 17. -/
def Obligations.DeclaredHolds : Prop :=
  ∀ (f : Fields) (s t : State) (o : ObjKey) (leaf : Leaf),
    let cls := f.sub 0 4
    let a := s.reg f.a
    let tower := s.cur.kind = .tower
    let place := s.cur.place
    let names := (cls = 0 ∧ tower ∧ a.toNat < 64 ∧ o = { cls := 0, key := place * 64 + a.toNat } ∧ t = s) ∨
      (cls = 1 ∧ tower ∧ a.toNat < 8 ∧ o = { cls := 1, key := place * 8 + a.toNat } ∧ t = s) ∨
      (cls = 2 ∧ a.toNat < 2 ^ 18 ∧ 0x1000 ≤ a.toNat ∧ o = { cls := 2, key := a.toNat } ∧ t = s ∧
        ∃ d, s.hub.barriers.find? (fun b => b.id == a.toNat) = some d ∧ d.job = jobOf s.cur.launch ∧
          (d.scope ≠ 2 ∨ (tower ∧ place / 64 = d.stack))) ∨
      (cls = 5 ∧ a = 0 ∧ o = { cls := 5, key := 0 } ∧ t = s) ∨
      (cls ∉ [0, 1, 2, 5] ∧ a.toNat % 8 = 0 ∧ s.translate a .read = .ok (leaf, t) ∧ o = { cls := cls, key := leaf.pa })
    let bad := (cls = 0 ∧ tower ∧ 64 ≤ a.toNat) ∨ (cls = 1 ∧ tower ∧ 8 ≤ a.toNat) ∨ (cls = 2 ∧ 2 ^ 18 ≤ a.toNat) ∨ (cls = 5 ∧ a ≠ 0) ∨
      (cls ∉ [0, 1, 2, 5] ∧ a.toNat % 8 ≠ 0)
    let room := (t.holders o).length < 8 ∧ t.objectRoom o = true
    let acyclic := t.cycleFrom t.cur.reqid o 16 = none
    let full := fun (i : Instr) => exec i s = .next (if t.cur.strict then takeTrap 0x122 0 {} s
      else (t.setCur (fun c => { c with untracked := min 65535 (c.untracked + 1) })).advance)
    let entry : WaitEntry := { kind := .wreg, obj := o, tracked := true, since := t.nextWait, woken := false, gen := 0 }
    (∀ i ∈ [Instr.whold f, .wrel f, .wreg f], ready i s = true → bad → exec i s = .next (takeTrap 0x12A a {} s)) ∧
    (ready (.whold f) s = true → names → (t.holders o).contains t.cur.reqid = true → exec (.whold f) s = .next t.advance) ∧
    (ready (.whold f) s = true → names → (t.holders o).contains t.cur.reqid = false → acyclic → room →
      exec (.whold f) s = .next ((t.addHold o t.cur.reqid).declareHold o t.cur.reqid).advance) ∧
    (ready (.whold f) s = true → names → (t.holders o).contains t.cur.reqid = false → ¬room → full (.whold f)) ∧
    (ready (.wrel f) s = true → names → exec (.wrel f) s = .next (t.dropHold o t.cur.reqid).advance) ∧
    (ready (.wreg f) s = true → names → (∀ w, t.cur.wait = some w → w.tracked = false) → t.waitEntries < 16384 → t.objectRoom o = true → acyclic →
      exec (.wreg f) s = .next (t.setCur (fun c => { c with wait := some entry })).advance) ∧
    (ready (.wreg f) s = true → names → (∀ w, t.cur.wait = some w → w.tracked = false) → ¬(t.waitEntries < 16384 ∧ t.objectRoom o = true) →
      full (.wreg f)) ∧
    (∀ w, ready (.wreg f) s = true → names → t.cur.wait = some w → w.tracked = true → exec (.wreg f) s = .next (takeTrap 0x128 w.tag {} s)) ∧
    (∀ w, ready (.wdone f) s = true → s.cur.wait = some w → exec (.wdone f) s =
      .next (if w.kind = .wreg then s.setCur (fun c => { c with wait := none }) else s).advance) ∧
    (ready (.wdone f) s = true → s.cur.wait = none → exec (.wdone f) s = .next s.advance)

/-! ### Traps, waits, regions, work -/

/-- Taking a trap on a hart that is not Cairn (R329, R332): TCAUSE, TPC, TVAL and the pair state are saved, PM takes the mode, the hart is at trap level in
supervisor mode, and goes on at TVEC, or ends because the record could not be written, because it was at trap level, or because class 21
retires it; a synchronous trap at trap level ends it. A handler address that is no multiple of 8 traps class 3, subcode 0 in its turn (R90), which
ends the hart. A trap whose record has to wait for a row group is not yet taken (R31). The record starts with the cause, the address and the value.
trap and rett do as R333 and R334 say, and a return to an address that is no multiple of 8 traps class 3, subcode 0 (R90). Cairn's entry and return
are those of R394 and R395, with INFO holding what TVAL would.
The model's own choices in it are those of log entry 14. -/
def Obligations.TrapsAndReturns : Prop :=
  ∀ (f : Fields) (s : State) (code : Nat) (tval : Word) (info : TrapInfo),
    (s.cur.kind ≠ .cairn → s.NoReplay → ∀ k, s.recordWait = some k → takeTrap code tval info s = s.rowJoin k (hartWaiter s.cur.reqid)) ∧
    (s.cur.kind ≠ .cairn → s.NoReplay → s.cur.ending = none → s.recordWait = none → s.cur.tvec.toNat % 8 ≠ 0 →
      let t := takeTrap code tval info s
      ∃ x, t.cur.ending = some x ∧ x.failed = true ∧ x.cancel = false ∧ (x.cause = 0x149 ∨ x.cause = 0x143 ∨ (x.cause = code ∧ code / 16 = 21)) ∧
        (x.cause = 0x143 → s.cur.tl = false ∨ info.async = true → t.cur.tcause = 0x30 ∧ t.cur.tpc = s.cur.tvec ∧ t.cur.tval = s.cur.tvec)) ∧
    (s.cur.kind ≠ .cairn → s.NoReplay → s.cur.ending = none → s.recordWait = none → s.cur.tvec.toNat % 8 = 0 →
      let t := takeTrap code tval info s
      let e := (s.noteFault code tval).setCur (fun c => { c with sup := true })
      t.cur.tcause = BitVec.ofNat 64 code ∧ t.cur.tpc = s.cur.pc ∧ t.cur.tval = tval ∧ t.cur.tl = true ∧ t.cur.pm = s.cur.sup ∧
        t.cur.sup = true ∧ t.cur.async = info.async ∧ t.cur.hv = info.hv ∧ t.cur.half = info.half ∧ t.cur.hdone = info.hdone ∧
        t.cur.blocked = false ∧ (t.cur.ending = none → t.cur.pc = s.cur.tvec) ∧
        (∀ x, t.cur.ending = some x → x.failed = true ∧ x.cancel = false ∧
          (x.cause = 0x149 ∨ (x.cause = 0x143 ∧ s.cur.tl = true ∧ info.async = false) ∨ (x.cause = code ∧ code / 16 = 21 ∧ 2 ≤ code % 16))) ∧
        (s.cur.tl = true → info.async = false → t.cur.ending ≠ none) ∧
        (∀ leaf u, s.MemInv → e.translate s.cur.trec .write = .ok (leaf, u) → leaf.mt = mtCached → u.unpublished s.cur.reqid leaf 256 = false →
          inSideTable leaf.pa 256 = false → leaf.pa + 256 ≤ dramEnd → code < 2 ^ 64 →
          t.num leaf.pa 8 = code ∧ t.num (leaf.pa + 8) 8 = s.cur.pc.toNat ∧ t.num (leaf.pa + 16) 8 = tval.toNat)) ∧
    (s.cur.kind = .cairn →
      (s.mgmt.ml = false → let t := takeTrap code tval info s
        t.cur.pc = s.mgmt.mvec ∧ t.mgmt.mepc = s.cur.pc ∧ t.mgmt.ml = true ∧ t.mgmt.ie = false ∧ t.mgmt.pie = s.mgmt.ie ∧
          t.mgmt.mcause = BitVec.ofNat 64 code ||| tval <<< 16 ∧ t.mem = s.mem) ∧
      (s.mgmt.ml = true → ∀ n < 32, ((takeTrap code tval info s).island n).step = 0 ∧ ((takeTrap code tval info s).island n).floor = true)) ∧
    (ready (.trap f) s = true → exec (.trap f) s = .next (takeTrap (0x170 + f.sub 0 4) (s.reg f.a) {} s)) ∧
    (ready (.rett f) s = true →
      (s.cur.sup = false → exec (.rett f) s = .next (takeTrap 0x12 0 {} s)) ∧
      (s.cur.sup = true → (if s.cur.kind = .cairn then s.mgmt.ml else s.cur.tl) = false → exec (.rett f) s = .next (takeTrap 0x144 0 {} s)) ∧
      (s.cur.sup = true → (if s.cur.kind = .cairn then s.mgmt.ml else s.cur.tl) = true →
        let back := if s.cur.kind = .cairn then s.mgmt.mepc else s.cur.tpc
        back.toNat % 8 ≠ 0 → exec (.rett f) s = .next (takeTrap 0x30 back {} s)) ∧
      (s.cur.sup = true → s.cur.kind ≠ .cairn → s.cur.tl = true → s.cur.tpc.toNat % 8 = 0 → exec (.rett f) s = .next (s.setCur (fun c => { c with
        sup := c.pm, tl := false, pc := c.tpc, skip := if c.hv then c.hdone else 0 }))) ∧
      (s.cur.sup = true → s.cur.kind = .cairn → s.mgmt.ml = true → s.mgmt.mepc.toNat % 8 = 0 → ∃ t, exec (.rett f) s = .next t ∧ t.cur.pc = s.mgmt.mepc ∧
        t.mgmt.ml = false ∧ t.mgmt.ie = s.mgmt.pie ∧ t.mem = s.mem ∧ t.cur.regs = s.cur.regs))

/-- When REQ rises with NE = 1, class 20, subcode 11 becomes pending with TVAL = PDEADLN (R338): by a write of PREQ, and by a request to a context or
to its gang, whose deadline PDEADLN takes; a request while REQ = 1 only lowers the deadline and makes nothing pending (R337, R339, R342). Of a gang
the context named alone migrates. A yield request carries the grant of the latency class in cycles of the tower's clock (R4, R344).
The model's own choices in it are those of log entries 9 and 38. -/
def Obligations.PreemptNotice : Prop :=
  ∀ (f : Fields) (s : State) (c : Ctx),
    let notice := fun (d : Word) => ({ code := 0x14B, tval := d, extra := 0 } : Pending)
    let asked := fun (d e : Ctx) (deadline : Nat) (held : Bool) (onto : Option Nat) => e.reqid = d.reqid ∧ e.preq = true ∧ e.preqNe = d.preqNe ∧
      e.wantHeld = (d.wantHeld || held) ∧ e.migrate = (if d.reqid = c.reqid ∧ onto.isSome then onto else d.migrate) ∧
      (d.preq = false → e.pdeadln = deadline ∧ e.pend = if d.preqNe then d.pend ++ [notice (BitVec.ofNat 64 deadline)] else d.pend) ∧
      (d.preq = true → e.pdeadln = min d.pdeadln deadline ∧ e.pend = d.pend)
    let reached := fun (t : State) (deadline : Nat) (held : Bool) (onto : Option Nat) =>
      ∀ d ∈ s.live, (if c.gang.isSome then d.gang.isSome = true ∧ d.launch = c.launch else d = c) → ∃ e ∈ t.live, asked d e deadline held onto
    let written := fun (i : Instr) (v : Word) => ready i s = true → s.cur.kind ≠ .cairn → s.cur.sup = true → s.cur.preq = false →
      ∃ t, exec i s = .next t ∧ t.cur.preq = v.getLsbD 0 ∧ t.cur.preqNe = v.getLsbD 8 ∧ t.cur.pdeadln = s.cur.pdeadln ∧
        t.cur.pend = if v.getLsbD 0 ∧ v.getLsbD 8 then s.cur.pend ++ [notice (BitVec.ofNat 64 s.cur.pdeadln)] else s.cur.pend
    (crNumber f = 0x31 → written (.crw f) (s.reg f.a) ∧
      (f.a ≠ 0 → written (.crs f) (s.crRead 0x31 ||| s.reg f.a) ∧ written (.crc f) (s.crRead 0x31 &&& ~~~(s.reg f.a)))) ∧
    (s.entryCtx (s.input.n1 % 32768) = some c → s.ctx? c.reqid = some c →
      let deadline := (s.input.word.extractLsb' 0 32).toNat
      let onto := (s.input.word.extractLsb' 32 10).toNat
      let held := s.input.word.getLsbD 62
      (∃ t, exec .preemptRequest s = .next t ∧ reached t deadline held none) ∧
      (∀ l, s.launchOf c = some l → l.hasTower onto = true → onto < 512 → c.npr = none →
        ∃ t, exec .preemptMigrate s = .next t ∧ reached t deadline held (some onto)) ∧
      ((∀ l, s.launchOf c = some l → l.hasTower onto = false) → exec .preemptMigrate s =
        .next (s.raiseMip 1 (BitVec.ofNat 64 (s.input.n1 % 32768))))) ∧
    (s.ctx? s.input.n1 = some c → c.run = .running → c.kind ≠ .cairn → s.mustYield c = true →
      ∃ t, exec .yieldRequest s = .next t ∧ reached t (cyclesOf (schedulerGrant c.lclass) (s.clockOf c)) false none)

/-- wfi goes on where a trap can be taken, a cancellation stands or, on Cairn, an enabled interrupt is pending, and else blocks (R335); tstamp writes the
time (R336); yield goes on with no other context onto run (R321); nprb and npre begin and end a region, and trap inside and outside of one
(R346); gpred and gjoin push and pop the active bit (R315); tlbi drops what it names of every TLB and walk cache, and traps in user mode
(R369, R370).
The model's own choices in it are those of log entries 7, 17 and 35. -/
def Obligations.WaitsAndRegions : Prop :=
  ∀ (f : Fields) (s : State) (g : Gang),
    let blocks := s.setCur (fun c => { c with blocked := true })
    let goes := (s.setCur (fun c => { c with blocked := false })).advance
    let dropped := fun (t : State) (leaf : TlbEntry → Prop) (walk : WalkEntry → Prop) =>
      t.tlbs.map Prod.fst = s.tlbs.map Prod.fst ∧ t.walks.map Prod.fst = s.walks.map Prod.fst ∧ t.mem = s.mem ∧ t.cur.regs = s.cur.regs ∧
        (∀ i (h : i < s.tlbs.length) (h' : i < t.tlbs.length), ∀ e, e ∈ (t.tlbs[i]).2 ↔ e ∈ (s.tlbs[i]).2 ∧ ¬leaf e) ∧
        (∀ i (h : i < s.walks.length) (h' : i < t.walks.length), ∀ w, w ∈ (t.walks[i]).2 ↔ w ∈ (s.walks[i]).2 ∧ ¬walk w)
    let a := fld (s.reg f.a).toNat 0 57
    let asid := fld (s.reg f.b).toNat 0 16
    (ready (.wfi f) s = true →
      (s.cur.kind = .cairn → exec (.wfi f) s = .next (if s.mipBits &&& s.mgmt.mie ≠ 0 then goes else blocks)) ∧
      (s.cur.kind ≠ .cairn → s.cur.trapDue = true ∨ s.cur.cancelled = true → exec (.wfi f) s = .next goes) ∧
      (s.cur.kind ≠ .cairn → s.cur.trapDue = false → s.cur.cancelled = false → s.cur.preq = false → exec (.wfi f) s = .next blocks)) ∧
    (ready (.tstamp f) s = true → exec (.tstamp f) s = .next (s.setReg f.d (BitVec.ofNat 64 (s.clk / 1000))).advance) ∧
    (ready (.yield f) s = true → s.cur.npr.isSome = true ∨ (s.cur.preq = false ∧ ∀ r ∈ s.live, r.run = .running) →
      exec (.yield f) s = .next s.advance) ∧
    (ready (.nprb f) s = true →
      (s.cur.npr.isSome = true → exec (.nprb f) s = .next (takeTrap 0x141 0 {} s)) ∧
      (s.cur.npr = none → s.cur.preq = false → exec (.nprb f) s = .next (s.setCur (fun c => { c with npr := some s.clk })).advance)) ∧
    (ready (.npre f) s = true →
      (s.cur.npr = none → s.cur.blocked = false → exec (.npre f) s = .next (takeTrap 0x142 0 {} s)) ∧
      (s.cur.npr.isSome = true ∨ s.cur.blocked = true → s.cur.preq = false →
        exec (.npre f) s = .next (s.setCur (fun c => { c with npr := none, blocked := false })).advance)) ∧
    (∀ i ∈ [Instr.gpred f, .gjoin f], ready i s = true → s.cur.gang = none → exec i s = .next (takeTrap 0x13D 0 {} s)) ∧
    (s.cur.gang = some g →
      (ready (.gpred f) s = true → g.stack.length = 8 → exec (.gpred f) s = .next (takeTrap 0x13A 8 {} s)) ∧
      (ready (.gpred f) s = true → g.stack.length < 8 → exec (.gpred f) s = .next (s.setCur (fun c => { c with
        gang := some { g with active := g.active && s.reg f.a != 0, stack := g.active :: g.stack } })).advance) ∧
      (ready (.gjoin f) s = true → g.stack = [] → exec (.gjoin f) s = .next (takeTrap 0x13A 0 {} s)) ∧
      (∀ b rest, ready (.gjoin f) s = true → g.stack = b :: rest → exec (.gjoin f) s = .next (s.setCur (fun c => { c with
        gang := some { g with active := b, stack := rest } })).advance)) ∧
    (∀ i ∈ [Instr.tlbiVa f, .tlbiAsid f, .tlbiAll f], ready i s = true → s.cur.sup = false → exec i s = .next (takeTrap 0x12 0 {} s)) ∧
    (ready (.tlbiVa f) s = true → s.cur.sup = true → ∃ t, exec (.tlbiVa f) s = .next t ∧
      dropped t (fun e => e.asid = asid ∧ a / 2 ^ e.bits = e.va / 2 ^ e.bits) (fun w => w.asid = asid ∧ w.idx = a / 2 ^ (12 + 9 * (w.level - 1)))) ∧
    (ready (.tlbiAsid f) s = true → s.cur.sup = true → ∃ t, exec (.tlbiAsid f) s = .next t ∧
      dropped t (fun e => e.asid = asid) (fun w => w.asid = asid)) ∧
    (ready (.tlbiAll f) s = true → s.cur.sup = true → ∃ t, exec (.tlbiAll f) s = .next t ∧ dropped t (fun _ => True) (fun _ => True))

/-- launch, lwait, lcancel, hexit and jrecv (R306-R311, R324): launch checks LP, the alignment, then the record, and puts the launch into the work
table; lwait and lcancel check that the entity is there, the job and, for lwait, the level; lwait answers the status word of R304, or
waits, and a wait begun keeps its entity; lcancel marks every context under the entity cancelled; hexit ends the context and its launch counts it; jrecv takes the oldest message of the
job into memory.
The model's own choices in it are those of log entry 24. -/
def Obligations.WorkTable : Prop :=
  ∀ (f : Fields) (s t : State) (vals : List (Nat × Bool)) (l : Launch) (x : Bool × Word) (leaf : Leaf) (m : Message),
    let a := s.reg f.a
    let r := vals.flatMap (fun v => leBytes v.1 8)
    let read := a.toNat % 64 = 0 ∧ ReadsAll 8 s ((List.range 64).map (fun i => a + BitVec.ofNat 64 (8 * i))) vals t ∧ ∀ v ∈ vals, v.2 = false
    let id := recField r 24 8
    let level := f.sub 0 2
    let quiet := s.NoTransfers ∧ s.cur.beacons = [] ∧ s.cur.ending = none
    let runs := s.NoReplay ∧ s.cur.run = .running
    let va := a
    (ready (.launch f) s = true → runs →
      (s.mayLaunch = false → exec (.launch f) s = .next (takeTrap 0x13 0 {} s)) ∧
      (s.mayLaunch = true → a.toNat % 64 ≠ 0 → exec (.launch f) s = .next (takeTrap 0x39 a {} s)) ∧
      (∀ o, s.mayLaunch = true → read → recordFault r s.cur.sup s.cur.prio = some o →
        exec (.launch f) s = .next (takeTrap 0x132 (BitVec.ofNat 64 o) {} s)) ∧
      (s.mayLaunch = true → read → recordFault r s.cur.sup s.cur.prio = none → towerSetFault r ((vget s.cur.facc 0).getLsbD 4) = none →
        s.cur.sup = true → (∀ e ∈ t.hub.entities, e.closed = false) → t.launch (BitVec.ofNat 64 id) = none → t.barClash r = none →
        recPreds r = [] → t.tableFullAt (BitVec.ofNat 64 id) = none → ∃ u, exec (.launch f) s = .next u ∧ (f.d ≠ 0 → u.reg f.d = BitVec.ofNat 64 id) ∧
          u.cur.pc = s.cur.pc + 8 ∧ u.mem = t.mem ∧ ∃ n, u.launch (BitVec.ofNat 64 id) = some n ∧ n.record = r ∧ n.phase = 0 ∧ n.ended = 0 ∧
            n.harts = (recTowers r).length * (fld (recField r 16 8) 2 3 + 1) + (recHubs r).length)) ∧
    (∀ i ∈ [Instr.lwait f, .lcancel f], ready i s = true → runs → s.cur.lwaited level a = none →
      (s.workStatus level a = none → exec i s = .next (takeTrap 0x139 a {} s)) ∧
      (s.workStatus level a = some x → s.cur.sup = false → jobOf a ≠ jobOf s.cur.launch →
        exec i s = .next (takeTrap 0x136 (BitVec.ofNat 64 (jobOf a)) {} s))) ∧
    (s.launch a = some l → ∃ w, s.workStatus 0 a = some (decide (l.phase = 2), w) ∧ w.getLsbD 0 = decide (l.phase = 2) ∧
      w.extractLsb' 1 3 = BitVec.ofNat 3 (l.bits / 2) ∧ w.extractLsb' 16 9 = BitVec.ofNat 9 l.cause ∧ w.extractLsb' 32 16 = BitVec.ofNat 16 l.exit) ∧
    (∀ w, ready (.lwait f) s = true → s.cur.lwaited level a = some w → ∃ u, exec (.lwait f) s = .next u ∧ (f.d ≠ 0 → u.reg f.d = w) ∧
      u.cur.lwait = none ∧ u.cur.blocked = false ∧ u.cur.pc = s.cur.pc + 8 ∧ u.hub.launches = s.hub.launches) ∧
    (ready (.lwait f) s = true → s.cur.lwaited level a = none → s.cur.sup = true → s.workStatus level a = some x →
      (s.onOwn level a = true → exec (.lwait f) s = .next (takeTrap 0x13E a {} s)) ∧
      (s.onOwn level a = false → x.1 = true → ∃ u, exec (.lwait f) s = .next u ∧ (f.d ≠ 0 → u.reg f.d = x.2) ∧ u.cur.blocked = false ∧
        u.cur.pc = s.cur.pc + 8 ∧ u.hub.launches = s.hub.launches) ∧
      (s.onOwn level a = false → x.1 = false → exec (.lwait f) s =
        .next (s.setCur (fun c => { c with blocked := true, lwait := some (level, levelKey level a, none) })))) ∧
    (ready (.lcancel f) s = true → s.cur.sup = true → s.workStatus level a = some x → runs →
      (x.1 = true → exec (.lcancel f) s = .next (s.setReg f.d 0).advance) ∧
      (x.1 = false → s.onOwn level a = false → ∃ u, exec (.lcancel f) s = .next u ∧ (f.d ≠ 0 → u.reg f.d = 1) ∧ u.cur.pc = s.cur.pc + 8 ∧
        u.mem = s.mem ∧ ∀ c ∈ s.live, c.kind ≠ .cairn → levelKey level c.launch = levelKey level a → ∃ d ∈ u.live, d.reqid = c.reqid ∧ d.cancelled = true) ∧
      (x.1 = false → s.onOwn level a = true → s.cur.kind ≠ .cairn → s.cur.npr = none → quiet →
        ∃ u, exec (.lcancel f) s = .next u ∧ u.cur.run = .ended)) ∧
    (ready (.hexit f) s = true → quiet → s.launchOf s.cur = some l → s.launch s.cur.launch = some l → l.ended + 1 < l.harts →
      l.exitAt ≤ s.hub.codes →
      ∃ u, exec (.hexit f) s = .next u ∧ u.cur.run = .ended ∧ ∃ n, u.launch s.cur.launch = some n ∧ n.ended = l.ended + 1 ∧ n.phase = l.phase ∧
        n.exit = (if l.exit = 0 then fld a.toNat 0 16 else l.exit) ∧ n.cause = l.cause ∧
        n.bits = (if fld a.toNat 0 16 = 0 then l.bits else l.bits ||| 4)) ∧
    (ready (.jrecv f) s = true → va.toNat % 256 ≠ 0 → exec (.jrecv f) s = .next (takeTrap 0x31 va {} s)) ∧
    (ready (.jrecv f) s = true → va.toNat % 256 = 0 → s.NoReplay → s.cur.replay = [] → s.cur.wait = none → s.MemInv →
      PlainAccess s va 256 .write leaf t t → t.Settled leaf → leaf.mt = mtCached → leaf.chk = false → leaf.ver = false →
      (s.hub.mailbox = m :: s.hub.mailbox.tail → m.job = jobOf s.cur.launch → m.payload.length ≤ 240 → (∀ c ∈ s.others, c.wait = none) →
        ∃ u, exec (.jrecv f) s = .next u ∧ (f.d ≠ 0 → u.reg f.d = m.seq.zeroExtend 64) ∧ u.hub.mailbox = s.hub.mailbox.tail ∧
          u.cur.pc = s.cur.pc + 8 ∧ u.num leaf.pa 2 = m.payload.length ∧ u.num (leaf.pa + 2) 2 = m.job % 2 ^ 16 ∧
          u.num (leaf.pa + 4) 4 = m.seq.toNat ∧ u.num (leaf.pa + 8) 8 = m.arrival.toNat ∧
          (∀ i (h : i < m.payload.length), u.byte (leaf.pa + 16 + i) = m.payload[i]) ∧
          ∀ b, b < leaf.pa ∨ leaf.pa + 256 ≤ b → u.byte b = t.byte b) ∧
      (s.hub.mailbox = [] → f.sub 0 1 = 1 → exec (.jrecv f) s = .next (s.setReg f.d (BitVec.allOnes 64)).advance) ∧
      (s.hub.mailbox = [] → f.sub 0 1 = 0 → s.cur.strict = false → s.cycleFrom s.cur.reqid mailboxObj 16 = none → ∃ u, exec (.jrecv f) s = .next u ∧
        u.cur.blocked = true ∧ u.cur.waitsOn .jrecv mailboxObj = true ∧ u.cur.pc = s.cur.pc ∧ u.cur.regs = s.cur.regs ∧ u.mem = s.mem))

/-- ctxsave and ctxrst (R350, R351) trap in user mode with class 1, subcode 2; ctxsave in a region class 20, subcode 8; ctxrst at an address not a
multiple of 4,096 class 20, subcode 5. ctxsave leaves the context held with its resume address, or retires it where its image cannot be
written; a pre-emption point leaves it saved; no store of the image has to wait for a group that holds another row (R31). ctxrst of a valid image
makes the held context of that requester ready on its tower with the image's registers. An image holds every register where it reads it back (R348,
R343): the scalars, the words of 0x0140, the masks, the tiles with their weights, the accumulators, the gang place, the validation set and the pending
traps; VCFG is cut to its layout, VL to VLMAX and the resume PC to a multiple of 8.
The model's own choices in it are those of log entry 22. -/
def Obligations.ContextImages : Prop :=
  ∀ (f : Fields) (s t : State) (img : List Byte) (c : Ctx) (rows : List Nat) (pc : Word) (forced held y : Bool),
    let alone := s.cur.gang = none ∧ s.cur.transfers = [] ∧ s.cur.ending = none ∧ s.cur.npr = none ∧ s.cur.wantHeld = false
    let parked := fun (u : State) (run : RunState) =>
      (u.cur.run = run ∧ u.cur.pc = s.cur.pc + 8 ∧ u.cur.preq = false ∧ u.cur.regs = s.cur.regs ∧ u.cur.masks = s.cur.masks) ∨
        ∃ e, u.cur.ending = some e ∧ e.cause = 0x149 ∧ e.failed = true
    let a := s.reg f.a
    let id := imgNum img 8 4 % 2 ^ 28
    let served := ∀ ls u, s.unloaded.imageLeaves s.cur.ctxsave .write 16 = some (ls, u) → ∃ v, u.serveImage true ls = .ok v
    let d := s.cur.fromImage img
    let whole := ∃ weights, img = s.imageHead rows pc forced held y ++ weights ∧
      ∀ n : Fin 4, s.cur.tiles[n].loaded = true → (weights.drop (8192 * n)).take (64 * s.cur.tiles[n].rows) =
        leBytes s.cur.tiles[n].wt.toNat (64 * s.cur.tiles[n].rows)
    (∀ i ∈ [Instr.ctxsave f, .ctxrst f], ready i s = true → s.cur.sup = false → exec i s = .next (takeTrap 0x12 0 {} s)) ∧
    (ready (.ctxsave f) s = true → s.cur.sup = true →
      (s.cur.npr.isSome = true → exec (.ctxsave f) s = .next (takeTrap 0x148 0 {} s)) ∧
      (alone → served → ∃ u, exec (.ctxsave f) s = .next u ∧ parked u .held)) ∧
    (ready (.yield f) s = true → alone → served → s.cur.preq = true → ∃ u, exec (.yield f) s = .next u ∧ parked u .saved) ∧
    (ready (.ctxrst f) s = true → s.cur.sup = true →
      (a.toNat % 4096 ≠ 0 → exec (.ctxrst f) s = .next (takeTrap 0x145 a {} s)) ∧
      (a.toNat % 4096 = 0 → s.readImage a = .ok img false t → t.cur = s.cur →
        (imageValid img = false → exec (.ctxrst f) s = .next (takeTrap 0x145 a {} s)) ∧
        (imageValid img = true → fld (imgNum img 0 8) 32 13 = s.devId → s.ctx? id = some c → t.ctx? id = some c → c.run = .held → id ≠ s.cur.reqid →
          s.cur.run = .running → (s.reg f.b).toNat < 512 → (∀ n, s.imgBound img = some n → n = (s.reg f.b).toNat) →
          s.slotsUsed .tower (s.reg f.b).toNat < 16 → ∃ u e, exec (.ctxrst f) s = .next u ∧ u.ctx? id = some e ∧ e.run = .ready ∧ e.kind = .tower ∧
            e.place = (s.reg f.b).toNat ∧ e.pc = imgWord img 0x18 &&& ~~~7#64 ∧
            (∀ v : BitVec 6, v ≠ 0 → v.toNat < 32 → e.reg v = imgWord img (0x40 + 8 * v.toNat)) ∧ u.cur.pc = s.cur.pc + 8 ∧
            (let d := c.fromImage img
             e.vl = d.vl ∧ e.vcfg = d.vcfg ∧ e.estart = d.estart ∧ e.masks = d.masks ∧ e.tiles = d.tiles ∧ e.accs = d.accs ∧ e.tcfg = d.tcfg ∧
               e.tstat = d.tstat ∧ e.tcause = d.tcause ∧ e.tpc = d.tpc ∧ e.tvec = d.tvec ∧ e.ptroot = d.ptroot ∧ e.facc = d.facc) ∧
            (f.d ≠ 0 → u.reg f.d = BitVec.ofNat 64 (id + c.entry * 2 ^ 32))))) ∧
    (whole → d.pc = pc &&& ~~~7#64 ∧ (∀ v : BitVec 6, v.toNat < 32 → d.reg v = s.cur.reg v) ∧ d.vcfg = s.cur.vcfg &&& 0xFF7 ∧
      (s.cur.lclass < 4 → s.cur.vl.toNat ≤ vlMax (s.cur.vcfg &&& 0xFF7) s.cur.lclass → d.vl = s.cur.vl) ∧ d.estart = s.cur.estart ∧
      d.ctb = s.cur.ctb ∧ d.fflags = s.cur.fflags ∧ d.frm = s.cur.frm ∧ d.ck = s.cur.ck ∧ d.pmcnt = s.cur.pmcnt ∧ d.tcfg = s.cur.tcfg ∧
      d.mownEn = s.cur.mownEn ∧ d.strict = s.cur.strict ∧ d.tcause = s.cur.tcause ∧ d.tpc = s.cur.tpc ∧ d.tval = s.cur.tval ∧
      d.tvec = s.cur.tvec ∧ d.trec = s.cur.trec ∧ d.tscratch = s.cur.tscratch ∧ d.ptroot = s.cur.ptroot ∧ d.ctxsave = s.cur.ctxsave ∧
      d.facc = s.cur.facc ∧ d.masks = s.cur.masks ∧ d.poisonMask = s.cur.poisonMask ∧ d.sup = s.cur.sup ∧ d.tl = s.cur.tl ∧ d.pm = s.cur.pm ∧
      (s.cur.prio < 8 → d.prio = s.cur.prio) ∧ (s.cur.lclass < 4 → d.lclass = s.cur.lclass) ∧ d.skip = s.cur.skip ∧ d.half = s.cur.half ∧
      d.hv = s.cur.hv ∧ d.hdone = s.cur.hdone ∧ d.async = s.cur.async ∧ (s.cur.home < 16 → d.home = s.cur.home) ∧
      (s.cur.pdeadln < 2 ^ 32 → d.pdeadln = s.cur.pdeadln) ∧ imgReg img 20 = s.cur.snext.zeroExtend 64 ∧ imgReg img 21 = s.cur.sfloor.zeroExtend 64 ∧
      (∀ n : Fin 4, let x := s.cur.tiles[n]
        x = Tile.blank ∨ (x.loaded = true ∧ fld s.cur.tcfg[n].toNat 24 2 ≠ 0 ∧ x.fc < 64 ∧ x.rows ≤ 128 ∧ x.cols < 128 ∧ x.wt.toNat < 2 ^ (512 * x.rows)) →
        d.tiles[n] = x) ∧
      (∀ n : Fin 4, let x := s.cur.accs[n]
        x = Acc.blank ∨ (x.empty = false ∧ -128 ≤ x.q ∧ x.q < 128 ∧ -128 ≤ x.sx ∧ x.sx < 128 ∧
          ∀ i : Fin 64, -2 ^ 95 ≤ x.elems[i].v ∧ x.elems[i].v < 2 ^ 95) → d.accs[n] = x) ∧
      ((∀ g, s.cur.gang = some g → g.index < 64 ∧ g.count < 128 ∧ g.stack.length ≤ 8) → d.gang = s.cur.gang) ∧
      ((∀ e ∈ s.cur.vset, e.1.toNat < 2 ^ 57 ∧ e.2.2 < 2 ^ 64) → s.cur.vset.length ≤ 8 →
        (s.imgVset img).map (fun e => (e.1, e.2.2)) = s.cur.vset.map (fun e => (e.1, e.2.2))) ∧
      ((∀ p ∈ s.cur.pend, p.code < 2 ^ 64) → s.cur.pend.length ≤ 116 → s.cur.pubLines.length ≤ 256 → ∀ fresh, s.cur.imgPend img fresh = s.cur.pend))

/-- A pair word (R48-R53, R55): one that fails a decode check traps as one instruction with the whole word as TVAL; two ALU halves both compute on the
registers as they stood and both write; a second half beside a nop half does what its full-form equivalent does. Of any two halves, both take the
effect of their full-form equivalents, scalar halves before row and vector ones and else H0 first, and the word goes to the next one or where a branch
half goes (R50, R53). A misaligned scalar access in either half traps as one instruction with neither effect; a row or vector half that traps is
named in the record with HV = 1, HALF its number and HDONE the halves that had completed, and a word resumed runs only the halves not done (R52, R333).
The request of a setvl half goes to sD at issue, before the queue runs (R119). No turn stops the word in its midst (R340).
The model's own choices in it are those of log entry 26. -/
def Obligations.PairWords : Prop :=
  ∀ (w : Word) (s t : State) (i : Instr),
    let back := fun (u : State) => u.setCur (fun c => { c with pc := s.cur.pc })
    let whole := fun (u : State) => u.setCur (fun c => { c with skip := 0 })
    let branches := fun (h : Half) => h.hop = 15 ∨ h.hop = 28
    let ran := fun (h : Half) (i : Instr) (u v : State) => ready i u = true ∧ exec i u = .next v ∧ v.cur.tl = s.cur.tl ∧ v.cur.ending = none ∧
      v.stopAt = none ∧ (v.cur.pc = s.cur.pc + 8 ∨ (branches h ∧ v.cur.pc ≠ s.cur.pc))
    let h0 := Half.ofWord w false
    let h1 := Half.ofWord w true
    let alu := fun (h : Half) (second : Bool) =>
      let d := s.reg (halfScalar h.d second)
      let a := s.reg (halfScalar h.a second)
      let m := h.imm.signExtend 64
      let n := h.imm.toNat % 64
      [d, d + a, a + m, d - a, d &&& a, a &&& m, d ||| a, d ^^^ a, a <<< n, a >>> n, a.sshiftRight n, m, a].getD h.hop.toNat 0
    let plain := fun (h : Half) => 1 ≤ h.hop.toNat ∧ h.hop.toNat ≤ 12
    let checked := pairFault h0 h1 s.cur.kind
    (∀ n, checked = some n → exec (.pairWord w) s = .next (takeTrap n w {} s)) ∧
    (checked = none → s.cur.transfers = [] → s.cur.skip = 0 → plain h0 → plain h1 →
      exec (.pairWord w) s = .next ((s.setReg (halfScalar h0.d false) (alu h0 false)).setReg (halfScalar h1.d true) (alu h1 true)).advance) ∧
    (checked = none → s.cur.transfers = [] → s.cur.skip = 0 → s.stopAt = none → h0.hop = 0 → halfEquiv h1 true = some i → ready i s = true →
      s.cur.kind ≠ .cairn → s.cur.ending = none → exec i s = .next t → t.cur.pc = s.cur.pc + 8 → t.cur.tl = s.cur.tl → t.cur.ending = none →
      t.stopAt = none →
      exec (.pairWord w) s = .next t) ∧
    (checked = none → s.cur.transfers = [] → s.cur.kind ≠ .cairn → s.cur.ending = none → s.stopAt = none →
      ∀ i0 i1, halfEquiv h0 false = some i0 → halfEquiv h1 true = some i1 →
      let q0 := halfQueued h0 = true
      let q1 := halfQueued h1 = true
      let issued := if halfQueued h0 && halfQueued h1 then s.issueSetvl [i0, i1] else s
      (s.cur.skip = 0 →
        (∀ u v, ¬(q0 ∧ ¬q1) → ran h0 i0 issued u → ran h1 i1 (back u) v → exec (.pairWord w) s = .next v) ∧
        (∀ u v, q0 → ¬q1 → ran h1 i1 s u → ran h0 i0 (back u) v → exec (.pairWord w) s = .next (v.setCur (fun c => { c with pc := u.cur.pc }))) ∧
        (∀ u v code tval info, q1 → ran h0 i0 issued u → halfBody i1 (back u) = .trap v code tval info → v.trapWaits code = false →
          exec (.pairWord w) s = .next (takeTrap code tval { info with
            hv := true, half := true, hdone := 1 } (whole v))) ∧
        (∀ u v code tval info, q0 → ¬q1 → ran h1 i1 s u → halfBody i0 (back u) = .trap v code tval info → v.trapWaits code = false →
          exec (.pairWord w) s = .next (takeTrap code tval { info with
            hv := true, half := false, hdone := 2 } (whole v))) ∧
        (∀ v code tval info, q0 → q1 → halfBody i0 issued = .trap v code tval info → v.trapWaits code = false →
          exec (.pairWord w) s = .next (takeTrap code tval { info with
            hv := true, half := false, hdone := 0 } (whole v))) ∧
        (let va0 := s.reg (halfScalar h0.a false) + h0.imm.signExtend 64 <<< 3
         let va1 := s.reg (halfScalar h1.a true) + h1.imm.signExtend 64 <<< 3
         (h0.hop = 13 ∨ h0.hop = 14 → va0.toNat % 8 ≠ 0 → exec (.pairWord w) s = .next (takeTrap 0x31 va0 {} s)) ∧
         (h1.hop = 13 ∨ h1.hop = 14 → h0.hop = 0 ∨ plain h0 → va1.toNat % 8 ≠ 0 → exec (.pairWord w) s = .next (takeTrap 0x31 va1 {} s)))) ∧
      (∀ u, s.cur.skip = 1 → ran h1 i1 s u → exec (.pairWord w) s = .next (whole u)) ∧
      (∀ u, s.cur.skip = 2 → ¬branches h1 → ran h0 i0 s u → exec (.pairWord w) s = .next (whole u)))

/-! ### Steps that no program issues -/

/-- The refresh debt, the groups and the channels (R31, R99, R103-R110, R219-R221, R253-R256): a due increment adds 1 to the debt, makes
class 10 pending at +6 and +8 and at +9 closes the group by force and makes its refreshes due, after the refreshes that the engine owes (R107);
a forced refresh pays 1, and the end of the forced refreshes makes class 10, subcode 2 (0xA2) pending for the home hart; the refresh engine
pays 1 on a closed group of an idle bank; a band falls after 1 ms; of the requests whose intervals are met the scoreboard grants a forced
refresh, then an opening for a byte access that waits, then the hart of highest effective priority, in equal priority the next in the
round, then the engine; the memory controller closes a group to whose row no access waits; a bus with a failing wire is retired; a channel
reads a block, writes it under a mask, refuses, and frees a tag, and a request that a group cannot serve waits in the order of its arrival.
A step whose condition does not hold changes nothing.
The model's own choices in it are those of log entries 6, 9, 16, 29 and 31 (that a fall of the band ends its run of low samples). -/
def Obligations.RowAndChannelSteps : Prop :=
  ∀ (s u : State) (c : Ctx) (k' j : Nat) (pa tag stack : Nat) (mask : BitVec 64) (data : BitVec 512),
    let k := s.inputGroup
    let g := s.group k
    let key := s.input.n1 % 8 * 16 + s.input.n2 % 16
    let paid := fun (t : State) (k n : Nat) => (t.group k).debt = (s.group k).debt - n ∧ (t.group k).rptr = ((s.group k).rptr + n) % 1024 ∧
      (t.group k).row = none ∧ t.mem = s.mem
    let pended := fun (t : State) (k code : Nat) (debt : Int) => ∀ c, s.homeCtx (k / 256) (k / 16 % 16) = some c → s.ctx? c.reqid = some c →
      ∃ d, t.ctx? c.reqid = some d ∧ d.regs = c.regs ∧
        d.pend = c.pend ++ [{ code := code, tval := refreshTval k debt (s.bandOf k), extra := 0 }]
    let forcedPaid := fun (t : State) (k : Nat) => paid t k 1 ∧ (t.group k).forcing = true ∧ (t.group k).forced = (s.group k).forced
    let a := pa % 2 ^ 40 / 64 * 64
    let channel := (fld pa 31 4) ^^^ (fld pa 6 4)
    let bad := fun (i : Nat) => s.poison.contains (a / 32 + i)
    let pois := (if bad 0 then 1 else 0) + (if bad 1 then 2 else 0)
    let some1 := fun (i : Nat) => (List.range 32).any (fun b => mask.getLsbD (32 * i + b))
    let all1 := fun (i : Nat) => (List.range 32).all (fun b => mask.getLsbD (32 * i + b))
    let stays := fun (i : Nat) => bad i && some1 i && !all1 i
    let left := (if stays 0 then 1 else 0) + (if stays 1 then 2 else 0)
    let sent := fun (t : State) (read : Bool) (status pois : Nat) (bs : List Byte) => t.hub.channels = s.hub.channels ++
      [{ stack := stack, channel := channel, tag := tag, read := read, status := status, pois := pois, data := bs }]
    let tower := s.input.n1 % 512
    let who := channelWaiter stack pa tag
    let forcedMet := fun (k : Nat) => s.forcedAsks k && s.activationMet k
    let accessMet := fun (e : RowWait) => s.accessAsks tower e && s.activationMet e.group
    let engineMet := fun (k : Nat) => s.engineDue k && s.activationMet k
    let turn := fun (c : Ctx) => roundDistance (s.tower tower).granted c.part
    (g.nextInc ≤ s.clk → s.engineLate k g.nextInc = false →
      (g.debt + 1 < 9 → ∃ t, exec .debtIncrement s = .next t ∧ (t.group k).debt = g.debt + 1 ∧ (t.group k).row = g.row ∧
        (t.group k).lastInc = g.nextInc ∧ (t.group k).nextInc = g.nextInc + refreshInterval (s.bandOf k) ∧ t.mem = s.mem ∧
        (g.debt + 1 = 6 → pended t k 0xA0 6) ∧ (g.debt + 1 = 8 → pended t k 0xA1 8)) ∧
      (g.debt + 1 = 9 → s.NoTransfers → ∃ t, exec .debtIncrement s = .next t ∧ (t.group k).debt = 9 ∧ (t.group k).row = none ∧
        (t.group k).forcing = true ∧ (t.group k).forced = (g.forced || g.row.isSome) ∧ t.mem = s.mem)) ∧
    (g.nextInc ≤ s.clk → s.engineLate k g.nextInc = true → g.rptr < 1024 → ∃ t, exec .debtIncrement s = .next t ∧ (t.group k).debt = 1 ∧
      (t.group k).rptr = (g.rptr + g.debt.toNat) % 1024 ∧ t.mem = s.mem) ∧
    (s.clk < g.nextInc → exec .debtIncrement s = .next s) ∧
    (g.forcing = true → 0 < g.debt → g.row = none → s.activationMet k = true → ∃ t, exec .forcedRefresh s = .next t ∧ forcedPaid t k) ∧
    (g.forcing = true → g.debt ≤ 0 → s.freeAt k ≤ s.clk → ∃ t, exec .forcedRefresh s = .next t ∧ (t.group k).forcing = false ∧
      (t.group k).debt = g.debt ∧ (t.group k).row = g.row ∧ (t.group k).forced = g.forced ∧ t.mem = s.mem ∧ pended t k 0xA2 g.debt) ∧
    (g.forcing = false ∨ (0 < g.debt ∧ s.activationMet k = false) ∨ (g.debt ≤ 0 ∧ s.clk < s.freeAt k) → exec .forcedRefresh s = .next s) ∧
    (0 < g.debt → g.row = none → g.forcing = false → s.homeCtx (k / 256) (k / 16 % 16) = none → s.activationMet k = true →
      ∃ t, exec .refreshEngineRefresh s = .next t ∧ paid t k 1) ∧
    (g.debt ≤ 0 ∨ g.row.isSome = true ∨ g.forcing = true ∨ (s.homeCtx (k / 256) (k / 16 % 16)).isSome = true ∨ s.activationMet k = false →
      exec .refreshEngineRefresh s = .next s) ∧
    (∀ b, s.bands.get key Band.blank = b →
      (0 < b.band → (∃ since, b.low = some since ∧ since + 1000000000 ≤ s.clk) →
        ∃ t, exec .bandFall s = .next t ∧ t.bands.get key Band.blank = { band := b.band - 1, low := none } ∧ t.cur.regs = s.cur.regs ∧
          ∀ i < 64, ∀ n < 16, let h := groupKey (s.input.n1 % 8 * 64 + i) (s.input.n2 % 16) n
            (t.group h).nextInc = max s.clk ((s.group h).lastInc + refreshInterval (b.band - 1))) ∧
      (b.band = 0 ∨ b.low = none ∨ (∃ since, b.low = some since ∧ s.clk < since + 1000000000) → exec .bandFall s = .next s)) ∧
    ((towerGroups tower).find? forcedMet = some k' → (s.group k').row = none →
      ∃ t, exec .scoreboardActivationGrant s = .next t ∧ forcedPaid t k') ∧
    (∀ e, (towerGroups tower).find? forcedMet = none → s.rowQueue.find? accessMet = some e →
      ∃ t, exec .scoreboardActivationGrant s = .next t ∧ (t.group e.group).mc = some e.row ∧ (t.group e.group).opened = s.clk ∧
        (t.group e.group).row = none ∧ t.clk = s.clk ∧ t.rowQueue = s.rowQueue ∧ t.mem = s.mem) ∧
    ((towerGroups tower).find? forcedMet = none → s.rowQueue.find? accessMet = none → s.grantHart tower = some c →
      (c ∈ s.live ∧ s.asksActivation tower c = true ∧ ∀ d ∈ s.live, s.asksActivation tower d = true →
        s.eprio d.reqid < s.eprio c.reqid ∨ (s.eprio d.reqid = s.eprio c.reqid ∧ turn c ≤ turn d)) ∧
      exec .scoreboardActivationGrant s = .next (s.switchTo c.reqid)) ∧
    ((towerGroups tower).find? forcedMet = none → s.rowQueue.find? accessMet = none → s.grantHart tower = none →
      ((towerGroups tower).find? engineMet = some k' → ∃ t, exec .scoreboardActivationGrant s = .next t ∧ paid t k' 1) ∧
      ((towerGroups tower).find? engineMet = none → exec .scoreboardActivationGrant s = .next s)) ∧
    (∀ r, g.mc = some r → s.mcWanted k = false → ∃ t, exec .mcGroupClose s = .next t ∧ (t.group k).mc = none ∧ t.mem = s.mem ∧
      t.clk = max s.clk (max (s.ends (k / 256) g.opened 28000) (s.ends (k / 256) g.commit 10000)) ∧ (t.group k).free = t.clk ∧
      (t.group k).freeFor = 13500) ∧
    (g.mc = none ∨ s.mcWanted k = true → exec .mcGroupClose s = .next s) ∧
    (let v := (s.tower tower).vbHealth
     let bus := s.input.n2 % 34
     let spare0 := v.getLsbD 10 = true
     let spare1 := v.getLsbD 16 = true
     (bus < 32 → (spare0 → fld v.toNat 11 5 ≠ bus) → (spare1 → fld v.toNat 17 5 ≠ bus) → v.getLsbD (32 + bus) = false → sliceOf v bus = some bus) ∧
     (bus = 32 → spare0 → (spare1 → fld v.toNat 17 5 ≠ fld v.toNat 11 5) → v.getLsbD (32 + fld v.toNat 11 5) = false →
       sliceOf v bus = some (fld v.toNat 11 5)) ∧
     ((s.tower tower).failing.contains bus = true → sliceOf v bus = some j →
      ∃ t, exec .sliceBusRetirement s = .next t ∧ t.mem = s.mem ∧ t.cur = s.cur ∧ (t.tower tower).retired = bus :: (s.tower tower).retired ∧
        (t.tower tower).failing.contains bus = false ∧
        let w := (t.tower tower).vbHealth
        w.toNat % 256 = min 255 (v.toNat % 256 + 1) ∧ w.getLsbD 10 = true ∧ (spare0 → w.getLsbD 16 = true) ∧
          (¬spare0 → fld w.toNat 11 5 = j) ∧ (spare0 → ¬spare1 → fld w.toNat 17 5 = j ∧ fld w.toNat 11 5 = fld v.toNat 11 5) ∧
          (spare0 → spare1 → w.getLsbD (32 + j) = true) ∧ (∀ i, 32 ≤ i → i < 64 → v.getLsbD i = true → w.getLsbD i = true)) ∧
     ((s.tower tower).failing.contains bus = false → ∃ t, exec .sliceBusRetirement s = .next t ∧ t.mem = s.mem ∧ t.cur = s.cur ∧
       t.tower tower = s.tower tower)) ∧
    (s.input = .nums stack pa tag → stack < 8 →
      (s.channelFree stack pa tag = true →
        (fld pa 37 3 ≠ stack → ∃ t, exec .channelRead s = .next t ∧ sent t true 2 0 [] ∧ t.mem = s.mem) ∧
        (fld pa 37 3 = stack → s.MemInv → s.rowServeFor who a false = some u → ∃ t, exec .channelRead s = .next t ∧ t.mem = s.mem ∧
          sent t true (if pois = 0 then 0 else 1) pois ((List.range 64).map (fun i => s.dramByte (a + i)))) ∧
        (fld pa 37 3 = stack → s.rowServeFor who a false = none →
          exec .channelRead s = .next (s.holdInput (s.rowJoin a who) .channelRead (.nums stack pa tag))) ∧
        (∃ t, exec .channelRefusedOpc s = .next t ∧ sent t false 3 0 [] ∧ t.mem = s.mem)) ∧
      (s.channelFree stack pa tag = false → exec .channelRead s = .next s ∧ exec .channelRefusedOpc s = .next s)) ∧
    (s.input = .block stack pa tag mask data → stack < 8 → s.channelFree stack pa tag = true →
      (fld pa 37 3 ≠ stack → ∃ t, exec .channelMaskedWrite s = .next t ∧ sent t false 2 0 [] ∧ t.mem = s.mem) ∧
      (fld pa 37 3 = stack → mask = 0 → ∃ t, exec .channelMaskedWrite s = .next t ∧ sent t false 0 0 [] ∧ t.mem = s.mem) ∧
      (fld pa 37 3 = stack → mask ≠ 0 → s.rowServeFor who a true = none → exec .channelMaskedWrite s =
        .next (s.holdInput (s.rowJoin a who) .channelMaskedWrite (.block stack pa tag mask data))) ∧
      (fld pa 37 3 = stack → mask ≠ 0 → s.MemInv → inSideTable a 64 = false → s.rowServeFor who a true = some u →
        ∃ t, exec .channelMaskedWrite s = .next t ∧ sent t false (if left = 0 then 0 else 1) left [] ∧
          (∀ i < 64, t.byte (a + i) = if mask.getLsbD i then data.extractLsb' (8 * i) 8 else s.byte (a + i)) ∧
          (∀ i < 2, all1 i = true → t.poison.contains (a / 32 + i) = false) ∧ ∀ b, b < a ∨ a + 64 ≤ b → t.byte b = s.byte b)) ∧
    (∃ t, exec .channelReply s = .next t ∧ t.mem = s.mem ∧ t.cur = s.cur ∧ ∀ r, r ∈ t.hub.channels ↔
      r ∈ s.hub.channels ∧ ¬(r.stack = s.input.n1 ∧ r.channel = s.input.n2 ∧ r.tag = s.input.n3))

/-- The steps that are writes of a register (R80, R117, R174, R199, R226, R268, R277, R279, R322, R344, R376-R397, R412, R419, R421): each leaves the
register with what its rule makes of the value, and the counters it clears at 0; attestation answers with the report in the buffer.
The model's own choices in it are those of log entries 9, 10, 11 (what a flush ends of a conflict), 15, 32 and 36 (a flush in progress). -/
def Obligations.RegisterSteps : Prop :=
  ∀ (s : State) (c : Ctx),
    let v := s.input.word
    let n := s.input.n1
    let sel := s.mgmt.sensel
    let isl := s.mgmt.islsel
    let mon := s.mgmt.monsel
    let counter := fun (o : Nat) (zero : State → Prop) => n = deviceBase + o → ∃ t, exec .counterClear s = .next t ∧ zero t ∧ t.cur = s.cur ∧ t.mem = s.mem
    let att := s.hub.attReq.toNat
    (∃ t, exec .pgflushWrite s = .next t ∧ t.mem = s.mem ∧ t.hub.pgflush = if s.hub.pgflush.isSome then s.hub.pgflush else some (v.toNat / 4096)) ∧
    (∀ p, s.hub.pgflush = some p → ∃ t, exec .pgflushDone s = .next t ∧ t.hub.pgflush = none ∧ t.mem = s.mem ∧ p ∉ t.cachedUse ∧
      (∀ q, q ≠ p → (q ∈ t.cachedUse ↔ q ∈ s.cachedUse)) ∧
      ((s.group (groupOf (p * 4096))).row ≠ some (rowOf (p * 4096)) → p ∉ t.conflict)) ∧
    (∃ t, exec .pubforceClear s = .next t ∧ t.hub.pubforce.get (n % 32768) 0 = 0 ∧ t.cur = s.cur ∧
      ∀ m, m ≠ n % 32768 → t.hub.pubforce.get m 0 = s.hub.pubforce.get m 0) ∧
    (counter 0x9_0018 (fun t => t.hub.talusRefuse = 0 ∧ t.hub.remDrop = s.hub.remDrop) ∧
      counter 0x9_0020 (fun t => t.hub.remDrop = 0 ∧ t.hub.talusRefuse = s.hub.talusRefuse) ∧
      (∀ i < 512, counter (0x8_0000 + 16 * i) (fun t => (t.tower i).amoLocal = 0 ∧ (t.tower i).amoHub = (s.tower i).amoHub) ∧
        counter (0x8_0008 + 16 * i) (fun t => (t.tower i).amoHub = 0 ∧ (t.tower i).amoLocal = (s.tower i).amoLocal)) ∧
      (∀ i < 10, counter (0x10_0100 + 8 * i) (fun t => vget t.host.cnt i = 0)) ∧
      ∀ i < 128, counter (0x11_1000 + 8 * i) (fun t => t.efpo.cnt.get i 0 = 0)) ∧
    (v.toNat % 4096 = 0 → s.hub.attBusy = false → ∃ t, exec .attestationRequest s = .next t ∧ t.hub.attReq = v ∧ t.hub.attBusy = true ∧
      t.hub.attDone = false ∧ t.hub.attErr = false ∧ t.mem = s.mem) ∧
    (s.hub.attBusy = true →
      (dramEnd < att + 32768 → ∃ t, exec .attestationDone s = .next t ∧ t.hub.attBusy = false ∧ t.hub.attErr = true ∧ t.mem = s.mem) ∧
      (att + 32768 ≤ dramEnd → att % 4096 = 0 → s.MemInv → ∃ t, exec .attestationDone s = .next t ∧ t.hub.attBusy = false ∧ t.hub.attDone = true ∧
        (∀ i < 32, t.byte (att + i) = s.byte (att + i)) ∧ t.num (att + 32) 64 = s.hub.measure.toNat ∧
        t.num (att + 98) 2 = s.hub.incarnation.toNat ∧ ∀ b, b < att ∨ att + 32768 ≤ b → t.byte b = s.byte b)) ∧
    (∃ t, exec .featlockWrite s = .next t ∧ t.hub.featLock = (s.hub.featLock || v.getLsbD 0) ∧ t.cur = s.cur) ∧
    (∃ t, exec .efdevidWrite s = .next t ∧ t.cur = s.cur ∧ (s.efpo.lock = true → t = s) ∧
      (s.efpo.lock = false → t.efpo.devid = v.extractLsb' 0 13 ∧ t.efpo.lock = v.getLsbD 15)) ∧
    (∃ t, exec .sensorReadmit s = .next t ∧ (t.sensor sel).failed = false ∧ (t.sensor sel).stuck = false ∧ (t.sensor sel).range = false ∧
      (t.sensor sel).neigh = false) ∧
    (∃ t, exec .sensorMarkFailed s = .next t ∧ (t.sensor sel).failed = true ∧ (t.sensor sel).stuck = (s.sensor sel).stuck) ∧
    (∃ t, exec .alarmClear s = .next t ∧ (t.sensor sel).alarm = false ∧ (t.sensor sel).failed = (s.sensor sel).failed ∧ t.cur = s.cur) ∧
    (∃ t, exec .mipClear s = .next t ∧ t.mgmt.mip = s.mgmt.mip &&& v.extractLsb' 0 11 ∧ t.cur = s.cur) ∧
    (s.ctx? cairnId = some c → ∃ t d, exec .logidxAppend s = .next t ∧ t.mgmt.logidx = s.mgmt.logidx + 1 ∧ t.ctx? cairnId = some d ∧
      (n % 32 ≠ 0 → d.reg (BitVec.ofNat 6 (n % 32)) = s.mgmt.logidx) ∧ d.pc = c.pc) ∧
    (∃ t, exec .monitorClear s = .next t ∧ (t.monitor mon).mn = BitVec.allOnes 64 ∧ (t.monitor mon).mx = 0 ∧
      (t.monitor mon).bins = Vector.replicate 16 0 ∧ (t.monitor mon).source = (s.monitor mon).source ∧ t.cur = s.cur) ∧
    (∃ t, exec .permcfgDrop s = .next t ∧ t.power.dropPending = true ∧ t.power.pool = s.power.pool ∧ t.cur = s.cur) ∧
    (∃ t, exec .islthrWrite s = .next t ∧ t.cur.regs = s.cur.regs ∧ t.cur.pc = s.cur.pc ∧ t.mem = s.mem ∧
      (isl = 32 → t.hubLevel = v.toNat % 8 ∧ t.hubGate = v.getLsbD 24 ∧ t.cur = s.cur) ∧
      (isl < 32 → (t.island isl).level = v.toNat % 8 ∧ (t.island isl).gate = v.getLsbD 24 ∧ (t.island isl).floor = false)) ∧
    (s.cur.kind ≠ .cairn → s.cur.sup = true →
      (exec .ctbWrite s = .next (s.setCur (fun c => { c with ctb := v, ctbDone := c.ctbDone &&& v }))) ∧
      (exec .prioWrite s = .next (s.setCur (fun c => { c with prio := v.toNat % 8 }))) ∧
      (∃ t, exec .lclassWrite s = .next t ∧ t.cur.lclass = v.toNat % 4 ∧ t.cur.regs = s.cur.regs ∧
        t.cur.vl.toNat = min s.cur.vl.toNat (vlMax s.cur.vcfg (v.toNat % 4))) ∧
      (∃ t, exec .faccWrite s = .next t ∧
        let feat := if n % 4 = 0 then Config.feat0 else 0
        let old := vget s.cur.facc (n % 4)
        vget t.cur.facc (n % 4) = (if s.hub.featLock then old &&& v &&& feat else v &&& feat) ∧
          ∀ m < 4, m ≠ n % 4 → vget t.cur.facc m = vget s.cur.facc m) ∧
      (s.cur.remoteBusy = false → ∃ t, exec .serialRegisterWrite s = .next t ∧ t.mem = s.mem ∧ t.cur.regs = s.cur.regs ∧
        (n ≠ 1 → t.cur.snext = v.extractLsb' 0 32) ∧ (n = 1 → t.cur.snext = s.cur.snext) ∧
        (s.cur.transfers = [] → t.cur.sfloor = t.cur.snext)) ∧
      (s.cur.remoteBusy = true → exec .serialRegisterWrite s = .next s) ∧
      (n = 0x106 → exec .registerWrite s = .next (s.setCur (fun c => { c with tscratch := v }))) ∧
      (s.cur.kind = .tower →
        (vcfgFault v = none → ∃ t, exec .vcfgWrite s = .next t ∧ t.cur.vcfg = v &&& 0xFF7 ∧ t.cur.regs = s.cur.regs ∧
          t.cur.vl.toNat = min s.cur.vl.toNat (vlMax (v &&& 0xFF7) s.cur.lclass)) ∧
        (∃ t, exec .vlWrite s = .next t ∧ t.cur.vl.toNat = min v.toNat (vlMax s.cur.vcfg s.cur.lclass) ∧ t.cur.estart = 0) ∧
        (tcfgFault s.cur.lclass v = none → ∃ t, exec .tcfgWrite s = .next t ∧ t.cur.tcfgN (n % 4) = v &&& 0xFFFF_FFFF_031F_FFFF ∧
          t.cur.tiles = s.cur.tiles) ∧
        ((∀ d ∈ s.live, ∀ b < 64, d.waitsOn .semt (semObj s.cur.place b) = false) → ∃ t, exec .sembitsWrite s = .next t ∧
          (t.tower s.cur.place).sem = v ∧ t.mem = s.mem))) ∧
    (n = deviceBase + 0x10_0000 → ∃ t, exec .registerWrite s = .next t ∧ t.host.en = v.getLsbD 0 ∧ t.cur = s.cur)

/-- The requester side of the transfers and remote operations of the hart whose turn it is (R199, R205, R214-R216, R242, R265, R271-R275, R278,
R408-R410): a Traverse move copies its rows and completes, or fails with class 14, subcode 9 or 10; a copy engine reads a chunk's bytes with
their poison and writes them whole, after which a granule is poisoned exactly where a poisoned byte reached it or sound bytes did not
cover it; a local chunk is read, then written, and the last completes the copy; a response completes its operation or makes its failure
pending; a due request, chunk, probe or beacon is sent again, and after 16 sends fails; beacons, once for each 100 us, acknowledgements
and probe answers act on the beacon set and the incarnations.
The model's own choices in it are those of log entries 8, 9, 10 and 20. -/
def Obligations.RequesterSteps : Prop :=
  ∀ (s u v : State) (x : Transfer) (put sm : Bool) (own : RowRun) (tower etag dev sz owner kind d id who code ch : Nat) (e : Exposure) (src dst : List Byte)
    (km : Option Nat) (addr opnd exp root : Word) (p : RemoteResponse) (q : CopyPacket) (fp : FloorPacket) (c : Ctx) (fl : Flight) (leaf : Leaf)
    (units : List Nat) (got : List (List Byte × List Bool)) (pas : List (Option Nat)) (bs : List Byte) (bad : List Bool) (out : List (Nat × List Bool)),
    let mine := s.cur.reqid = s.input.n1 ∧ s.cur.run = .running
    let tag := s.input.n2
    let chunk := s.input.n3
    let named := s.cur.transfer tag = some x
    let freed := fun (t : State) (c : Ctx) (tag : Nat) => t.cur.ctb = c.ctb ||| 1#64 <<< tag ∧ t.cur.transfers = c.transfers.filter (fun y => y.tag != tag)
    let failed := fun (t : State) (tag code : Nat) (tval extra : Word) => t.cur.pend = s.cur.pend ++ [{ code := code, tval := tval, extra := extra }] ∧
      t.cur.busyTag tag = true ∧ (∀ y ∈ t.cur.transfers, y.tag = tag → y.failed = true) ∧ t.cur.ctb = s.cur.ctb
    let from_ := fun (i : Nat) => s.openBase (groupKey (if put then own else e.rows).tower (if put then own else e.rows).bank
      ((if put then own else e.rows).group + i))
    let into := fun (i : Nat) => s.openBase (groupKey (if put then e.rows else own).tower (if put then e.rows else own).bank
      ((if put then e.rows else own).group + i))
    let moves := x.work = .traverse put own tower etag ∧
      (∀ m ∈ s.traverses, m.1 = s.cur.reqid → m.2.2.1 = true → m = (s.cur.reqid, tag, put, own, tower, etag))
    let may := bitAt e.acc (if put then 1 else 0) = true
    let copies := fun (side : Nat) => x.work = .copy src dst side dev km
    let sameHart := fun (v : State) => u.cur.reqid = s.cur.reqid ∧ u.cur.run = .running ∧ u.cur.transfers = v.cur.transfers
    let remote := x.work = .remote kind sz sm owner addr opnd exp d
    let answers := s.input = .response p ∧ s.cur.reqid = p.reqid ∧ s.cur.run = .running ∧ s.findSerial p.reqid p.serial = some x ∧ remote ∧
      s.incarnationChanged p.src p.incarn p.status = false
    let last := x.done.length + 1 = x.chunks
    let newest := fun (owner : Nat) => ∀ b ∈ s.cur.beacons, b.1 = owner → below b.2 x.serial = true
    let arrives := s.input = .copy q ∧ s.cur.reqid = q.reqid ∧ s.cur.run = .running ∧ s.findSerial q.reqid q.serial = some x ∧ q.chunk < x.chunks ∧
      x.done.contains q.chunk = false ∧ s.incarnationChanged q.src q.incarn q.status = false
    let come := s.received q.src (copyFlits q)
    let es := dEsize dst
    let piece := fun {α : Type} (xs : List α) (i : Nat) => (xs.drop (i * es)).take es
    let vas := chunkVas dst ch
    (mine → named → moves →
      (s.exposure tower etag = some e → may → e.rows.len = own.len → s.MemInv → s.conflict = [] → (put = true → s.cur.unfenced = []) →
        (∀ i < own.len, (s.group (groupKey (if put then e.rows else own).tower (if put then e.rows else own).bank
          ((if put then e.rows else own).group + i))).row.getD 0 < 1024) →
        ∃ t, exec .transferComplete s = .next t ∧ freed t s.cur tag ∧ t.cur.regs = s.cur.regs ∧
          (∀ i < own.len, ∀ b < 8192, t.byte (into i + b) = s.byte (from_ i + b)) ∧
          (∀ b, (∀ i < own.len, b < into i ∨ into i + 8192 ≤ b) → t.byte b = s.byte b)) ∧
      ((s.exposure tower etag = none ∨ (s.exposure tower etag = some e ∧ ¬may)) →
        ∃ t, exec .transferFail s = .next t ∧ failed t tag 0xE9 (BitVec.ofNat 64 tag) 0 ∧ t.mem = s.mem) ∧
      (s.exposure tower etag = some e → may → e.rows.len ≠ own.len →
        ∃ t, exec .transferFail s = .next t ∧ failed t tag 0xEA (BitVec.ofNat 64 tag) 0 ∧ t.mem = s.mem)) ∧
    (EngineReads units root id who (dEsize src) s (chunkVas src ch) got u →
      readChunk units root id who src ch s = .ok (((got.map (fun g => g.1)).flatten, (got.map (fun g => g.2)).flatten), u)) ∧
    (EngineWrites units root id who code s ((vas.zip (List.range vas.length)).map (fun a => (a.1, piece bs a.2))) pas u →
      writeChunk units root id who code dst ch bs bad s = .ok ((), u.spreadPoison ((pas.zip (List.range pas.length)).filterMap (fun a =>
        a.1.map (fun pa => (pa, piece bad a.2)))))) ∧
    (s.MemInv → inSideTable leaf.pa bs.length = false → ∀ a, (s.writePhys (some id) code leaf bs).byte a =
      if leaf.pa ≤ a ∧ a < leaf.pa + bs.length then bs.getD (a - leaf.pa) 0 else s.byte a) ∧
    (∀ g, g ∈ (s.spreadPoison out).poison ↔ (∃ o ∈ out, ∃ i, o.2[i]? = some true ∧ (o.1 + i) / 32 = g) ∨
      (g ∈ s.poison ∧ ¬∀ i < 32, ∃ o ∈ out, ∃ n, o.1 + n = 32 * g + i ∧ o.2[n]? = some false)) ∧
    (s.heldChunk x.tag ch = none → readChunk (engineUnits s.cur) x.ptroot s.cur.reqid (s.ownWaiter x.tag ch) src ch s = .ok ((bs, bad), v) →
      writeChunk (engineUnits s.cur) x.ptroot s.cur.reqid (s.ownWaiter x.tag ch) (pubCode x.tag ch (km.getD 0)) dst ch bs bad v = .ok ((), u) →
      s.localChunk x src dst km ch = .ok u) ∧
    (∀ fl, s.heldChunk x.tag ch = some fl → bad = (List.range fl.bytes.length).map (fun i => fl.pois.contains i) →
      writeChunk (engineUnits s.cur) x.ptroot s.cur.reqid (s.ownWaiter x.tag ch) (pubCode x.tag ch (km.getD 0)) dst ch fl.bytes bad s = .ok ((), u) →
      s.localChunk x src dst km ch = .ok u) ∧
    (mine → named → copies 0 → s.chunkReady x src dst chunk = true → readAhead x src (s.chunkAhead x src dst chunk) s = .ok v → sameHart v →
      v.localChunk x src dst km chunk = .ok u → ∃ t, exec .copyChunkPerformed s = .next t ∧ t.mem = u.mem ∧
        (last → freed t u.cur tag) ∧
        (¬last → t.cur.ctb = u.cur.ctb ∧ ∀ y ∈ t.cur.transfers, y.tag = tag → chunk ∈ y.done) ∧
        (∀ k, km = some k → 0 < k → k < 8 → chunk < 8192 → (t.cur.mask k).getLsbD chunk = true)) ∧
    (mine → named → copies 0 → x.chunks = 1 → x.done = [] → s.chunkReady x src dst 0 = true →
      readAhead x src (s.chunkAhead x src dst 0) s = .ok v → sameHart v → v.localChunk x src dst km 0 = .ok u → ∃ t, exec .transferComplete s = .next t ∧ t.mem = u.mem ∧ freed t u.cur tag) ∧
    (answers →
      (p.status = 0 → d < 32 → ∃ t, exec .remoteResponseReceived s = .next t ∧ t.mem = s.mem ∧
        t.cur.ctb = s.cur.ctb ||| 1#64 <<< x.tag ∧ t.cur.busyTag x.tag = false ∧ (d ≠ 0 → t.reg (BitVec.ofNat 6 d) = BitVec.ofNat 64 (p.result.toNat % 2 ^ (8 * 2 ^ sz))) ∧
        (kind ≤ 4 → newest owner → (owner, x.serial) ∈ t.cur.beacons)) ∧
      (∀ z ∈ [(2, 0x114, p.cause), (3, 0x115, 0), (4, 0x117, 0), (6, 0x118, 0), (8, 0x11A, 0)], p.status = z.1 → d < 32 →
        ∃ t, exec .remoteResponseReceived s = .next t ∧ t.mem = s.mem ∧ failed t x.tag z.2.1 (remoteTval x.tag owner z.2.2) 0 ∧
          (d ≠ 0 → t.reg (BitVec.ofNat 6 d) = 0)) ∧
      (p.status = 5 → d < 32 → ∃ t, exec .remoteResponseReceived s = .next t ∧ failed t x.tag 0xF1 addr (remoteTval x.tag owner 0))) ∧
    (s.input = .nums s.cur.reqid x.serial.toNat 0 → s.cur.run = .running → s.findSerial s.cur.reqid x.serial = some x → remote →
      x.flights = [fl] → fl.chunk = 0 → fl.next ≤ s.clk → (∀ y ∈ s.cur.transfers, y.tag = x.tag → y = x) →
      (fl.sends < 16 → ∃ t r, exec .retransmissionTimer s = .next t ∧ s.Sent t owner (.request owner r) ∧ r.serial = x.serial ∧
        r.reqid = s.cur.reqid ∧ r.addr = addr.extractLsb' 0 57 ∧ r.floor = s.cur.sfloor ∧ r.sent = s.time ∧ ∀ y ∈ t.cur.transfers, y.tag = x.tag →
          y.flights.any (fun g => g.sends == fl.sends + 1 && g.interval == min (2 * fl.interval) 1000000000) = true) ∧
      (16 ≤ fl.sends → d < 32 → ∃ t, exec .retransmissionTimer s = .next t ∧
        failed t x.tag (if fl.status = 1 then 0x113 else 0x111) (remoteTval x.tag owner 0) 0)) ∧
    (∀ n next iv who, s.input = .nums owner 0 1 → s.hub.probes.find? (fun y => y.1 == owner) = some (owner, n, next, iv, who) → next ≤ s.clk →
      n < 16 → ∃ t r, exec .retransmissionTimer s = .next t ∧ s.Sent t owner (.probe owner r) ∧ r.reqid = who ∧ t.cur = s.cur ∧
        (owner, n + 1, s.clk + min (2 * iv) 1000000000, min (2 * iv) 1000000000, who) ∈ t.hub.probes) ∧
    (s.hub.beaconed < s.clk / 100000000 → ∃ t, exec .floorBeaconTimer s = .next t ∧ t.cur = s.cur ∧ t.mem = s.mem ∧
      t.hub.beaconed = s.hub.beaconed + 1 ∧ ∀ c ∈ s.live, ∀ b ∈ c.beacons,
      ∃ r, r.reqid = c.reqid ∧ r.floor = c.sfloor ∧ (b.1 = s.devId → .beacon b.1 r ∈ t.efpo.loop) ∧
        (b.1 ≠ s.devId → s.efpo.links ≠ 0 → .beacon b.1 r ∈ t.efpo.out)) ∧
    (s.clk / 100000000 ≤ s.hub.beaconed → exec .floorBeaconTimer s = .next s) ∧
    (s.input = .floor fp →
      (s.ctx? fp.reqid = some c → ∃ t g, exec .beaconAckReceived s = .next t ∧ t.ctx? fp.reqid = some g ∧
        g.beacons = c.beacons.filter (fun b => !(b.1 == fp.src && below b.2 fp.floor)) ∧ g.regs = c.regs) ∧
      (s.NoTransfers → s.hub.probes.any (fun y => y.1 == fp.src) = true → ∃ t, exec .probeAnswerReceived s = .next t ∧
        t.hub.incarnations.find fp.src = some fp.incarn ∧ t.hub.probes.any (fun y => y.1 == fp.src) = false ∧ t.cur = s.cur)) ∧
    (arrives → q.status = 0 → copies 1 → come.devTurn x q.chunk = false → ∃ t, exec .copyDataAtRequester s = .next t ∧ t.mem = s.mem ∧ t.cur = s.cur) ∧
    (arrives → q.status = 0 → last → x.failing = none →
      (copies 1 → sameHart s → come.devTurn x q.chunk = true → writeChunk (engineUnits s.cur) x.ptroot q.reqid (come.ownWaiter x.tag q.chunk)
          (pubCode x.tag q.chunk (km.getD 0)) dst q.chunk q.data (piecesBad q.data.length q.poison) come = .ok ((), u) →
        ∃ t, exec .copyDataAtRequester s = .next t ∧ t.mem = u.mem ∧ freed t u.cur x.tag ∧ (u.cur.beacons = s.cur.beacons → newest dev → (dev, x.serial) ∈ t.cur.beacons)) ∧
      (copies 2 → ∃ t, exec .copyAcknowledgementReceived s = .next t ∧ t.mem = s.mem ∧ freed t s.cur x.tag ∧ (newest dev → (dev, x.serial) ∈ t.cur.beacons))) ∧
    (mine → named → copies 1 → (∀ n < x.chunks, n ∈ x.done ∨ n = chunk) → x.expinc.isSome = true → x.flights = [fl] → fl.chunk = chunk →
      fl.next ≤ s.clk → fl.sends < 16 → (∀ y ∈ s.cur.transfers, y.tag = tag → y = x) →
      ∃ t r, exec .copyChunkRetransmit s = .next t ∧ s.Sent t dev (.copyRead dev r) ∧ r.chunk = chunk ∧ r.serial = x.serial ∧
        r.desc = src ∧ t.mem = s.mem)

/-- The owner side (R263, R264, R267, R270, R272, R410): a request of a known incarnation is executed once, answered and recorded, a repeated
one is answered from its entry, one of another incarnation refused, a stale one dropped, one that meets a busy row group waits; radd,
rswap, rcas, rmax (signed and not), rget and rput do on the word what R263 says and answer its old value; rpush appends to a queue and answers
the place, all ones where it is full; a floor beacon raises the floor and is acknowledged; a probe is answered; an idle record is freed
after 2 ms; a chunk of a remote copy is read or written once (as RequesterSteps states for readChunk and writeChunk) and answered.
The model's own choices in it are those of log entries 9, 10, 20 and 39. -/
def Obligations.OwnerSteps : Prop :=
  ∀ (s t u : State) (p : RemoteRequest) (r : RemoteResult) (e : TalusResult) (z : TalusRecord) (fp : FloorPacket) (q : CopyPacket) (leaf slot : Leaf)
    (root : Word) (bs : List Byte) (bad : List Bool) (win : TalusWindow),
    let s1 := s.received p.src (Config.packetFlits 0)
    let late := 2000000 < s.time.toNat - p.sent.toNat
    let raised := s1.raiseFloor p.reqid p.floor
    let known := s.input = .request p ∧ ¬late ∧ s.talusRecord p.reqid = some z ∧ below p.serial (if below z.floor p.floor then p.floor else z.floor) = false
    let same := fun (e : TalusResult) => e.reqid == p.reqid && e.serial == p.serial
    let first := raised.hub.results.find? same = none
    let answered := fun (b v : State) (st cause : Nat) (w : Word) => ∃ o, b.Sent v p.reply (.response p.reply o) ∧ o.reqid = p.reqid ∧
      o.serial = p.serial ∧ o.status = st ∧ o.cause = cause ∧ o.result = w ∧ o.incarn = b.hub.incarnation
    let who := talusWaiter p.reqid p.serial
    let w := 2 ^ p.sz
    let old := t.num leaf.pa w
    let b := p.opnd.toNat % 2 ^ (8 * w)
    let rooted := s.jobRoot p.job = some root ∧ s.MemInv
    let va := requestVa p
    let head := t.num leaf.pa 8
    let tail := t.num (leaf.pa + 8) 8
    let cap := 2 ^ t.num (leaf.pa + 16) 1
    let queue := p.kind = 4 ∧ rooted ∧ va.toNat % 64 = 0 ∧ s.translateAt [536] root va .readWrite = .ok (leaf, t) ∧ leaf.mt = mtCached ∧
      t.unpublished p.reqid leaf 64 = false ∧ poisoned t.poison leaf.pa 64 = false ∧ t.Settled leaf ∧ inSideTable leaf.pa 64 = false
    let seen := t.noteUse leaf.pa leaf.mt
    let header := headerOk leaf.pa (t.bytes leaf.pa 64)
    let floorNow := fun (r : TalusRecord) => if below r.floor fp.floor then fp.floor else r.floor
    let c1 := s.received q.src (copyFlits q)
    let lateCopy := 2000000 < (s.time.extractLsb' 0 32 - q.sent).toNat
    let heard := s.input = .copy q ∧ ¬lateCopy ∧ s.talusRecord q.reqid = some z ∧
      below q.serial (if below z.floor q.floor then q.floor else z.floor) = false ∧ q.incarn = s.hub.incarnation ∧ s.jobRoot q.job = some root
    let chunked := heard ∧ s.hub.windows = [] ∧ s.hub.results.length < 65536 ∧ q.chunk < 64
    let opened := (c1.raiseFloor q.reqid q.floor).setHub (fun h => { h with
      windows := h.windows ++ [{ reqid := q.reqid, serial := q.serial, low := 0, map := 0, buffer := none }] })
    let whoCopy := copyWaiter q
    let replied := fun (b v : State) (data : Bool) (bs : List Byte) (pois : List Nat) =>
      ∃ o, b.Sent v q.src (if data then .copyData q.src o else .copyAck q.src o) ∧
        o.status = 0 ∧ o.chunk = q.chunk ∧ o.serial = q.serial ∧ o.data = bs ∧ o.poison = pois
    (s.input = .request p → late → ∃ v, exec .remoteRequestReceived s = .next v ∧ v.hub.remDrop = satInc s.hub.remDrop ∧ v.efpo.out = s.efpo.out ∧
      v.mem = s.mem) ∧
    (known → raised.hub.results.find? same = some e → ∃ v, exec .remoteRequestReceived s = .next v ∧ v.mem = s.mem ∧
      answered s v e.status e.cause e.result) ∧
    (known → first → p.kind ≤ 4 → p.expinc = s.hub.incarnation → raised.talusUse < 65536 →
      (raised.executeRemote p = .done r u → ∃ v, exec .remoteRequestReceived s = .next v ∧ v.mem = u.mem ∧
        answered u v r.status r.cause r.value ∧ v.hub.results = u.hub.results ++
          [{ reqid := p.reqid, serial := p.serial, status := r.status, cause := r.cause, result := r.value }]) ∧
      (raised.executeRemote p = .waits u → ∃ v, exec .remoteRequestReceived s = .next v ∧ v.mem = s.mem ∧ v.efpo.out = s.efpo.out ∧
        v.waitingIn = s.waitingIn ++ [(.remoteRequestReceived, .request p)])) ∧
    (known → first → p.kind ≤ 4 → p.expinc ≠ s.hub.incarnation → ∃ v, exec .remoteRequestReceived s = .next v ∧ v.mem = s.mem ∧
      answered s v 7 0 0) ∧
    (known → first → p.kind ≤ 4 → p.expinc = s.hub.incarnation → 65536 ≤ raised.talusUse → ∃ v, exec .remoteRequestReceived s = .next v ∧
      v.mem = s.mem ∧ answered s v 1 0 0 ∧ v.hub.talusRefuse = satInc s.hub.talusRefuse) ∧
    (known → first → p.kind = 5 ∨ p.kind = 6 → raised.executeRemote p = .done r u → ∃ v, exec .remoteRequestReceived s = .next v ∧
      v.mem = u.mem ∧ answered u v r.status r.cause r.value ∧ v.hub.results = u.hub.results) ∧
    (s.jobRoot p.job = none → s.executeRemote p = .done { status := 8, cause := 0, value := 0 } s) ∧
    (rooted → p.kind ≠ 4 →
      s.translateAt [536] root va (if p.kind = 5 then .read else if p.kind = 6 then .write else .readWrite) = .ok (leaf, t) →
      t.ServesAgent p.reqid who leaf w (p.kind != 5) u → u.Settled leaf → inSideTable leaf.pa w = false →
      (p.kind ≠ 6 → poisoned t.poison leaf.pa w = false) → (∀ m ∈ u.traverses, m.1 = p.reqid → m.2.2.1 = false) →
      ∀ new, (p.kind = 0 ∧ new = (old + p.opnd.toNat) % 2 ^ (8 * w)) ∨ (p.kind = 1 ∧ new = b) ∨
        (p.kind = 2 ∧ new = if old = p.exp.toNat % 2 ^ (8 * w) then b else old) ∨
        (p.kind = 3 ∧ p.u = true ∧ new = max old b) ∨
        (p.kind = 3 ∧ p.u = false ∧ new = if sextN old (8 * w) < sextN b (8 * w) then b else old) ∨
        (p.kind = 5 ∧ new = old) ∨ (p.kind = 6 ∧ new = b) →
        ∃ v, s.executeRemote p = .done { status := 0, cause := 0, value := if p.kind = 6 then 0 else BitVec.ofNat 64 old } v ∧
          v.num leaf.pa w = new ∧ ∀ a, a < leaf.pa ∨ leaf.pa + w ≤ a → v.byte a = t.byte a) ∧
    (p.kind = 4 → rooted → va.toNat % 64 ≠ 0 → s.executeRemote p = .done { status := 6, cause := 0, value := 0 } s) ∧
    (queue → header = false → s.executeRemote p = .done { status := 6, cause := 0, value := 0 } (s.usesOf seen)) ∧
    (queue → header = true → cap ≤ (tail + 2 ^ 64 - head) % 2 ^ 64 →
      ∃ v, s.executeRemote p = .done { status := 0, cause := 0, value := BitVec.allOnes 64 } v ∧ v.mem = t.mem) ∧
    (queue → header = true → (tail + 2 ^ 64 - head) % 2 ^ 64 < cap →
      seen.translateAt [536] root (va + BitVec.ofNat 64 (64 + 8 * (tail % cap))) .readWrite = .ok (slot, u) → slot.mt = mtCached →
      u.unpublished p.reqid slot 8 = false → inSideTable slot.pa 8 = false →
      (slot.pa + 8 ≤ leaf.pa + 8 ∨ leaf.pa + 16 ≤ slot.pa) →
      ∃ v, s.executeRemote p = .done { status := 0, cause := 0, value := BitVec.ofNat 64 tail } v ∧ v.num slot.pa 8 = p.opnd.toNat ∧
        v.num (leaf.pa + 8) 8 = (tail + 1) % 2 ^ 64 ∧
        ∀ a, (a < slot.pa ∨ slot.pa + 8 ≤ a) → (a < leaf.pa + 8 ∨ leaf.pa + 16 ≤ a) → v.byte a = u.byte a) ∧
    (s.input = .floor fp → s.time.toNat - fp.sent.toNat ≤ 2000000 → s.talusRecord fp.reqid = some z → s.hub.records = [z] →
      ∃ v o, exec .floorBeaconReceived s = .next v ∧ v.hub.records = [{ z with floor := floorNow z, last := s.clk }] ∧
        s.Sent v fp.src (.beaconAck fp.src o) ∧ o.reqid = fp.reqid ∧ o.floor = floorNow z ∧ v.mem = s.mem) ∧
    (s.input = .floor fp → ∃ v o, exec .incarnationProbeReceived s = .next v ∧ s.Sent v fp.reply (.probeAnswer fp.reply o) ∧ o.reqid = fp.reqid ∧
      o.incarn = s.hub.incarnation ∧ v.hub.results = s.hub.results ∧ v.mem = s.mem) ∧
    (s.talusRecord s.input.n1 = some z → (∀ e ∈ s.hub.results, e.reqid ≠ s.input.n1) → (∀ e ∈ s.hub.windows, e.reqid ≠ s.input.n1) →
      z.last + 2000000000 ≤ s.clk → ∃ v, exec .talusRecordExpiry s = .next v ∧ v.talusRecord s.input.n1 = none ∧
        ∀ x ∈ s.hub.records, x.reqid ≠ s.input.n1 → x ∈ v.hub.records) ∧
    (chunked → opened.chunkDev root q.desc q.chunk .read = false →
      readChunk [536] root q.reqid whoCopy q.desc q.chunk opened = .ok ((bs, bad), u) → ∃ v, exec .copyReadRequestReceived s = .next v ∧
        v.mem = u.mem ∧ replied u v true bs (poisonPieces bad)) ∧
    (chunked → opened.chunkDev root q.desc q.chunk .write = false →
      writeChunk [536] root q.reqid whoCopy (opened.serialTag q.reqid q.serial q.chunk) q.desc q.chunk q.data (piecesBad q.data.length q.poison) opened =
        .ok ((), u) →
      ∃ v, exec .copyDataAtOwner s = .next v ∧ v.mem = u.mem ∧ replied u v false [] []) ∧
    (heard → (c1.raiseFloor q.reqid q.floor).window q = some win → q.chunk < win.low + 64 → win.taken q.chunk = true →
      ∃ v, exec .copyDataAtOwner s = .next v ∧ v.mem = s.mem ∧ replied s v false [] [])

/-- Efpo's links and time, start-up and the pace unit (R388-R392, R395, R407, R408, R411-R416): a packet with a bad CRC, or of another type,
destination or hop count, is dropped and counted; ports come up under LOCK and count their
losses; an exchange sends and its answer slews, or is discarded past 1 us; start-up loads slot A, else B, measures what it loads, and
stops where neither passes; it keeps VBHEALTH (R221); a member sends its request, the coordinator agrees
on a higher one at once and on a lower one after 2 ms, an agreement is taken, acknowledged and applied at its stamp, and silence counts as 7.
The model's own choices in it are those of log entries 4, 9, 10, 30 and 32. -/
def Obligations.LinkAndPaceSteps : Prop :=
  ∀ (s : State) (port seq ta tb t1 : Nat) (p : PacePacket) (a : Agreement) (since coord : Nat) (f : Frame) (x : Slot),
    let n1 := s.input.n1
    let up := fun (t : State) (i : Nat) => t.efpo.links.getLsbD i
    let count := fun (t : State) (i : Nat) => t.efpo.cnt.get (n1 % 16 * 8 + i) 0
    let plus := fun (w : Word) => BitVec.ofNat 64 (min (w.toNat + 1) (2 ^ 64 - 1))
    let trip : Int := ((s.time.toNat : Int) - t1) - ((tb : Int) - ta)
    let next : BitVec 16 := if s.hub.incarnation = 0xFFFF then 1 else s.hub.incarnation + 1
    let started := fun (t : State) (m : BitVec 512 × List (BitVec 16 × BitVec 512)) => t.clk = s.clk ∧ t.agenda = s.agenda ∧
      (s.hub.bootSlot = none → t.hub.startStat = 1 ∧ t.hub.measure = m.1 ∧ t.hub.attLog = m.2) ∧
      (∀ k, s.hub.bootSlot = some k → t.hub.startStat = 0 ∧ t.hub.booted = k ∧ t.hub.incarnation = next ∧
        t.num (Config.residentBase + 2) 2 = next.toNat ∧ (t.hub.measure, t.hub.attLog) = (s.hub.slot k).measure m) ∧ t.hub.slots = s.hub.slots ∧ t.cur = State.reset.cur ∧ t.others = State.reset.others ∧
      t.groups = State.reset.groups ∧ t.poison = [] ∧ ∀ i, (t.tower i).vbHealth = (s.tower i).vbHealth
    let others := s.paceMembers.filter (· ≠ s.devId)
    let agreed := fun (t : State) (level : Nat) => t.pace.agreed = level ∧ t.pace.agreedNo = s.pace.agreedNo + 1 ∧
      ∀ d ∈ others, ∃ q, (s.efpo.links ≠ 0 → .paceAgreement d q ∈ t.efpo.out) ∧ q.level = level ∧ q.number = s.pace.agreedNo + 1 ∧
        q.stamp = s.time + 50000 ∧ q.group = s.pace.group
    let takes := s.input = .pace p ∧ s.acceptsPace p = true ∧ (s.received p.src 1).paceStale p = false
    let level := p.level % 8
    (s.input = .frame port f →
      let here := fun (t : State) (i : Nat) => t.efpo.cnt.get (port % 16 * 8 + i) 0
      let counted := fun (i : Nat) => ∃ t, exec .efpoPacketDropped s = .next t ∧ t.cur = s.cur ∧ t.mem = s.mem ∧ t.efpo.out = s.efpo.out ∧
        here t i = plus (here s i)
      (f.crcOk = false → counted 4) ∧
      (f.crcOk = true → 12 < f.type ∨ f.dst ≠ s.devId ∨ 3 < f.hops → counted 5) ∧
      (f.crcOk = true → f.type ≤ 12 → f.dst = s.devId → f.hops ≤ 3 → exec .efpoPacketDropped s = .next s)) ∧
    (s.input.n2 = 1 → s.efpo.lock = true → ∃ t, exec .efpoLinkChange s = .next t ∧ ∀ i < 16, up t i = if i = n1 % 16 then true else up s i) ∧
    (s.input.n2 = 1 → s.efpo.lock = false → exec .efpoLinkChange s = .next s) ∧
    (s.input.n2 ≠ 1 → up s (n1 % 16) = true → ∃ t, exec .efpoLinkChange s = .next t ∧ (∀ i < 16, up t i = if i = n1 % 16 then false else up s i) ∧
      count t 6 = plus (count s 6)) ∧
    (up s (n1 % 16) = true → ∃ t, exec .timeSyncExchange s = .next t ∧
      t.efpo.out = s.efpo.out ++ [.timeSync (n1 % 16) s.efpo.nextSeq s.time.toNat] ∧
      t.efpo.exchanges = s.efpo.exchanges.filter (fun e => e.2.1 != s.efpo.nextSeq) ++ [(n1 % 16, s.efpo.nextSeq, s.time.toNat)] ∧ t.efpo.nextSeq = (s.efpo.nextSeq + 1) % 65536) ∧
    (s.input = .answer port seq ta tb → port < 16 → s.efpo.exchanges = [(port, seq, t1)] → ∃ t, exec .timeSyncAnswer s = .next t ∧ t.efpo.exchanges = [] ∧
      t.clk = s.clk ∧ (1000 < trip → t.efpo.slew = s.efpo.slew ∧ t.efpo.tsync = s.efpo.tsync) ∧
      (trip ≤ 1000 → t.efpo.tsync = true ∧ t.efpo.lastSync = s.clk ∧ t.efpo.slew = 500 * (((ta : Int) - t1) + ((tb : Int) - s.time.toNat)))) ∧
    (s.efpo.tsync = true → s.efpo.lastSync + 10000000000 < s.clk → ∃ t, exec .tsyncLoss s = .next t ∧ t.efpo.tsync = false ∧
      t.mgmt.mip.getLsbD 10 = true ∧ t.mgmt.info[10] = BitVec.ofNat 64 s.devId) ∧
    (x.passes = true ↔ shakeDigest (leBytes x.key.toNat 64) = fusedDigest ∧ x.verifies = true ∧ Config.svnFloor ≤ x.svn.toNat) ∧
    (s.hub.bootSlot = if s.hub.slots.1.passes then some 0 else if s.hub.slots.2.passes then some 1 else none) ∧
    (∃ t, exec .powerOn s = .next t ∧ started t (0, [])) ∧
    (∃ t, exec .moduleReset s = .next t ∧ started t (s.hub.measure, s.hub.attLog)) ∧
    (s.mgmt.ml = true → ∃ t, exec .cairnReset s = .next t ∧ t.mgmt.ml = false ∧ t.mgmt.ie = false ∧ t.mem = s.mem ∧
      (let m := extend (s.hub.measure, s.hub.attLog) 0xFFFF []
       (s.hub.bootSlot = none → t.hub.startStat = 2 ∧ t.hub.measure = m.1) ∧
       ∀ k, s.hub.bootSlot = some k → t.hub.startStat = s.hub.startStat ∧ (t.hub.measure, t.hub.attLog) = (s.hub.slot k).measure m) ∧
      ∀ i < 32, (t.island i).step = 0 ∧ (t.island i).floor = true ∧ (t.island i).level = (s.island i).level) ∧
    (s.pace.en = true →
      (s.coordinator = some coord → coord ≠ s.devId → s.pace.sentAt = none → ∃ t q, exec .paceRequest s = .next t ∧
        s.Sent t coord (.paceRequest coord q) ∧ q.level = s.paceDemand ∧ q.group = s.pace.group ∧ t.pace.sentAt = some s.clk) ∧
      (s.coordinator = some s.devId → s.pace.sentAt = none → s.pace.agreed < s.paceDemand → s.pace.requests = [] →
        ∃ t, exec .paceRequest s = .next t ∧ agreed t (if s.devId ∈ s.paceMembers then s.paceDemand else 0)) ∧
      (takes → s.coordinator = some s.devId → s.pace.agreed < level → s.pace.requests = [] → ∃ t, exec .paceRequestReceived s = .next t ∧ agreed t level) ∧
      (s.coordinator = some s.devId → s.pace.belowSince = some since → 0 < s.pace.agreed → since + 2000000000 ≤ s.clk →
        s.pace.lastAgreement + 2000000000 ≤ s.clk → ∃ t, exec .paceFallDwell s = .next t ∧ agreed t (s.pace.agreed - 1)) ∧
      (takes → s.pace.applied = 0 → s.pace.pending = false → s.pace.later = [] → 1 ≤ p.number.toNat → p.number.toNat < 2 ^ 31 → s.time.toNat ≤ p.stamp.toNat →
        ∃ t q, exec .paceAgreementReceived s = .next t ∧ t.pace.pending = true ∧ t.pace.next = level ∧ t.pace.stamp = p.stamp ∧
          t.pace.number = p.number ∧ t.pace.cur = s.pace.cur ∧ s.Sent t p.src (.paceAck p.src q) ∧ q.number = p.number) ∧
      (s.pace.pending = true → s.pace.degraded = false → s.pace.stamp.toNat ≤ s.time.toNat → s.pace.later = [] →
        ∃ t, exec .paceAgreementApply s = .next t ∧ t.pace.cur = s.pace.next ∧ t.pace.pending = false ∧ t.pace.applied = s.pace.number ∧
          t.mgmt.mip.getLsbD 5 = true ∧ t.mgmt.info[5] = BitVec.ofNat 64 s.pace.next) ∧
      (takes → s.pace.agreements = [a] → a.number = p.number → a.missing = [p.src] → ∃ t, exec .paceAckReceived s = .next t ∧ t.pace.agreements = [] ∧
        t.pace.heard.get p.src 0 = s.clk ∧ t.pace.cur = s.pace.cur) ∧
      (s.coordinator = some s.devId → s.pace.agreements = [a] → a.sentAt + 10000000 ≤ s.clk → ∃ t, exec .paceAgreementResend s = .next t ∧
        t.pace.agreements = [{ a with sentAt := s.clk }] ∧ ∀ d ∈ a.missing, d ∈ s.paceMembers → ∃ q,
          (d ≠ s.devId → s.efpo.links ≠ 0 → .paceAgreement d q ∈ t.efpo.out) ∧ q.level = a.level ∧ q.number = a.number ∧ q.stamp = a.stamp) ∧
      (s.coordinator = some s.devId → n1 ≠ s.devId → n1 ∈ s.paceMembers → s.pace.heard.get n1 s.pace.joined + 1000000000 ≤ s.clk → s.pace.agreed < 7 →
        s.pace.requests = [] → ∃ t, exec .paceMemberSilent s = .next t ∧ agreed t 7) ∧
      (s.coordinator = some coord → coord ≠ s.devId → s.pace.degraded = false → s.pace.coordHeard + 1000000000 ≤ s.clk →
        ∃ t, exec .paceCoordinatorSilent s = .next t ∧ t.pace.cur = 7 ∧ t.pace.degraded = true ∧ t.mgmt.mip.getLsbD 10 = true ∧
          t.mgmt.info[10] = BitVec.ofNat 64 coord))

/-- Power and thermal control by the hardware (R105, R106, R380-R387, R393, R397, R398): a sample of any sensor is kept and checked, one out of
range, far from its neighbours or stuck fails its sensor and raises class 22, subcode 2, and a failed one reads EST + 80; a layer's reading
raises its band at once and counts toward a fall; a tower's reading sets and ends HOLD7, and at the critical point raises class 22,
subcode 1 once; four failed sensors cap an island;
the observer ticks each millisecond; an estimate above 2,300 W clamps for 100 us; the governor rises above 1,950 W
and falls below 1,850 W; permits are granted from the pool at each boundary; a monitor counts its sample.
The model's own choices in it are those of log entries 6, 9 and 31. -/
def Obligations.PowerSteps : Prop :=
  ∀ (s : State) (n watts : Nat) (raw : Int) (pwr : List Nat) (m : Monitor),
    let x := s.sensor n
    let raised := fun (t : State) (bit : Nat) (info : Word) => t.mgmt.mip.getLsbD bit = true ∧ vget t.mgmt.info bit = info
    let total := s.power.estimates.sum
    let count := s.power.estimates.length
    let wants := fun (i : Nat) => s.power.boostEn = true ∧ s.eff i = 0 ∧ (s.island i).cap = false
    let inRange := -320 ≤ raw ∧ raw ≤ 2400
    let sound := x.failed = false ∧ inRange ∧ s.disagrees n raw = false ∧ (x.seen = false ∨ raw ≠ x.raw)
    let b := s.bands.get (n - 512) Band.blank
    let isl := n / 16
    let above := fun (t : State) (v : Int) => ∃ i < 16, v < (t.sensor (16 * isl + i)).value
    (n < 512 → ∀ k, k ∈ neighbours n ↔ k / 64 = n / 64 ∧ k ≠ n ∧ ((k % 8 : Nat) : Int) - (n % 8 : Nat) ≤ 1 ∧ ((n % 8 : Nat) : Int) - (k % 8 : Nat) ≤ 1 ∧
      ((k / 8 : Nat) : Int) - (n / 8 : Nat) ≤ 1 ∧ ((n / 8 : Nat) : Int) - (k / 8 : Nat) ≤ 1) ∧
    (s.input = .sample n raw → n < 648 →
      (sound → ∃ t, exec .sensorSample s = .next t ∧
        (t.sensor n).raw = raw ∧ (t.sensor n).failed = false ∧ (t.sensor n).seen = true ∧
        (x.tracking = true → (t.sensor n).est = raw ∧ (t.sensor n).pred = raw) ∧
        (x.tracking = true → x.alert < raw → x.armed = true → (t.sensor n).alarm = true) ∧ t.cur.regs = s.cur.regs ∧ t.cur.pc = s.cur.pc ∧
        (640 ≤ n → t.cur = s.cur ∧ t.mem = s.mem) ∧
        (512 ≤ n → n < 640 →
          (b.band < bandOfReading raw → t.bands.get (n - 512) Band.blank = { band := bandOfReading raw, low := none } ∧
            ∀ i < 64, ∀ g < 16, let h := groupKey ((n - 512) / 16 * 64 + i) ((n - 512) % 16) g
              (t.group h).nextInc = max s.clk ((s.group h).lastInc + refreshInterval (bandOfReading raw))) ∧
          (bandOfReading raw ≤ b.band → t.bands.get (n - 512) Band.blank =
            { band := b.band, low := if 0 < b.band ∧ raw ≤ fallBound b.band then some (b.low.getD s.clk) else none })) ∧
        (n < 512 →
          (1680 < raw → (t.island isl).hold7 = true ∧ 7 ≤ t.eff isl) ∧
          (1600 ≤ raw → x.critArmed = true → raised t 1 (BitVec.ofNat 64 n) ∧ (t.sensor n).critArmed = false) ∧
          (1600 ≤ raw → x.critArmed = false → t.mgmt.mip.getLsbD 1 = s.mgmt.mip.getLsbD 1 ∧ (t.sensor n).critArmed = false) ∧
          (x.tracking = true → raw < 1600 → (t.sensor n).critArmed = true))) ∧
      (x.failed = false → (¬inRange ∨ s.disagrees n raw = true) → ∃ t, exec .sensorSample s = .next t ∧
        (t.sensor n).failed = true ∧ (t.sensor n).range = outOfRange raw ∧ (t.sensor n).neigh = s.disagrees n raw ∧
        (t.sensor n).value = x.est + 80 ∧ raised t 2 (BitVec.ofNat 64 n) ∧ (640 ≤ n → t.mgmt.logidx = s.mgmt.logidx + 1)) ∧
      (x.failed = false → x.seen = true → raw = x.raw → 255 ≤ x.same → x.moved = true → ∃ t, exec .sensorSample s = .next t ∧
        (t.sensor n).failed = true ∧ (t.sensor n).stuck = true ∧ raised t 2 (BitVec.ofNat 64 n)) ∧
      (x.failed = true → ∃ t, exec .sensorSample s = .next t ∧ (t.sensor n).failed = true ∧ (t.sensor n).value = x.est + 80) ∧
      (n < 512 → ∃ t, exec .sensorSample s = .next t ∧
        (above t 1680 ∨ t.islandBand3 isl = true → (t.island isl).hold7 = true) ∧
        (¬above t 1664 → t.islandBand3 isl = false → (t.island isl).hold7 = false) ∧
        (above t 1664 → ¬above t 1680 → t.islandBand3 isl = false → (t.island isl).hold7 = (s.island isl).hold7) ∧
        (t.island isl).cap = decide (4 ≤ t.failedOf isl) ∧
        (4 ≤ t.failedOf isl → (s.island isl).cap = false → raised t 9 (BitVec.ofNat 64 isl) ∧ (s.pace.en = false → 2 ≤ t.eff isl)))) ∧
    (s.power.ticked < s.clk / 1000000000 → ∃ t, exec .observerTick s = .next t ∧ raised t 3 0 ∧ t.power.ticked = s.clk / 1000000000 ∧ t.cur = s.cur) ∧
    (s.input = .estimate watts pwr → ∃ t, exec .powerEstimate s = .next t ∧
      t.power.estimates = (watts :: s.power.estimates).take 500 ∧
      (∀ i < 32, ∀ w, pwr[i]? = some w → (t.island i).pwr = w) ∧ (∀ w, pwr[32]? = some w → t.hubPwr = w) ∧
      (watts ≤ 2300 → t.power.peakUntil = s.power.peakUntil ∧ t.mgmt = s.mgmt) ∧
      (2300 < watts → t.power.peakUntil = some (s.clk + 100000000) ∧ t.peak = true ∧ (∀ i < 32, 4 ≤ t.eff i) ∧
        (s.peak = false → raised t 6 8))) ∧
    (s.peak = false → exec .peakClampEnd s = .next { s with power := { s.power with peakUntil := none } }) ∧
    (s.peak = true → exec .peakClampEnd s = .next s) ∧
    (1950 * count < total → s.power.gov < 7 → s.power.govMoved + 100000000 ≤ s.clk → ∃ t, exec .govRise s = .next t ∧
      t.power.gov = s.power.gov + 1 ∧ t.power.govMoved = s.clk ∧ raised t 6 (BitVec.ofNat 64 (s.power.gov + 1))) ∧
    (total ≤ 1950 * count → exec .govRise s = .next s) ∧
    (total < 1850 * count → 0 < s.power.gov → s.power.govMoved + 1000000000 ≤ s.clk → exec .govFall s =
      .next { s with power := { s.power with gov := s.power.gov - 1, govMoved := s.clk } }) ∧
    (1850 * count ≤ total → exec .govFall s = .next s) ∧
    (s.power.boundary < s.clk / 10000000 →
      (s.power.dropPending = true → ∃ t, exec .permitBoundary s = .next t ∧ t.power.dropPending = false ∧
        t.power.boundary = s.power.boundary + 1 ∧ ∀ i < 32, (t.island i).step = 0 ∧ (t.island i).claim = 0) ∧
      (s.power.dropPending = false → s.power.pool = 0 → ∃ t, exec .permitBoundary s = .next t ∧ t.power.boundary = s.power.boundary + 1 ∧
        ∀ i < 32, (t.island i).step = (s.island i).step - 1 ∧ (t.island i).claim = (s.island i).claim) ∧
      (s.power.dropPending = false → 64 ≤ s.power.pool → (∀ i < 32, (s.island i).claim ≤ 2) → ∃ t, exec .permitBoundary s = .next t ∧
        t.power.boundary = s.power.boundary + 1 ∧ t.power.start = (s.power.start + 1) % 32 ∧
        (∀ i < 32, (wants i → (t.island i).step = (s.island i).claim) ∧ (¬wants i → (t.island i).step = 0)))) ∧
    (s.clk / 10000000 ≤ s.power.boundary → exec .permitBoundary s = .next s) ∧
    (s.input = .sample n raw → n < 64 → s.monitor n = m → m.en = true → m.source ≠ 0 → ∃ t, exec .monitorSample s = .next t ∧ t.cur = s.cur ∧
      let v := (s.monitorValue m raw).toNat
      let bin := min (v / 2 ^ m.shift) 15
      (t.monitor n).mn = (if v < m.mn.toNat then BitVec.ofNat 64 v else m.mn) ∧ (t.monitor n).mx = (if m.mx.toNat < v then BitVec.ofNat 64 v else m.mx) ∧
        vget (t.monitor n).bins bin = satInc (vget m.bins bin) ∧ (∀ i < 16, i ≠ bin → vget (t.monitor n).bins i = vget m.bins i) ∧
        (m.thresh ≠ 0 → m.thresh.toNat < v → raised t 7 (BitVec.ofNat 64 n)))

/-- Traps taken at a boundary, launches and contexts (R284, R307, R310, R318, R328, R339, R346, R354, R356, R394): the first pending trap of the order of R328 is
taken, and Cairn's first enabled interrupt; a launch that is ready and fits is admitted with one context for each hart it names; one whose
predecessor failed is cancelled; a cancelled hart ends; a replaying launch starts again; a ready context is placed; a forced save parks
its context; a region too long traps; the barrier of a launch that has completed goes; a broken state makes class 21, subcode 2 pending.
The model's own choices in it are those of log entries 9, 22, 23, 24 and 25. -/
def Obligations.SchedulingSteps : Prop :=
  ∀ (s : State) (p : Pending) (bit part : Nat) (l q : Launch) (c : Ctx) (e : Ending) (b : DeviceBarrier),
    let n1 := s.input.n1
    let resume := if s.inWfi then s.cur.pc + 8 else s.cur.pc
    let mine := s.cur.reqid = n1 ∧ s.cur.run = .running ∧ ∀ c ∈ s.others, c.reqid ≠ s.cur.reqid
    let quiet := s.NoTransfers ∧ s.cur.beacons = []
    let open_ := ∀ e ∈ s.hub.entities, e.closed = false
    let served := ∀ ls u, s.unloaded.imageLeaves s.cur.ctxsave .write 16 = some (ls, u) → ∃ v, u.serveImage true ls = .ok v
    (s.cur.run = .running → s.cur.ending = none → s.cur.trapDue = true → s.NoReplay → s.recordWait = none → s.cur.tvec.toNat % 8 = 0 →
      firstPending s.cur.pend = some p →
      p ∈ s.cur.pend ∧ (∀ r ∈ s.cur.pend, p.rank ≤ r.rank) ∧ ∃ t, exec .pendingTrapTaken s = .next t ∧ t.cur.tcause = BitVec.ofNat 64 p.code ∧
        t.cur.tval = p.tval ∧ t.cur.tpc = resume ∧ t.cur.async = true ∧ t.cur.tl = true ∧ t.cur.pend = s.cur.pend.erase p ∧
        t.cur.regs = s.cur.regs) ∧
    (s.cur.kind = .cairn → s.cur.reqid = cairnId → s.cur.run = .running → s.dueInterrupt = some bit →
      s.mipBits.getLsbD bit = true ∧ s.mgmt.mie.getLsbD bit = true ∧ (∀ i < bit, s.mipBits.getLsbD i = false ∨ s.mgmt.mie.getLsbD i = false) ∧
        ∃ t, exec .managementInterrupt s = .next t ∧ t.cur.pc = s.mgmt.mvec ∧ t.mgmt.mepc = resume ∧ t.mgmt.ml = true ∧ t.mgmt.ie = false ∧
          t.mgmt.pie = true ∧ t.mgmt.mcause = BitVec.ofNat 64 (0x160 + bit) ||| 1 <<< 9 ||| s.interruptInfo bit <<< 16 ∧ t.mem = s.mem) ∧
    (s.launch s.input.word = some l → s.launchReady l = true → s.launchFits l = true → s.mayPass l = true →
      ∃ t m, exec .launchAdmission s = .next t ∧ t.launch l.id = some m ∧ m.phase = 1 ∧ m.record = l.record ∧
        t.others.length = s.others.length + l.places.length ∧ t.hub.barriers = s.hub.barriers ++ l.newBarriers ∧
        ∀ i (h : i < l.places.length), ∃ d ∈ t.others, d.launch = l.id ∧ d.rank = i ∧ d.count = l.places.length ∧ d.kind = l.places[i].1 ∧
          d.place = l.places[i].2.1 ∧ d.pc = BitVec.ofNat 64 (l.num 0 8) ∧ d.reg 1 = BitVec.ofNat 64 (l.num 8 8) ∧ d.reg 2 = BitVec.ofNat 64 i ∧
          d.sup = false ∧ d.prio = fld l.ctrl 8 3 ∧ d.lclass = fld l.ctrl 11 2) ∧
    (s.launch s.input.word = some l → l.phase = 0 → (∃ w ∈ recPreds l.record, s.launch w = some q) → q.phase = 2 → q.bits &&& 6 ≠ 0 → open_ →
      l.causeAt ≤ s.hub.codes →
      ∃ t m, exec .launchPredecessorCancel s = .next t ∧ t.launch l.id = some m ∧ m.phase = 2 ∧ m.bits = l.bits ||| 2 ∧
        m.cause = (if l.cause = 0 then 0x130 else l.cause) ∧ t.mem = s.mem) ∧
    (mine → quiet → s.cur.stops = true → ∃ t, exec .cancelledHartStop s = .next t ∧ t.cur.run = .ended) ∧
    (mine → quiet → s.cur.kind ≠ .cairn → s.launchOf s.cur = some l → s.launch l.id = some l → l.replaying = true → s.cur.ending = some e →
      e.replay = true → (∀ c ∈ s.others, c.launch ≠ l.id) → ∃ t, exec .launchReplay s = .next t ∧ t.cur.run = .ended ∧
        (l.harts ≤ l.ended + 1 → l.replays < 2 → ∃ m, t.launch l.id = some m ∧ m.phase = 0 ∧ m.bits = 8 ∧ m.ended = 0 ∧ m.replays = l.replays + 1)) ∧
    (n1 < 512 → s.input.n2 ≠ 1 → s.cur.run = .running → s.cur.reqid ≠ c.reqid → s.ctx? c.reqid = some c → c.gang = none → c.run = .ready →
      c.reopen = [] → (∀ g < 16, s.engineLate (groupKey n1 c.home g) s.clk = false) → s.placement c = some part → s.bestReady (s.live.filter (fun d => d.kind = .tower && d.target = n1 && s.canDispatch d)) = some c →
      ∃ t d, exec .contextDispatch s = .next t ∧ t.ctx? c.reqid = some d ∧ d.run = .running ∧ d.part = part ∧ d.place = n1 ∧ d.pc = c.pc ∧
        d.regs = c.regs ∧ t.cur = s.cur) ∧
    (mine → s.forcedDueNow = true → s.cur.gang = none → s.cur.transfers = [] → s.cur.wantHeld = false → served → ∃ t, exec .forcedSave s = .next t ∧
      ((t.cur.run = .saved ∧ t.cur.pc = resume ∧ t.cur.preq = false ∧ t.cur.regs = s.cur.regs) ∨
        ∃ x, t.cur.ending = some x ∧ x.cause = 0x149)) ∧
    (∀ since, s.ctx? n1 = some c → c.npr = some since → since + regionAllowance c.lclass < s.clk → ∃ t d, exec .regionOverrun s = .next t ∧
      t.ctx? n1 = some d ∧ d.npr = none ∧ d.regs = c.regs ∧
      d.pend = c.pend ++ [{ code := 0x140, tval := BitVec.ofNat 64 ((s.clk - since) / 1000), extra := 0 }]) ∧
    (s.hub.barriers.find? (fun b => b.id == n1) = some b → (∀ l ∈ s.hub.launches, l.id = b.creator → l.phase = 2 ∨ l.bits &&& 2 ≠ 0) →
      ∃ t, exec .barrierDestroyed s = .next t ∧ t.mem = s.mem ∧ ∀ x, x ∈ t.hub.barriers ↔ x ∈ s.hub.barriers ∧ x.id ≠ n1) ∧
    (s.ctx? n1 = some c → c.kind ≠ .cairn → ∃ t d, exec .uncorrectableStateError s = .next t ∧ t.ctx? n1 = some d ∧ d.regs = c.regs ∧
      d.pend = c.pend ++ [{ code := 0x152, tval := 0, extra := 0 }])

/-- The host port (R400-R406): with its link up each frame counts RXFRM; a frame of another kind, a bad ICRC, a pause and a congestion
notification do what R400 and R401 say, and a pause holds packets back; a packet too long, not for this port, not from the remote end of its queue
pair, or of an unused queue pair is discarded. An expected SEND enters the mailbox under the job's next number with its last packet, an RDMA WRITE
its region's memory, an RDMA READ is answered with the bytes at 4,096 to a packet, each advancing EPSN; one past EPSN draws one sequence NAK, one
before it is acknowledged or read again; an unsupported or oversized request and an access that no region allows are refused with the queue pair in
error; a full mailbox draws an RNR NAK of 0.64 ms; an ECN mark draws a congestion notification. A WRITE writes the bytes of each page at that page's
translation and nothing else, a READ reads them there (R404); one that meets a group with another row open waits (R31).
The model's own choices in it are those of log entries 9, 33 and 34. -/
def Obligations.HostPortSteps : Prop :=
  ∀ (s u u1 : State) (p : RocePacket) (q a n job : Nat) (root va : Word) (bs : List Byte) (wr : Bool) (leaf : Leaf) (leaves : List (Leaf × Nat × Nat)),
    let n1 := s.input.n1
    let h := s.hpCount 0
    let free := s.host.waiting = [] ∧ s.host.pausedUntil ≤ s.clk
    let count := fun (t : State) (i : Nat) => vget t.host.cnt i
    let counted := fun (t : State) (i : Nat) => count t i = satInc (count s i) ∧ count t 0 = satInc (count s 0)
    let arrives := s.input = .roce p ∧ s.host.link = true ∧ s.host.en = true
    let fits := p.frame ≤ 9216 ∧ s.addressed p = true
    let fromPeer := (s.qpPeer p.qp).v6 = p.v6 ∧ (s.qpPeer p.qp).ip = p.src
    let takes := arrives ∧ fits ∧ fromPeer ∧ s.qpState p.qp = 1 ∧ s.jobRoot (s.qpJob p.qp) = some root
    let request := takes ∧ free ∧ p.ecn = false ∧ p.payload.length ≤ 4096 ∧ s.waitingIn.any (fun e => isRoceOf e.2 p.qp) = false
    let epsn := s.qpEpsn p.qp
    let expected := request ∧ p.psn = epsn
    let alone := p.first = true ∧ p.last = true
    let k := h.setNaked p.qp false
    let entry := s.qpAddr p.qp
    let seq := s.hub.seqs.get (s.qpJob p.qp) 0
    let sentAll := fun (t : State) (xs : List HostPacket) => t.host.out = s.host.out ++ xs.map (fun x => { peer := t.qpPeer x.qp, packet := x }) ∧ t.host.waiting = []
    let sent := fun (t : State) (x : HostPacket) => sentAll t [x]
    let same := fun (t : State) (from_ : Nat) (m : Nat) => ∀ b, b < from_ ∨ from_ + m ≤ b → t.byte b = s.byte b
    let answers := fun (bs : List Byte) => (List.range (readPackets p.len)).map (fun i =>
      HostPacket.readResponse p.qp (p.psn + BitVec.ofNat 24 i) ((bs.drop (4096 * i)).take 4096))
    let verbs := [Instr.roceSend, .roceRdmaWrite, .roceRdmaRead]
    (∃ t, exec .hostPortLinkChange s = .next t ∧ t.host.link = decide (n1 = 1) ∧ t.host.en = s.host.en ∧ t.cur = s.cur ∧ t.mem = s.mem) ∧
    (s.host.link = false → ∀ i ∈ verbs ++ [.hostFrameOther, .roceIcrcFail, .cnpReceived, .pauseFrameReceived, .roceUnsupported], exec i s = .next s) ∧
    (s.host.link = true → s.host.waiting = [] →
      (∃ t, exec .hostFrameOther s = .next t ∧ counted t 3 ∧ t.mem = s.mem ∧ t.cur = s.cur) ∧
      (∃ t, exec .roceIcrcFail s = .next t ∧ counted t 4 ∧ t.mem = s.mem ∧ t.cur = s.cur) ∧
      (s.qpState n1 = 1 → s.jobRoot (s.qpJob n1) = some root → ∃ t, exec .cnpReceived s = .next t ∧ counted t 8 ∧
        (t.qp n1).rate = (s.qp n1).rate / 2 ∧ (t.qp n1).rateAt = s.clk) ∧
      (s.qpState n1 = 0 ∨ s.jobRoot (s.qpJob n1) = none → ∃ t, exec .cnpReceived s = .next t ∧ counted t 3 ∧ t.qp n1 = s.qp n1) ∧
      (s.qpState n1 = 2 → s.jobRoot (s.qpJob n1) = some root → exec .cnpReceived s = .next h) ∧
      (∃ t, exec .pauseFrameReceived s = .next t ∧ t.host.pausedUntil = s.clk + n1 % 65536 * 640 ∧ t.mem = s.mem)) ∧
    (n1 < 4096 → (s.qp n1).rate < 2 ^ 32 → (s.qp n1).rateAt + 55000000 ≤ s.clk → ∃ t, exec .readRateRaise s = .next t ∧
      (t.qp n1).rate = min ((s.qp n1).rate + 2 ^ 28) (2 ^ 32) ∧ (t.qp n1).rateAt = s.clk ∧ ∀ m, m ≠ n1 → t.qp m = s.qp m) ∧
    (∀ i ∈ verbs ++ [.roceUnsupported], s.input = .roce p → s.host.link = true → free →
      (s.host.en = false → exec i s = .next h) ∧
      (s.host.en = true →
        (¬fits ∨ (s.qpState p.qp = 1 ∧ s.jobRoot (s.qpJob p.qp) = some root ∧ ¬fromPeer) ∨ s.qpState p.qp = 0 ∨ s.jobRoot (s.qpJob p.qp) = none →
          exec i s = .next (h.hpCount 3)) ∧
        (fits → s.qpState p.qp = 2 → s.jobRoot (s.qpJob p.qp) = some root → exec i s = .next h))) ∧
    (takes → s.MemInv →
      (free → p.ecn = false → ∃ t, exec .roceUnsupported s = .next t ∧ sent t (.nakInvalid p.qp epsn) ∧ counted t 5 ∧ t.byte (entry + 2) = 2 ∧ same t (entry + 2) 1) ∧
      (free → p.ecn = true → (∀ c, (s.qp p.qp).lastCnp = some c → c + 50000000 ≤ s.clk) → ∃ t, exec .roceUnsupported s = .next t ∧
        sentAll t [.cnp p.qp, .nakInvalid p.qp epsn] ∧ (t.qp p.qp).lastCnp = some s.clk ∧ counted t 7) ∧
      (s.clk < s.host.pausedUntil → p.ecn = false → ∃ t, exec .roceUnsupported s = .next t ∧ t.host.out = s.host.out ∧
        t.host.waiting = s.host.waiting ++ [{ peer := t.qpPeer p.qp, packet := .nakInvalid p.qp epsn }]) ∧
      (∀ i ∈ verbs, free → p.ecn = false → 4096 < p.payload.length →
        ∃ t, exec i s = .next t ∧ sent t (.nakInvalid p.qp epsn) ∧ counted t 5 ∧ t.byte (entry + 2) = 2 ∧ same t (entry + 2) 1)) ∧
    (request → s.MemInv → ∀ i ∈ verbs, 0 < (p.psn - epsn).toNat → (p.psn - epsn).toNat < 2 ^ 23 →
      (s.naked p.qp = true → exec i s = .next h) ∧
      (s.naked p.qp = false → ∃ t, exec i s = .next t ∧ sent t (.nakSequence p.qp epsn) ∧ counted t 5 ∧ t.naked p.qp = true ∧ t.qpEpsn p.qp = epsn ∧
        same t (entry + 35) 1)) ∧
    (request → 2 ^ 23 ≤ (p.psn - epsn).toNat →
      (∀ i ∈ [Instr.roceSend, .roceRdmaWrite], ∃ t, exec i s = .next t ∧ sent t (.ack p.qp p.psn) ∧ t.mem = s.mem ∧ t.hub.mailbox = s.hub.mailbox) ∧
      (h.regionAllows (s.qpJob p.qp) p.rkey p.va p.len false = true → rdmaRead p.qp (s.qpJob p.qp) root p.va p.len h = .ok (bs, u) → u.host = h.host →
        u.clk = s.clk → ∃ t, exec .roceRdmaRead s = .next t ∧ sentAll t (answers bs) ∧ t.mem = u.mem)) ∧
    (expected → s.MemInv →
      (alone → p.payload.length ≤ 240 → s.hub.mailbox.length < 4096 →
        ∃ t, exec .roceSend s = .next t ∧ sent t (.ack p.qp p.psn) ∧ t.qpEpsn p.qp = p.psn + 1 ∧ t.qpMsn p.qp = s.qpMsn p.qp + 1 ∧ t.naked p.qp = false ∧
          t.hub.mailbox = s.hub.mailbox ++ [{ job := s.qpJob p.qp, seq := seq, arrival := s.time, payload := p.payload }] ∧
          t.hub.seqs.get (s.qpJob p.qp) 0 = seq + 1) ∧
      (p.first = true → p.last = false → p.payload.length ≤ 240 → ∃ t, exec .roceSend s = .next t ∧ sent t (.ack p.qp p.psn) ∧
        t.qpEpsn p.qp = p.psn + 1 ∧ t.qpMsn p.qp = s.qpMsn p.qp ∧ (t.qp p.qp).send = p.payload ∧ t.hub.mailbox = s.hub.mailbox) ∧
      (p.first = false → p.last = true → (s.qp p.qp).send.length + p.payload.length ≤ 240 → s.hub.mailbox.length < 4096 →
        ∃ t, exec .roceSend s = .next t ∧ t.hub.mailbox = s.hub.mailbox ++
          [{ job := s.qpJob p.qp, seq := seq, arrival := s.time, payload := (s.qp p.qp).send ++ p.payload }]) ∧
      (alone → p.payload.length ≤ 240 → 4096 ≤ s.hub.mailbox.length → ∃ t, exec .roceSend s = .next t ∧ sent t (.rnr p.qp p.psn 640000000) ∧ counted t 6 ∧
        t.qpEpsn p.qp = epsn ∧ t.hub.mailbox = s.hub.mailbox) ∧
      (p.first = true → 240 < p.payload.length → ∃ t, exec .roceSend s = .next t ∧ sent t (.nakInvalid p.qp p.psn) ∧ counted t 9 ∧
        same t (entry + 35) 1 ∧ t.hub.mailbox = s.hub.mailbox) ∧
      (alone → p.payload.length = p.len → k.regionAllows (s.qpJob p.qp) p.rkey p.va p.len true = true →
        (rdmaWrite p.qp root p.va p.payload k = .ok ((), u) → u.host = h.host → u.clk = s.clk → ∃ t, exec .roceRdmaWrite s = .next t ∧
          sent t (.ack p.qp p.psn) ∧ t.mem = ((u.advancePsn p.qp (p.psn + 1)).countMsn p.qp).mem) ∧
        (rdmaWrite p.qp root p.va p.payload k = .error (.arrive u) → exec .roceRdmaWrite s = .next (h.holdInput u .roceRdmaWrite (.roce p)))) ∧
      (k.regionAllows (s.qpJob p.qp) p.rkey p.va p.len false = true →
        (rdmaRead p.qp (s.qpJob p.qp) root p.va p.len k = .ok (bs, u) → u.host = h.host → u.clk = s.clk → ∃ t, exec .roceRdmaRead s = .next t ∧
          sentAll t (answers bs) ∧ t.mem = ((u.advancePsn p.qp (p.psn + BitVec.ofNat 24 (readPackets p.len))).countMsn p.qp).mem) ∧
        (rdmaRead p.qp (s.qpJob p.qp) root p.va p.len k = .error (.arrive u) → exec .roceRdmaRead s = .next (h.holdInput u .roceRdmaRead (.roce p)))) ∧
      (k.regionAllows (s.qpJob p.qp) p.rkey p.va p.len false = false → ∃ t, exec .roceRdmaRead s = .next t ∧
        sent t (.nakAccess p.qp p.psn) ∧ counted t 5 ∧ t.byte (entry + 2) = 2) ∧
      (p.first = true → k.regionAllows (s.qpJob p.qp) p.rkey p.va p.len true = false → ∃ t, exec .roceRdmaWrite s = .next t ∧
        sent t (.nakAccess p.qp p.psn) ∧ counted t 5 ∧ t.byte (entry + 2) = 2)) ∧
    (∀ x ∈ pagePieces a n, (a + x.1) % 4096 + x.2 ≤ 4096) ∧ (pagePieces a n).flatMap (fun x => List.range' x.1 x.2) = List.range n ∧
    (rdmaLeaves root va n wr s = .ok (leaves, u) → leaves.map (fun x => x.2) = pagePieces va.toNat n ∧
      ∀ x ∈ leaves, ∃ w w2, engineTranslate [536] root (va + BitVec.ofNat 64 x.2.1) (if wr then .write else .read) w = .ok (x.1, w2)) ∧
    (rdmaLeaves root va bs.length true s = .ok (leaves, u) → leaves.forM (fun x => rowAccessFor (hostWaiter q) x.1 true) u = .ok ((), u1) → u1.MemInv →
      (∀ x ∈ leaves, inSideTable x.1.pa x.2.2 = false) →
      leaves.Pairwise (fun x y => x.1.pa + x.2.2 ≤ y.1.pa ∨ y.1.pa + y.2.2 ≤ x.1.pa) →
      ∃ t, rdmaWrite q root va bs s = .ok ((), t) ∧ (∀ x ∈ leaves, ∀ i < x.2.2, t.byte (x.1.pa + i) = bs.getD (x.2.1 + i) 0) ∧
        ∀ b, (∀ x ∈ leaves, b < x.1.pa ∨ x.1.pa + x.2.2 ≤ b) → t.byte b = u1.byte b) ∧
    (rdmaLeaves root va n false s = .ok (leaves, u) → leaves.forM (fun x => rowAccessFor (hostWaiter q) x.1 false) u = .ok ((), u1) →
      (∀ x ∈ leaves, x.1.mt = leaf.mt ∧ x.1.mt ≠ mtDev ∧ u1.Settled x.1 ∧ inSideTable x.1.pa x.2.2 = false ∧ poisoned u1.poison x.1.pa x.2.2 = false) →
      ∃ t, rdmaRead q job root va n s = .ok (leaves.flatMap (fun x => u1.bytes x.1.pa x.2.2), t) ∧ t.mem = u1.mem)
end

