-- ==== Sys2Proof/Laws/Decode.lean ====
section
/-! SUPPORT. What a full word and its fields say of each other (R42): the fields read back from a word built, and the word rebuilt from them. -/

namespace Sys2Proof

/-- P, CLASS and OP of a word that was built. -/
theorem head_wordOf (c o : Nat) (f : Fields) : (wordOf c o f).getLsbD 63 = false ∧ (wordOf c o f).extractLsb' 60 3 = BitVec.ofNat 3 c ∧
    (wordOf c o f).extractLsb' 52 8 = BitVec.ofNat 8 o := by
  refine ⟨by simp only [wordOf, BitVec.cast_eq, BitVec.getLsbD_append]; simp, ?_, ?_⟩ <;>
    (unfold wordOf; simp (disch := decide) only [BitVec.cast_eq, BitVec.extractLsb'_append_eq_of_le, BitVec.extractLsb'_append_eq_of_add_le]; simp)

/-- The fields of a word that was built. -/
@[simp] theorem ofWord_wordOf (c o : Nat) (f : Fields) : Fields.ofWord (wordOf c o f) = f := by
  obtain ⟨form, d, a, b, m, mz, imm⟩ := f
  simp only [Fields.ofWord, Fields.mk.injEq]
  refine ⟨?_, ?_, ?_, ?_, ?_, ?_, ?_⟩ <;> unfold wordOf
  case refine_6 => simp only [BitVec.cast_eq, BitVec.getLsbD_append]; cases mz <;> rfl
  all_goals
    simp (disch := decide) only [BitVec.cast_eq, BitVec.extractLsb'_append_eq_of_le, BitVec.extractLsb'_append_eq_of_add_le]
    simp

/-- A full-form word is the one built from its CLASS, OP and fields. -/
theorem wordOf_ofWord (w : Word) (h : w.getLsbD 63 = false) :
    wordOf (w.extractLsb' 60 3).toNat (w.extractLsb' 52 8).toNat (Fields.ofWord w) = w := by
  have glue : ∀ {n m : Nat} (lo hi : Nat), hi = lo + m → w.extractLsb' hi n ++ w.extractLsb' lo m = w.extractLsb' lo (n + m) := by
    rintro n m lo hi rfl
    apply BitVec.eq_of_getLsbD_eq
    intro i hl
    simp only [BitVec.getLsbD_append, BitVec.getLsbD_extractLsb']
    split
    · rw [decide_eq_true ‹_›, decide_eq_true hl]
    · rw [show lo + m + (i - m) = lo + i by omega, decide_eq_true hl, decide_eq_true (by omega : i - m < n)]
  have top : (0#1 : BitVec 1) = w.extractLsb' 63 1 := by
    apply BitVec.eq_of_getLsbD_eq
    intro i hi
    obtain rfl : i = 0 := by omega
    simpa using h.symm
  have bit : BitVec.ofBool (w.getLsbD 28) = w.extractLsb' 28 1 := by
    apply BitVec.eq_of_getLsbD_eq
    intro i hi
    obtain rfl : i = 0 := by omega
    simp
  simp only [wordOf, Fields.ofWord, BitVec.ofNat_toNat, BitVec.setWidth_eq, BitVec.cast_eq, top, bit]
  rw [glue 60 63 rfl, glue 52 60 rfl, glue 50 52 rfl, glue 44 50 rfl, glue 38 44 rfl, glue 32 38 rfl, glue 29 32 rfl, glue 28 29 rfl, glue 0 28 rfl]
  simp

end Sys2Proof
end

