-- ==== Sys2Proof/Laws/Mem.lean ====
section
/-! SUPPORT. The laws of DRAM: every write keeps the canonical form, a read after a write gives the value written, and a write
leaves every other byte alone. -/

namespace Sys2Proof.Machine

/-- The canonical form as a proposition: addresses strictly rising, and no entry equal to the background. -/
theorem Memory.wf_iff (m : Memory) :
    Memory.wf m = true ↔ m.Pairwise (fun x y => x.1 < y.1) ∧ ∀ c ∈ m, c.2 ≠ background c.1 := by
  induction m with
  | nil => simp [Memory.wf]
  | cons c r ih =>
    obtain ⟨k, v⟩ := c
    cases r with
    | nil => simp [Memory.wf]
    | cons d r =>
      obtain ⟨j, w⟩ := d
      have e : Memory.wf ((k, v) :: (j, w) :: r) = (v != background k && decide (k < j) && Memory.wf ((j, w) :: r)) := rfl
      rw [e]
      simp only [Bool.and_eq_true, ih, bne_iff_ne, decide_eq_true_eq, List.pairwise_cons, List.mem_cons, forall_eq_or_imp]
      constructor
      · rintro ⟨⟨h1, h2⟩, ⟨h3, h4⟩, h5, h6⟩
        exact ⟨⟨⟨h2, fun x hx => h2.trans (h3 x hx)⟩, h3, h4⟩, h1, h5, h6⟩
      · rintro ⟨⟨⟨h2, -⟩, h3, h4⟩, h1, h5, h6⟩
        exact ⟨⟨h1, h2⟩, ⟨h3, h4⟩, h5, h6⟩

/-- The entries of a written run lie inside it, rise, and differ from the background. -/
theorem cellsOf_spec (a : Nat) (bs : List Byte) :
    (cellsOf a bs).Pairwise (fun x y => x.1 < y.1) ∧
      ∀ c ∈ cellsOf a bs, a ≤ c.1 ∧ c.1 < a + bs.length ∧ c.2 ≠ background c.1 := by
  induction bs generalizing a with
  | nil => simp [cellsOf]
  | cons b bs ih =>
    obtain ⟨h1, h2⟩ := ih (a + 1)
    have h2' : ∀ c ∈ cellsOf (a + 1) bs, a < c.1 ∧ c.1 < a + (bs.length + 1) ∧ c.2 ≠ background c.1 := by
      intro c hc; obtain ⟨x, y, z⟩ := h2 c hc; exact ⟨by omega, by omega, z⟩
    by_cases hb : b = background a
    · simp only [cellsOf, hb, if_pos, List.length_cons]
      exact ⟨h1, fun c hc => ⟨(h2' c hc).1.le, (h2' c hc).2⟩⟩
    · simp only [cellsOf, hb, if_neg, not_false_eq_true, List.length_cons, List.pairwise_cons, List.mem_cons]
      refine ⟨⟨fun c hc => (h2' c hc).1, h1⟩, ?_⟩
      rintro c (rfl | hc)
      · exact ⟨le_rfl, by simp, hb⟩
      · exact ⟨(h2' c hc).1.le, (h2' c hc).2⟩

/-- What stays of a canonical memory below an address lies below it. -/
theorem mem_takeBelow {m : Memory} {a : Nat} {c : Host.Cell} (h : c ∈ m.takeWhile (fun c => decide (c.1 < a))) : c.1 < a := by
  simpa using List.mem_takeWhile_imp h

/-- What stays of a canonical memory from an address on lies at or above it. -/
theorem mem_dropBelow {m : Memory} {a : Nat} {c : Host.Cell} (hm : m.Pairwise (fun x y => x.1 < y.1))
    (h : c ∈ m.dropWhile (fun c => decide (c.1 < a))) : a ≤ c.1 := by
  induction m with
  | nil => simp at h
  | cons d r ih =>
    rw [List.pairwise_cons] at hm
    by_cases hd : d.1 < a
    · rw [List.dropWhile_cons_of_pos (by simpa using hd)] at h; exact ih hm.2 h
    · rw [List.dropWhile_cons_of_neg (by simpa using hd)] at h
      rcases List.mem_cons.1 h with rfl | h
      · omega
      · have := hm.1 c h; omega

/-- Every write keeps the canonical form. -/
theorem Memory.wf_writeN (m : Memory) (a : Nat) (bs : List Byte) (h : Memory.wf m = true) :
    Memory.wf (Memory.writeN m a bs) = true := by
  rw [Memory.wf_iff] at h ⊢
  obtain ⟨h1, h2⟩ := h
  obtain ⟨c1, c2⟩ := cellsOf_spec a bs
  unfold Memory.writeN
  constructor
  · rw [List.pairwise_append, List.pairwise_append]
    refine ⟨⟨h1.sublist (List.takeWhile_sublist _), c1, ?_⟩, h1.sublist (List.dropWhile_sublist _), ?_⟩
    · intro x hx y hy
      have := mem_takeBelow hx; have := (c2 y hy).1; omega
    · intro x hx y hy
      have hy' := mem_dropBelow h1 hy
      rcases List.mem_append.1 hx with hx | hx
      · have := mem_takeBelow hx; omega
      · have := (c2 x hx).2.1; omega
  · intro c hc
    rcases List.mem_append.1 hc with hc | hc
    · rcases List.mem_append.1 hc with hc | hc
      · exact h2 c ((List.takeWhile_sublist _).subset hc)
      · exact (c2 c hc).2.2
    · exact h2 c ((List.dropWhile_sublist _).subset hc)

/-- An address that no entry has reads as the background. -/
theorem Memory.read_of_forall_ne {m : Memory} {x : Nat} (h : ∀ c ∈ m, c.1 ≠ x) : Memory.read m x = background x := by
  induction m with
  | nil => rfl
  | cons c r ih =>
    obtain ⟨k, v⟩ := c
    have hk : k ≠ x := h (k, v) (by simp)
    simp only [Memory.read, hk, if_neg, not_false_eq_true]
    exact ih (fun c hc => h c (by simp [hc]))

/-- Entries in front that lack an address do not matter to it. -/
theorem Memory.read_append_of_forall_ne {p m : Memory} {x : Nat} (h : ∀ c ∈ p, c.1 ≠ x) :
    Memory.read (p ++ m) x = Memory.read m x := by
  induction p with
  | nil => rfl
  | cons c r ih =>
    obtain ⟨k, v⟩ := c
    have hk : k ≠ x := h (k, v) (by simp)
    simp only [List.cons_append, Memory.read, hk, if_neg, not_false_eq_true]
    exact ih (fun c hc => h c (by simp [hc]))

/-- Entries behind that lack an address do not matter to it. -/
theorem Memory.read_append_left {p m : Memory} {x : Nat} (h : ∀ c ∈ m, c.1 ≠ x) : Memory.read (p ++ m) x = Memory.read p x := by
  induction p with
  | nil => simpa [Memory.read] using Memory.read_of_forall_ne h
  | cons c r ih =>
    obtain ⟨k, v⟩ := c
    by_cases hk : k = x
    · simp [Memory.read, hk]
    · simp [Memory.read, hk, ih]

/-- The entries of a written run read as the bytes written. -/
theorem Memory.read_cellsOf (a : Nat) (bs : List Byte) (i : Nat) (h : i < bs.length) : Memory.read (cellsOf a bs) (a + i) = bs[i] := by
  induction bs generalizing a i with
  | nil => simp at h
  | cons b bs ih =>
    cases i with
    | zero =>
      by_cases hb : b = background a
      · simp only [cellsOf, hb, if_pos, Nat.add_zero, List.getElem_cons_zero]
        exact Memory.read_of_forall_ne (fun c hc => by have := ((cellsOf_spec (a + 1) bs).2 c hc).1; omega)
      · simp [cellsOf, hb, Memory.read]
    | succ i =>
      have e : a + (i + 1) = a + 1 + i := by omega
      have hi : i < bs.length := by simpa using h
      by_cases hb : b = background a
      · simp only [cellsOf, hb, if_pos, List.getElem_cons_succ, e]; exact ih (a + 1) i hi
      · have hne : a ≠ a + 1 + i := by omega
        simp only [cellsOf, hb, if_neg, not_false_eq_true, Memory.read, List.getElem_cons_succ, e, hne]; exact ih (a + 1) i hi

/-- A read after a write gives the byte written. -/
theorem Memory.read_writeN_inside (m : Memory) (a : Nat) (bs : List Byte) (h : Memory.wf m = true) (i : Nat) (hi : i < bs.length) :
    Memory.read (Memory.writeN m a bs) (a + i) = bs[i] := by
  have h1 := ((Memory.wf_iff m).1 h).1
  unfold Memory.writeN
  rw [Memory.read_append_left (fun c hc => by have := mem_dropBelow h1 hc; omega),
    Memory.read_append_of_forall_ne (fun c hc => by have := mem_takeBelow hc; omega), Memory.read_cellsOf a bs i hi]

/-- A write leaves every other byte. -/
theorem Memory.read_writeN_outside (m : Memory) (a : Nat) (bs : List Byte) (h : Memory.wf m = true) (x : Nat)
    (hx : x < a ∨ a + bs.length ≤ x) : Memory.read (Memory.writeN m a bs) x = Memory.read m x := by
  have h1 := ((Memory.wf_iff m).1 h).1
  have hc : ∀ c ∈ cellsOf a bs, c.1 ≠ x := fun c hc => by have := (cellsOf_spec a bs).2 c hc; omega
  unfold Memory.writeN
  rcases hx with hx | hx
  · rw [List.append_assoc, Memory.read_append_left (m := cellsOf a bs ++ _)]
    · conv_rhs => rw [← List.takeWhile_append_dropWhile (p := fun c : Host.Cell => decide (c.1 < a)) (l := m)]
      rw [Memory.read_append_left]
      intro c hc; have := mem_dropBelow h1 hc; omega
    · intro c hc'
      rcases List.mem_append.1 hc' with h2 | h2
      · exact hc c h2
      · have := mem_dropBelow h1 h2; omega
  · rw [Memory.read_append_of_forall_ne]
    · conv_rhs => rw [← List.takeWhile_append_dropWhile (p := fun c : Host.Cell => decide (c.1 < a + bs.length)) (l := m)]
      rw [Memory.read_append_of_forall_ne]
      intro c hc; have := mem_takeBelow hc; omega
    · intro c hc'
      rcases List.mem_append.1 hc' with h2 | h2
      · have := mem_takeBelow h2; omega
      · exact hc c h2

/-- Reading a run is reading its bytes. -/
theorem Memory.readN_eq (m : Memory) (a n : Nat) (h : Memory.wf m = true) :
    Memory.readN m a n = (List.range n).map (fun i => Memory.read m (a + i)) := by
  have h1 := ((Memory.wf_iff m).1 h).1
  have key : ∀ n (r : Memory) a, r.Pairwise (fun x y => x.1 < y.1) → (∀ c ∈ r, a ≤ c.1) →
      Memory.readFrom r a n = (List.range n).map (fun i => Memory.read r (a + i)) := by
    intro n
    induction n with
    | zero => intros; rfl
    | succ n ih =>
      intro r a hr ha
      rw [List.range_succ_eq_map, List.map_cons, List.map_map]
      cases r with
      | nil =>
        simp only [Memory.readFrom, Memory.read, Nat.add_zero]
        congr 1
        rw [ih [] (a + 1) List.Pairwise.nil (by simp)]
        apply List.map_congr_left; intro i _; simp [Memory.read]; congr 1; omega
      | cons c r =>
        obtain ⟨k, v⟩ := c
        rw [List.pairwise_cons] at hr
        by_cases hk : k = a
        · simp only [Memory.readFrom, hk, if_pos, Memory.read, Nat.add_zero]
          congr 1
          rw [ih r (a + 1) hr.2 (fun c hc => by have := hr.1 c hc; simp at this; omega)]
          apply List.map_congr_left; intro i _
          have : a ≠ a + (i + 1) := by omega
          simp; congr 1; omega
        · have hk' : a < k := by have := ha (k, v) (by simp); simp at this; omega
          simp only [Memory.readFrom, hk, if_neg, not_false_eq_true, Nat.add_zero]
          congr 1
          · exact (Memory.read_of_forall_ne (fun c hc => by
              rcases List.mem_cons.1 hc with rfl | hc
              · exact hk
              · have := hr.1 c hc; simp at this; omega)).symm
          · rw [ih ((k, v) :: r) (a + 1) (List.pairwise_cons.2 hr) (fun c hc => by
              rcases List.mem_cons.1 hc with rfl | hc
              · exact hk'
              · have := hr.1 c hc; simp at this; omega)]
            apply List.map_congr_left; intro i _
            simp only [Function.comp]; congr 1; omega
  unfold Memory.readN
  rw [key n _ a (h1.sublist (List.dropWhile_sublist _)) (fun c hc => mem_dropBelow h1 hc)]
  apply List.map_congr_left; intro i _
  conv_rhs => rw [← List.takeWhile_append_dropWhile (p := fun c : Host.Cell => decide (c.1 < a)) (l := m)]
  rw [Memory.read_append_of_forall_ne]
  intro c hc; have := mem_takeBelow hc; omega

/-- Device memory keeps its canonical form under a write. -/
theorem State.poke_wf (s : State) (a : Nat) (bs : List Byte) (h : Memory.wf s.mem = true) : Memory.wf (s.poke a bs).mem = true :=
  Memory.wf_writeN s.mem a bs h

/-- A byte written reads back. -/
theorem State.byte_poke_inside (s : State) (a : Nat) (bs : List Byte) (h : Memory.wf s.mem = true) (i : Nat) (hi : i < bs.length) :
    (s.poke a bs).byte (a + i) = bs[i] :=
  Memory.read_writeN_inside s.mem a bs h i hi

/-- A byte outside a write is unchanged. -/
theorem State.byte_poke_outside (s : State) (a : Nat) (bs : List Byte) (h : Memory.wf s.mem = true) (x : Nat)
    (hx : x < a ∨ a + bs.length ≤ x) : (s.poke a bs).byte x = s.byte x :=
  Memory.read_writeN_outside s.mem a bs h x hx

/-- Little-endian bytes have the length asked for. -/
@[simp] theorem leBytes_length (v n : Nat) : (leBytes v n).length = n := by
  induction n generalizing v with
  | zero => rfl
  | succ n ih => simp [leBytes, ih]

/-- A number reads back from its little-endian bytes, modulo their width. -/
theorem leValue_leBytes (v n : Nat) : leValue (leBytes v n) = v % 2 ^ (8 * n) := by
  induction n generalizing v with
  | zero => simp [leBytes, leValue]; omega
  | succ n ih =>
    simp only [leBytes, leValue, ih, BitVec.toNat_ofNat]
    rw [show 2 ^ (8 * (n + 1)) = 256 * 2 ^ (8 * n) by rw [Nat.mul_add, pow_add]; ring, Nat.mod_mul]

/-- The memory of the state after reset is in canonical form. -/
theorem reset_mem_nil : State.reset.mem = [] := rfl

end Sys2Proof.Machine
end

