-- ==== Sys2Proof/Laws/State.lean ====
section
/-! SUPPORT. One lemma for each field of the state under each of the named updates of Base, Mem and Ops: what the update leaves, and
what it writes. -/

namespace Sys2Proof.Machine

/-! ### State.setCur -/

@[simp] theorem State.setCur_cur (s : State) (f : Ctx → Ctx) : (s.setCur f).cur = f s.cur := rfl
@[simp] theorem State.setCur_others (s : State) (f : Ctx → Ctx) : (s.setCur f).others = s.others := rfl
@[simp] theorem State.setCur_mem (s : State) (f : Ctx → Ctx) : (s.setCur f).mem = s.mem := rfl
@[simp] theorem State.setCur_poison (s : State) (f : Ctx → Ctx) : (s.setCur f).poison = s.poison := rfl
@[simp] theorem State.setCur_versions (s : State) (f : Ctx → Ctx) : (s.setCur f).versions = s.versions := rfl
@[simp] theorem State.setCur_cachedUse (s : State) (f : Ctx → Ctx) : (s.setCur f).cachedUse = s.cachedUse := rfl
@[simp] theorem State.setCur_conflict (s : State) (f : Ctx → Ctx) : (s.setCur f).conflict = s.conflict := rfl
@[simp] theorem State.setCur_lineOwner (s : State) (f : Ctx → Ctx) : (s.setCur f).lineOwner = s.lineOwner := rfl
@[simp] theorem State.setCur_towers (s : State) (f : Ctx → Ctx) : (s.setCur f).towers = s.towers := rfl
@[simp] theorem State.setCur_groups (s : State) (f : Ctx → Ctx) : (s.setCur f).groups = s.groups := rfl
@[simp] theorem State.setCur_bands (s : State) (f : Ctx → Ctx) : (s.setCur f).bands = s.bands := rfl
@[simp] theorem State.setCur_tlbs (s : State) (f : Ctx → Ctx) : (s.setCur f).tlbs = s.tlbs := rfl
@[simp] theorem State.setCur_walks (s : State) (f : Ctx → Ctx) : (s.setCur f).walks = s.walks := rfl
@[simp] theorem State.setCur_hub (s : State) (f : Ctx → Ctx) : (s.setCur f).hub = s.hub := rfl
@[simp] theorem State.setCur_host (s : State) (f : Ctx → Ctx) : (s.setCur f).host = s.host := rfl
@[simp] theorem State.setCur_efpo (s : State) (f : Ctx → Ctx) : (s.setCur f).efpo = s.efpo := rfl
@[simp] theorem State.setCur_mgmt (s : State) (f : Ctx → Ctx) : (s.setCur f).mgmt = s.mgmt := rfl
@[simp] theorem State.setCur_islands (s : State) (f : Ctx → Ctx) : (s.setCur f).islands = s.islands := rfl
@[simp] theorem State.setCur_hubLevel (s : State) (f : Ctx → Ctx) : (s.setCur f).hubLevel = s.hubLevel := rfl
@[simp] theorem State.setCur_hubGate (s : State) (f : Ctx → Ctx) : (s.setCur f).hubGate = s.hubGate := rfl
@[simp] theorem State.setCur_hubPwr (s : State) (f : Ctx → Ctx) : (s.setCur f).hubPwr = s.hubPwr := rfl
@[simp] theorem State.setCur_sensors (s : State) (f : Ctx → Ctx) : (s.setCur f).sensors = s.sensors := rfl
@[simp] theorem State.setCur_monitors (s : State) (f : Ctx → Ctx) : (s.setCur f).monitors = s.monitors := rfl
@[simp] theorem State.setCur_pace (s : State) (f : Ctx → Ctx) : (s.setCur f).pace = s.pace := rfl
@[simp] theorem State.setCur_power (s : State) (f : Ctx → Ctx) : (s.setCur f).power = s.power := rfl
@[simp] theorem State.setCur_clk (s : State) (f : Ctx → Ctx) : (s.setCur f).clk = s.clk := rfl
@[simp] theorem State.setCur_resetAt (s : State) (f : Ctx → Ctx) : (s.setCur f).resetAt = s.resetAt := rfl
@[simp] theorem State.setCur_agenda (s : State) (f : Ctx → Ctx) : (s.setCur f).agenda = s.agenda := rfl
@[simp] theorem State.setCur_input (s : State) (f : Ctx → Ctx) : (s.setCur f).input = s.input := rfl
@[simp] theorem State.setCur_fresh (s : State) (f : Ctx → Ctx) : (s.setCur f).fresh = s.fresh := rfl
@[simp] theorem State.setCur_lineHolders (s : State) (f : Ctx → Ctx) : (s.setCur f).lineHolders = s.lineHolders := rfl
@[simp] theorem State.setCur_rowQueue (s : State) (f : Ctx → Ctx) : (s.setCur f).rowQueue = s.rowQueue := rfl
@[simp] theorem State.setCur_waitingIn (s : State) (f : Ctx → Ctx) : (s.setCur f).waitingIn = s.waitingIn := rfl
@[simp] theorem State.setCur_stopAt (s : State) (f : Ctx → Ctx) : (s.setCur f).stopAt = s.stopAt := rfl
@[simp] theorem State.setCur_inPort (s : State) (f : Ctx → Ctx) : (s.setCur f).inPort = s.inPort := rfl

/-! ### State.setReg -/

@[simp] theorem State.setReg_cur (s : State) (v : BitVec 6) (w : Word) : (s.setReg v w).cur = s.cur.setReg v w := rfl
@[simp] theorem State.setReg_others (s : State) (v : BitVec 6) (w : Word) : (s.setReg v w).others = s.others := rfl
@[simp] theorem State.setReg_mem (s : State) (v : BitVec 6) (w : Word) : (s.setReg v w).mem = s.mem := rfl
@[simp] theorem State.setReg_poison (s : State) (v : BitVec 6) (w : Word) : (s.setReg v w).poison = s.poison := rfl
@[simp] theorem State.setReg_versions (s : State) (v : BitVec 6) (w : Word) : (s.setReg v w).versions = s.versions := rfl
@[simp] theorem State.setReg_cachedUse (s : State) (v : BitVec 6) (w : Word) : (s.setReg v w).cachedUse = s.cachedUse := rfl
@[simp] theorem State.setReg_conflict (s : State) (v : BitVec 6) (w : Word) : (s.setReg v w).conflict = s.conflict := rfl
@[simp] theorem State.setReg_lineOwner (s : State) (v : BitVec 6) (w : Word) : (s.setReg v w).lineOwner = s.lineOwner := rfl
@[simp] theorem State.setReg_towers (s : State) (v : BitVec 6) (w : Word) : (s.setReg v w).towers = s.towers := rfl
@[simp] theorem State.setReg_groups (s : State) (v : BitVec 6) (w : Word) : (s.setReg v w).groups = s.groups := rfl
@[simp] theorem State.setReg_bands (s : State) (v : BitVec 6) (w : Word) : (s.setReg v w).bands = s.bands := rfl
@[simp] theorem State.setReg_tlbs (s : State) (v : BitVec 6) (w : Word) : (s.setReg v w).tlbs = s.tlbs := rfl
@[simp] theorem State.setReg_walks (s : State) (v : BitVec 6) (w : Word) : (s.setReg v w).walks = s.walks := rfl
@[simp] theorem State.setReg_hub (s : State) (v : BitVec 6) (w : Word) : (s.setReg v w).hub = s.hub := rfl
@[simp] theorem State.setReg_host (s : State) (v : BitVec 6) (w : Word) : (s.setReg v w).host = s.host := rfl
@[simp] theorem State.setReg_efpo (s : State) (v : BitVec 6) (w : Word) : (s.setReg v w).efpo = s.efpo := rfl
@[simp] theorem State.setReg_mgmt (s : State) (v : BitVec 6) (w : Word) : (s.setReg v w).mgmt = s.mgmt := rfl
@[simp] theorem State.setReg_islands (s : State) (v : BitVec 6) (w : Word) : (s.setReg v w).islands = s.islands := rfl
@[simp] theorem State.setReg_hubLevel (s : State) (v : BitVec 6) (w : Word) : (s.setReg v w).hubLevel = s.hubLevel := rfl
@[simp] theorem State.setReg_hubGate (s : State) (v : BitVec 6) (w : Word) : (s.setReg v w).hubGate = s.hubGate := rfl
@[simp] theorem State.setReg_hubPwr (s : State) (v : BitVec 6) (w : Word) : (s.setReg v w).hubPwr = s.hubPwr := rfl
@[simp] theorem State.setReg_sensors (s : State) (v : BitVec 6) (w : Word) : (s.setReg v w).sensors = s.sensors := rfl
@[simp] theorem State.setReg_monitors (s : State) (v : BitVec 6) (w : Word) : (s.setReg v w).monitors = s.monitors := rfl
@[simp] theorem State.setReg_pace (s : State) (v : BitVec 6) (w : Word) : (s.setReg v w).pace = s.pace := rfl
@[simp] theorem State.setReg_power (s : State) (v : BitVec 6) (w : Word) : (s.setReg v w).power = s.power := rfl
@[simp] theorem State.setReg_clk (s : State) (v : BitVec 6) (w : Word) : (s.setReg v w).clk = s.clk := rfl
@[simp] theorem State.setReg_resetAt (s : State) (v : BitVec 6) (w : Word) : (s.setReg v w).resetAt = s.resetAt := rfl
@[simp] theorem State.setReg_agenda (s : State) (v : BitVec 6) (w : Word) : (s.setReg v w).agenda = s.agenda := rfl
@[simp] theorem State.setReg_input (s : State) (v : BitVec 6) (w : Word) : (s.setReg v w).input = s.input := rfl
@[simp] theorem State.setReg_fresh (s : State) (v : BitVec 6) (w : Word) : (s.setReg v w).fresh = s.fresh := rfl
@[simp] theorem State.setReg_lineHolders (s : State) (v : BitVec 6) (w : Word) : (s.setReg v w).lineHolders = s.lineHolders := rfl
@[simp] theorem State.setReg_rowQueue (s : State) (v : BitVec 6) (w : Word) : (s.setReg v w).rowQueue = s.rowQueue := rfl
@[simp] theorem State.setReg_waitingIn (s : State) (v : BitVec 6) (w : Word) : (s.setReg v w).waitingIn = s.waitingIn := rfl
@[simp] theorem State.setReg_stopAt (s : State) (v : BitVec 6) (w : Word) : (s.setReg v w).stopAt = s.stopAt := rfl
@[simp] theorem State.setReg_inPort (s : State) (v : BitVec 6) (w : Word) : (s.setReg v w).inPort = s.inPort := rfl

/-! ### State.advance -/

@[simp] theorem State.advance_others (s : State) : (s.advance).others = s.others := rfl
@[simp] theorem State.advance_mem (s : State) : (s.advance).mem = s.mem := rfl
@[simp] theorem State.advance_poison (s : State) : (s.advance).poison = s.poison := rfl
@[simp] theorem State.advance_versions (s : State) : (s.advance).versions = s.versions := rfl
@[simp] theorem State.advance_cachedUse (s : State) : (s.advance).cachedUse = s.cachedUse := rfl
@[simp] theorem State.advance_conflict (s : State) : (s.advance).conflict = s.conflict := rfl
@[simp] theorem State.advance_lineOwner (s : State) : (s.advance).lineOwner = s.lineOwner := rfl
@[simp] theorem State.advance_towers (s : State) : (s.advance).towers = s.towers := rfl
@[simp] theorem State.advance_groups (s : State) : (s.advance).groups = s.groups := rfl
@[simp] theorem State.advance_bands (s : State) : (s.advance).bands = s.bands := rfl
@[simp] theorem State.advance_tlbs (s : State) : (s.advance).tlbs = s.tlbs := rfl
@[simp] theorem State.advance_walks (s : State) : (s.advance).walks = s.walks := rfl
@[simp] theorem State.advance_hub (s : State) : (s.advance).hub = s.hub := rfl
@[simp] theorem State.advance_host (s : State) : (s.advance).host = s.host := rfl
@[simp] theorem State.advance_efpo (s : State) : (s.advance).efpo = s.efpo := rfl
@[simp] theorem State.advance_mgmt (s : State) : (s.advance).mgmt = s.mgmt := rfl
@[simp] theorem State.advance_islands (s : State) : (s.advance).islands = s.islands := rfl
@[simp] theorem State.advance_hubLevel (s : State) : (s.advance).hubLevel = s.hubLevel := rfl
@[simp] theorem State.advance_hubGate (s : State) : (s.advance).hubGate = s.hubGate := rfl
@[simp] theorem State.advance_hubPwr (s : State) : (s.advance).hubPwr = s.hubPwr := rfl
@[simp] theorem State.advance_sensors (s : State) : (s.advance).sensors = s.sensors := rfl
@[simp] theorem State.advance_monitors (s : State) : (s.advance).monitors = s.monitors := rfl
@[simp] theorem State.advance_pace (s : State) : (s.advance).pace = s.pace := rfl
@[simp] theorem State.advance_power (s : State) : (s.advance).power = s.power := rfl
@[simp] theorem State.advance_clk (s : State) : (s.advance).clk = s.clk := rfl
@[simp] theorem State.advance_resetAt (s : State) : (s.advance).resetAt = s.resetAt := rfl
@[simp] theorem State.advance_agenda (s : State) : (s.advance).agenda = s.agenda := rfl
@[simp] theorem State.advance_input (s : State) : (s.advance).input = s.input := rfl
@[simp] theorem State.advance_fresh (s : State) : (s.advance).fresh = s.fresh := rfl
@[simp] theorem State.advance_lineHolders (s : State) : (s.advance).lineHolders = s.lineHolders := rfl
@[simp] theorem State.advance_rowQueue (s : State) : (s.advance).rowQueue = s.rowQueue := rfl
@[simp] theorem State.advance_waitingIn (s : State) : (s.advance).waitingIn = s.waitingIn := rfl
@[simp] theorem State.advance_stopAt (s : State) : (s.advance).stopAt = s.stopAt := rfl
@[simp] theorem State.advance_inPort (s : State) : (s.advance).inPort = s.inPort := rfl

/-! ### State.setHub -/

@[simp] theorem State.setHub_cur (s : State) (f : Hub → Hub) : (s.setHub f).cur = s.cur := rfl
@[simp] theorem State.setHub_others (s : State) (f : Hub → Hub) : (s.setHub f).others = s.others := rfl
@[simp] theorem State.setHub_mem (s : State) (f : Hub → Hub) : (s.setHub f).mem = s.mem := rfl
@[simp] theorem State.setHub_poison (s : State) (f : Hub → Hub) : (s.setHub f).poison = s.poison := rfl
@[simp] theorem State.setHub_versions (s : State) (f : Hub → Hub) : (s.setHub f).versions = s.versions := rfl
@[simp] theorem State.setHub_cachedUse (s : State) (f : Hub → Hub) : (s.setHub f).cachedUse = s.cachedUse := rfl
@[simp] theorem State.setHub_conflict (s : State) (f : Hub → Hub) : (s.setHub f).conflict = s.conflict := rfl
@[simp] theorem State.setHub_lineOwner (s : State) (f : Hub → Hub) : (s.setHub f).lineOwner = s.lineOwner := rfl
@[simp] theorem State.setHub_towers (s : State) (f : Hub → Hub) : (s.setHub f).towers = s.towers := rfl
@[simp] theorem State.setHub_groups (s : State) (f : Hub → Hub) : (s.setHub f).groups = s.groups := rfl
@[simp] theorem State.setHub_bands (s : State) (f : Hub → Hub) : (s.setHub f).bands = s.bands := rfl
@[simp] theorem State.setHub_tlbs (s : State) (f : Hub → Hub) : (s.setHub f).tlbs = s.tlbs := rfl
@[simp] theorem State.setHub_walks (s : State) (f : Hub → Hub) : (s.setHub f).walks = s.walks := rfl
@[simp] theorem State.setHub_hub (s : State) (f : Hub → Hub) : (s.setHub f).hub = f s.hub := rfl
@[simp] theorem State.setHub_host (s : State) (f : Hub → Hub) : (s.setHub f).host = s.host := rfl
@[simp] theorem State.setHub_efpo (s : State) (f : Hub → Hub) : (s.setHub f).efpo = s.efpo := rfl
@[simp] theorem State.setHub_mgmt (s : State) (f : Hub → Hub) : (s.setHub f).mgmt = s.mgmt := rfl
@[simp] theorem State.setHub_islands (s : State) (f : Hub → Hub) : (s.setHub f).islands = s.islands := rfl
@[simp] theorem State.setHub_hubLevel (s : State) (f : Hub → Hub) : (s.setHub f).hubLevel = s.hubLevel := rfl
@[simp] theorem State.setHub_hubGate (s : State) (f : Hub → Hub) : (s.setHub f).hubGate = s.hubGate := rfl
@[simp] theorem State.setHub_hubPwr (s : State) (f : Hub → Hub) : (s.setHub f).hubPwr = s.hubPwr := rfl
@[simp] theorem State.setHub_sensors (s : State) (f : Hub → Hub) : (s.setHub f).sensors = s.sensors := rfl
@[simp] theorem State.setHub_monitors (s : State) (f : Hub → Hub) : (s.setHub f).monitors = s.monitors := rfl
@[simp] theorem State.setHub_pace (s : State) (f : Hub → Hub) : (s.setHub f).pace = s.pace := rfl
@[simp] theorem State.setHub_power (s : State) (f : Hub → Hub) : (s.setHub f).power = s.power := rfl
@[simp] theorem State.setHub_clk (s : State) (f : Hub → Hub) : (s.setHub f).clk = s.clk := rfl
@[simp] theorem State.setHub_resetAt (s : State) (f : Hub → Hub) : (s.setHub f).resetAt = s.resetAt := rfl
@[simp] theorem State.setHub_agenda (s : State) (f : Hub → Hub) : (s.setHub f).agenda = s.agenda := rfl
@[simp] theorem State.setHub_input (s : State) (f : Hub → Hub) : (s.setHub f).input = s.input := rfl
@[simp] theorem State.setHub_fresh (s : State) (f : Hub → Hub) : (s.setHub f).fresh = s.fresh := rfl
@[simp] theorem State.setHub_lineHolders (s : State) (f : Hub → Hub) : (s.setHub f).lineHolders = s.lineHolders := rfl
@[simp] theorem State.setHub_rowQueue (s : State) (f : Hub → Hub) : (s.setHub f).rowQueue = s.rowQueue := rfl
@[simp] theorem State.setHub_waitingIn (s : State) (f : Hub → Hub) : (s.setHub f).waitingIn = s.waitingIn := rfl
@[simp] theorem State.setHub_stopAt (s : State) (f : Hub → Hub) : (s.setHub f).stopAt = s.stopAt := rfl
@[simp] theorem State.setHub_inPort (s : State) (f : Hub → Hub) : (s.setHub f).inPort = s.inPort := rfl

/-! ### State.setTower -/

@[simp] theorem State.setTower_cur (s : State) (t : Nat) (f : Tower → Tower) : (s.setTower t f).cur = s.cur := rfl
@[simp] theorem State.setTower_others (s : State) (t : Nat) (f : Tower → Tower) : (s.setTower t f).others = s.others := rfl
@[simp] theorem State.setTower_mem (s : State) (t : Nat) (f : Tower → Tower) : (s.setTower t f).mem = s.mem := rfl
@[simp] theorem State.setTower_poison (s : State) (t : Nat) (f : Tower → Tower) : (s.setTower t f).poison = s.poison := rfl
@[simp] theorem State.setTower_versions (s : State) (t : Nat) (f : Tower → Tower) : (s.setTower t f).versions = s.versions := rfl
@[simp] theorem State.setTower_cachedUse (s : State) (t : Nat) (f : Tower → Tower) : (s.setTower t f).cachedUse = s.cachedUse := rfl
@[simp] theorem State.setTower_conflict (s : State) (t : Nat) (f : Tower → Tower) : (s.setTower t f).conflict = s.conflict := rfl
@[simp] theorem State.setTower_lineOwner (s : State) (t : Nat) (f : Tower → Tower) : (s.setTower t f).lineOwner = s.lineOwner := rfl
@[simp] theorem State.setTower_towers (s : State) (t : Nat) (f : Tower → Tower) : (s.setTower t f).towers = s.towers.put t (f (s.tower t)) := rfl
@[simp] theorem State.setTower_groups (s : State) (t : Nat) (f : Tower → Tower) : (s.setTower t f).groups = s.groups := rfl
@[simp] theorem State.setTower_bands (s : State) (t : Nat) (f : Tower → Tower) : (s.setTower t f).bands = s.bands := rfl
@[simp] theorem State.setTower_tlbs (s : State) (t : Nat) (f : Tower → Tower) : (s.setTower t f).tlbs = s.tlbs := rfl
@[simp] theorem State.setTower_walks (s : State) (t : Nat) (f : Tower → Tower) : (s.setTower t f).walks = s.walks := rfl
@[simp] theorem State.setTower_hub (s : State) (t : Nat) (f : Tower → Tower) : (s.setTower t f).hub = s.hub := rfl
@[simp] theorem State.setTower_host (s : State) (t : Nat) (f : Tower → Tower) : (s.setTower t f).host = s.host := rfl
@[simp] theorem State.setTower_efpo (s : State) (t : Nat) (f : Tower → Tower) : (s.setTower t f).efpo = s.efpo := rfl
@[simp] theorem State.setTower_mgmt (s : State) (t : Nat) (f : Tower → Tower) : (s.setTower t f).mgmt = s.mgmt := rfl
@[simp] theorem State.setTower_islands (s : State) (t : Nat) (f : Tower → Tower) : (s.setTower t f).islands = s.islands := rfl
@[simp] theorem State.setTower_hubLevel (s : State) (t : Nat) (f : Tower → Tower) : (s.setTower t f).hubLevel = s.hubLevel := rfl
@[simp] theorem State.setTower_hubGate (s : State) (t : Nat) (f : Tower → Tower) : (s.setTower t f).hubGate = s.hubGate := rfl
@[simp] theorem State.setTower_hubPwr (s : State) (t : Nat) (f : Tower → Tower) : (s.setTower t f).hubPwr = s.hubPwr := rfl
@[simp] theorem State.setTower_sensors (s : State) (t : Nat) (f : Tower → Tower) : (s.setTower t f).sensors = s.sensors := rfl
@[simp] theorem State.setTower_monitors (s : State) (t : Nat) (f : Tower → Tower) : (s.setTower t f).monitors = s.monitors := rfl
@[simp] theorem State.setTower_pace (s : State) (t : Nat) (f : Tower → Tower) : (s.setTower t f).pace = s.pace := rfl
@[simp] theorem State.setTower_power (s : State) (t : Nat) (f : Tower → Tower) : (s.setTower t f).power = s.power := rfl
@[simp] theorem State.setTower_clk (s : State) (t : Nat) (f : Tower → Tower) : (s.setTower t f).clk = s.clk := rfl
@[simp] theorem State.setTower_resetAt (s : State) (t : Nat) (f : Tower → Tower) : (s.setTower t f).resetAt = s.resetAt := rfl
@[simp] theorem State.setTower_agenda (s : State) (t : Nat) (f : Tower → Tower) : (s.setTower t f).agenda = s.agenda := rfl
@[simp] theorem State.setTower_input (s : State) (t : Nat) (f : Tower → Tower) : (s.setTower t f).input = s.input := rfl
@[simp] theorem State.setTower_fresh (s : State) (t : Nat) (f : Tower → Tower) : (s.setTower t f).fresh = s.fresh := rfl
@[simp] theorem State.setTower_lineHolders (s : State) (t : Nat) (f : Tower → Tower) : (s.setTower t f).lineHolders = s.lineHolders := rfl
@[simp] theorem State.setTower_rowQueue (s : State) (t : Nat) (f : Tower → Tower) : (s.setTower t f).rowQueue = s.rowQueue := rfl
@[simp] theorem State.setTower_waitingIn (s : State) (t : Nat) (f : Tower → Tower) : (s.setTower t f).waitingIn = s.waitingIn := rfl
@[simp] theorem State.setTower_stopAt (s : State) (t : Nat) (f : Tower → Tower) : (s.setTower t f).stopAt = s.stopAt := rfl
@[simp] theorem State.setTower_inPort (s : State) (t : Nat) (f : Tower → Tower) : (s.setTower t f).inPort = s.inPort := rfl

/-! ### State.setGroup -/

@[simp] theorem State.setGroup_cur (s : State) (k : Nat) (f : Group → Group) : (s.setGroup k f).cur = s.cur := rfl
@[simp] theorem State.setGroup_others (s : State) (k : Nat) (f : Group → Group) : (s.setGroup k f).others = s.others := rfl
@[simp] theorem State.setGroup_mem (s : State) (k : Nat) (f : Group → Group) : (s.setGroup k f).mem = s.mem := rfl
@[simp] theorem State.setGroup_poison (s : State) (k : Nat) (f : Group → Group) : (s.setGroup k f).poison = s.poison := rfl
@[simp] theorem State.setGroup_versions (s : State) (k : Nat) (f : Group → Group) : (s.setGroup k f).versions = s.versions := rfl
@[simp] theorem State.setGroup_cachedUse (s : State) (k : Nat) (f : Group → Group) : (s.setGroup k f).cachedUse = s.cachedUse := rfl
@[simp] theorem State.setGroup_conflict (s : State) (k : Nat) (f : Group → Group) : (s.setGroup k f).conflict = s.conflict := rfl
@[simp] theorem State.setGroup_lineOwner (s : State) (k : Nat) (f : Group → Group) : (s.setGroup k f).lineOwner = s.lineOwner := rfl
@[simp] theorem State.setGroup_towers (s : State) (k : Nat) (f : Group → Group) : (s.setGroup k f).towers = s.towers := rfl
@[simp] theorem State.setGroup_groups (s : State) (k : Nat) (f : Group → Group) : (s.setGroup k f).groups = s.groups.put k (f (s.group k)) := rfl
@[simp] theorem State.setGroup_bands (s : State) (k : Nat) (f : Group → Group) : (s.setGroup k f).bands = s.bands := rfl
@[simp] theorem State.setGroup_tlbs (s : State) (k : Nat) (f : Group → Group) : (s.setGroup k f).tlbs = s.tlbs := rfl
@[simp] theorem State.setGroup_walks (s : State) (k : Nat) (f : Group → Group) : (s.setGroup k f).walks = s.walks := rfl
@[simp] theorem State.setGroup_hub (s : State) (k : Nat) (f : Group → Group) : (s.setGroup k f).hub = s.hub := rfl
@[simp] theorem State.setGroup_host (s : State) (k : Nat) (f : Group → Group) : (s.setGroup k f).host = s.host := rfl
@[simp] theorem State.setGroup_efpo (s : State) (k : Nat) (f : Group → Group) : (s.setGroup k f).efpo = s.efpo := rfl
@[simp] theorem State.setGroup_mgmt (s : State) (k : Nat) (f : Group → Group) : (s.setGroup k f).mgmt = s.mgmt := rfl
@[simp] theorem State.setGroup_islands (s : State) (k : Nat) (f : Group → Group) : (s.setGroup k f).islands = s.islands := rfl
@[simp] theorem State.setGroup_hubLevel (s : State) (k : Nat) (f : Group → Group) : (s.setGroup k f).hubLevel = s.hubLevel := rfl
@[simp] theorem State.setGroup_hubGate (s : State) (k : Nat) (f : Group → Group) : (s.setGroup k f).hubGate = s.hubGate := rfl
@[simp] theorem State.setGroup_hubPwr (s : State) (k : Nat) (f : Group → Group) : (s.setGroup k f).hubPwr = s.hubPwr := rfl
@[simp] theorem State.setGroup_sensors (s : State) (k : Nat) (f : Group → Group) : (s.setGroup k f).sensors = s.sensors := rfl
@[simp] theorem State.setGroup_monitors (s : State) (k : Nat) (f : Group → Group) : (s.setGroup k f).monitors = s.monitors := rfl
@[simp] theorem State.setGroup_pace (s : State) (k : Nat) (f : Group → Group) : (s.setGroup k f).pace = s.pace := rfl
@[simp] theorem State.setGroup_power (s : State) (k : Nat) (f : Group → Group) : (s.setGroup k f).power = s.power := rfl
@[simp] theorem State.setGroup_clk (s : State) (k : Nat) (f : Group → Group) : (s.setGroup k f).clk = s.clk := rfl
@[simp] theorem State.setGroup_resetAt (s : State) (k : Nat) (f : Group → Group) : (s.setGroup k f).resetAt = s.resetAt := rfl
@[simp] theorem State.setGroup_agenda (s : State) (k : Nat) (f : Group → Group) : (s.setGroup k f).agenda = s.agenda := rfl
@[simp] theorem State.setGroup_input (s : State) (k : Nat) (f : Group → Group) : (s.setGroup k f).input = s.input := rfl
@[simp] theorem State.setGroup_fresh (s : State) (k : Nat) (f : Group → Group) : (s.setGroup k f).fresh = s.fresh := rfl
@[simp] theorem State.setGroup_lineHolders (s : State) (k : Nat) (f : Group → Group) : (s.setGroup k f).lineHolders = s.lineHolders := rfl
@[simp] theorem State.setGroup_rowQueue (s : State) (k : Nat) (f : Group → Group) : (s.setGroup k f).rowQueue = s.rowQueue := rfl
@[simp] theorem State.setGroup_waitingIn (s : State) (k : Nat) (f : Group → Group) : (s.setGroup k f).waitingIn = s.waitingIn := rfl
@[simp] theorem State.setGroup_stopAt (s : State) (k : Nat) (f : Group → Group) : (s.setGroup k f).stopAt = s.stopAt := rfl
@[simp] theorem State.setGroup_inPort (s : State) (k : Nat) (f : Group → Group) : (s.setGroup k f).inPort = s.inPort := rfl

/-! ### State.setIsland -/

@[simp] theorem State.setIsland_cur (s : State) (i : Nat) (f : Island → Island) : (s.setIsland i f).cur = s.cur := rfl
@[simp] theorem State.setIsland_others (s : State) (i : Nat) (f : Island → Island) : (s.setIsland i f).others = s.others := rfl
@[simp] theorem State.setIsland_mem (s : State) (i : Nat) (f : Island → Island) : (s.setIsland i f).mem = s.mem := rfl
@[simp] theorem State.setIsland_poison (s : State) (i : Nat) (f : Island → Island) : (s.setIsland i f).poison = s.poison := rfl
@[simp] theorem State.setIsland_versions (s : State) (i : Nat) (f : Island → Island) : (s.setIsland i f).versions = s.versions := rfl
@[simp] theorem State.setIsland_cachedUse (s : State) (i : Nat) (f : Island → Island) : (s.setIsland i f).cachedUse = s.cachedUse := rfl
@[simp] theorem State.setIsland_conflict (s : State) (i : Nat) (f : Island → Island) : (s.setIsland i f).conflict = s.conflict := rfl
@[simp] theorem State.setIsland_lineOwner (s : State) (i : Nat) (f : Island → Island) : (s.setIsland i f).lineOwner = s.lineOwner := rfl
@[simp] theorem State.setIsland_towers (s : State) (i : Nat) (f : Island → Island) : (s.setIsland i f).towers = s.towers := rfl
@[simp] theorem State.setIsland_groups (s : State) (i : Nat) (f : Island → Island) : (s.setIsland i f).groups = s.groups := rfl
@[simp] theorem State.setIsland_bands (s : State) (i : Nat) (f : Island → Island) : (s.setIsland i f).bands = s.bands := rfl
@[simp] theorem State.setIsland_tlbs (s : State) (i : Nat) (f : Island → Island) : (s.setIsland i f).tlbs = s.tlbs := rfl
@[simp] theorem State.setIsland_walks (s : State) (i : Nat) (f : Island → Island) : (s.setIsland i f).walks = s.walks := rfl
@[simp] theorem State.setIsland_hub (s : State) (i : Nat) (f : Island → Island) : (s.setIsland i f).hub = s.hub := rfl
@[simp] theorem State.setIsland_host (s : State) (i : Nat) (f : Island → Island) : (s.setIsland i f).host = s.host := rfl
@[simp] theorem State.setIsland_efpo (s : State) (i : Nat) (f : Island → Island) : (s.setIsland i f).efpo = s.efpo := rfl
@[simp] theorem State.setIsland_mgmt (s : State) (i : Nat) (f : Island → Island) : (s.setIsland i f).mgmt = s.mgmt := rfl
@[simp] theorem State.setIsland_hubLevel (s : State) (i : Nat) (f : Island → Island) : (s.setIsland i f).hubLevel = s.hubLevel := rfl
@[simp] theorem State.setIsland_hubGate (s : State) (i : Nat) (f : Island → Island) : (s.setIsland i f).hubGate = s.hubGate := rfl
@[simp] theorem State.setIsland_hubPwr (s : State) (i : Nat) (f : Island → Island) : (s.setIsland i f).hubPwr = s.hubPwr := rfl
@[simp] theorem State.setIsland_sensors (s : State) (i : Nat) (f : Island → Island) : (s.setIsland i f).sensors = s.sensors := rfl
@[simp] theorem State.setIsland_monitors (s : State) (i : Nat) (f : Island → Island) : (s.setIsland i f).monitors = s.monitors := rfl
@[simp] theorem State.setIsland_pace (s : State) (i : Nat) (f : Island → Island) : (s.setIsland i f).pace = s.pace := rfl
@[simp] theorem State.setIsland_power (s : State) (i : Nat) (f : Island → Island) : (s.setIsland i f).power = s.power := rfl
@[simp] theorem State.setIsland_clk (s : State) (i : Nat) (f : Island → Island) : (s.setIsland i f).clk = s.clk := rfl
@[simp] theorem State.setIsland_resetAt (s : State) (i : Nat) (f : Island → Island) : (s.setIsland i f).resetAt = s.resetAt := rfl
@[simp] theorem State.setIsland_agenda (s : State) (i : Nat) (f : Island → Island) : (s.setIsland i f).agenda = s.agenda := rfl
@[simp] theorem State.setIsland_input (s : State) (i : Nat) (f : Island → Island) : (s.setIsland i f).input = s.input := rfl
@[simp] theorem State.setIsland_fresh (s : State) (i : Nat) (f : Island → Island) : (s.setIsland i f).fresh = s.fresh := rfl
@[simp] theorem State.setIsland_lineHolders (s : State) (i : Nat) (f : Island → Island) : (s.setIsland i f).lineHolders = s.lineHolders := rfl
@[simp] theorem State.setIsland_rowQueue (s : State) (i : Nat) (f : Island → Island) : (s.setIsland i f).rowQueue = s.rowQueue := rfl
@[simp] theorem State.setIsland_waitingIn (s : State) (i : Nat) (f : Island → Island) : (s.setIsland i f).waitingIn = s.waitingIn := rfl
@[simp] theorem State.setIsland_stopAt (s : State) (i : Nat) (f : Island → Island) : (s.setIsland i f).stopAt = s.stopAt := rfl
@[simp] theorem State.setIsland_inPort (s : State) (i : Nat) (f : Island → Island) : (s.setIsland i f).inPort = s.inPort := rfl

/-! ### State.poke -/

@[simp] theorem State.poke_cur (s : State) (a : Nat) (bs : List Byte) : (s.poke a bs).cur = s.cur := rfl
@[simp] theorem State.poke_others (s : State) (a : Nat) (bs : List Byte) : (s.poke a bs).others = s.others := rfl
@[simp] theorem State.poke_mem (s : State) (a : Nat) (bs : List Byte) : (s.poke a bs).mem = Memory.writeN s.mem a bs := rfl
@[simp] theorem State.poke_poison (s : State) (a : Nat) (bs : List Byte) : (s.poke a bs).poison = s.poison := rfl
@[simp] theorem State.poke_versions (s : State) (a : Nat) (bs : List Byte) : (s.poke a bs).versions = s.versions := rfl
@[simp] theorem State.poke_cachedUse (s : State) (a : Nat) (bs : List Byte) : (s.poke a bs).cachedUse = s.cachedUse := rfl
@[simp] theorem State.poke_conflict (s : State) (a : Nat) (bs : List Byte) : (s.poke a bs).conflict = s.conflict := rfl
@[simp] theorem State.poke_lineOwner (s : State) (a : Nat) (bs : List Byte) : (s.poke a bs).lineOwner = s.lineOwner := rfl
@[simp] theorem State.poke_towers (s : State) (a : Nat) (bs : List Byte) : (s.poke a bs).towers = s.towers := rfl
@[simp] theorem State.poke_groups (s : State) (a : Nat) (bs : List Byte) : (s.poke a bs).groups = s.groups := rfl
@[simp] theorem State.poke_bands (s : State) (a : Nat) (bs : List Byte) : (s.poke a bs).bands = s.bands := rfl
@[simp] theorem State.poke_tlbs (s : State) (a : Nat) (bs : List Byte) : (s.poke a bs).tlbs = s.tlbs := rfl
@[simp] theorem State.poke_walks (s : State) (a : Nat) (bs : List Byte) : (s.poke a bs).walks = s.walks := rfl
@[simp] theorem State.poke_hub (s : State) (a : Nat) (bs : List Byte) : (s.poke a bs).hub = s.hub := rfl
@[simp] theorem State.poke_host (s : State) (a : Nat) (bs : List Byte) : (s.poke a bs).host = s.host := rfl
@[simp] theorem State.poke_efpo (s : State) (a : Nat) (bs : List Byte) : (s.poke a bs).efpo = s.efpo := rfl
@[simp] theorem State.poke_mgmt (s : State) (a : Nat) (bs : List Byte) : (s.poke a bs).mgmt = s.mgmt := rfl
@[simp] theorem State.poke_islands (s : State) (a : Nat) (bs : List Byte) : (s.poke a bs).islands = s.islands := rfl
@[simp] theorem State.poke_hubLevel (s : State) (a : Nat) (bs : List Byte) : (s.poke a bs).hubLevel = s.hubLevel := rfl
@[simp] theorem State.poke_hubGate (s : State) (a : Nat) (bs : List Byte) : (s.poke a bs).hubGate = s.hubGate := rfl
@[simp] theorem State.poke_hubPwr (s : State) (a : Nat) (bs : List Byte) : (s.poke a bs).hubPwr = s.hubPwr := rfl
@[simp] theorem State.poke_sensors (s : State) (a : Nat) (bs : List Byte) : (s.poke a bs).sensors = s.sensors := rfl
@[simp] theorem State.poke_monitors (s : State) (a : Nat) (bs : List Byte) : (s.poke a bs).monitors = s.monitors := rfl
@[simp] theorem State.poke_pace (s : State) (a : Nat) (bs : List Byte) : (s.poke a bs).pace = s.pace := rfl
@[simp] theorem State.poke_power (s : State) (a : Nat) (bs : List Byte) : (s.poke a bs).power = s.power := rfl
@[simp] theorem State.poke_clk (s : State) (a : Nat) (bs : List Byte) : (s.poke a bs).clk = s.clk := rfl
@[simp] theorem State.poke_resetAt (s : State) (a : Nat) (bs : List Byte) : (s.poke a bs).resetAt = s.resetAt := rfl
@[simp] theorem State.poke_agenda (s : State) (a : Nat) (bs : List Byte) : (s.poke a bs).agenda = s.agenda := rfl
@[simp] theorem State.poke_input (s : State) (a : Nat) (bs : List Byte) : (s.poke a bs).input = s.input := rfl
@[simp] theorem State.poke_fresh (s : State) (a : Nat) (bs : List Byte) : (s.poke a bs).fresh = s.fresh := rfl
@[simp] theorem State.poke_lineHolders (s : State) (a : Nat) (bs : List Byte) : (s.poke a bs).lineHolders = s.lineHolders := rfl
@[simp] theorem State.poke_rowQueue (s : State) (a : Nat) (bs : List Byte) : (s.poke a bs).rowQueue = s.rowQueue := rfl
@[simp] theorem State.poke_waitingIn (s : State) (a : Nat) (bs : List Byte) : (s.poke a bs).waitingIn = s.waitingIn := rfl
@[simp] theorem State.poke_stopAt (s : State) (a : Nat) (bs : List Byte) : (s.poke a bs).stopAt = s.stopAt := rfl
@[simp] theorem State.poke_inPort (s : State) (a : Nat) (bs : List Byte) : (s.poke a bs).inPort = s.inPort := rfl

/-! ### State.advance on the current context -/

@[simp] theorem State.advance_cur_kind (s : State) : s.advance.cur.kind = s.cur.kind := rfl
@[simp] theorem State.advance_cur_place (s : State) : s.advance.cur.place = s.cur.place := rfl
@[simp] theorem State.advance_cur_part (s : State) : s.advance.cur.part = s.cur.part := rfl
@[simp] theorem State.advance_cur_home (s : State) : s.advance.cur.home = s.cur.home := rfl
@[simp] theorem State.advance_cur_run (s : State) : s.advance.cur.run = s.cur.run := rfl
@[simp] theorem State.advance_cur_reqid (s : State) : s.advance.cur.reqid = s.cur.reqid := rfl
@[simp] theorem State.advance_cur_entry (s : State) : s.advance.cur.entry = s.cur.entry := rfl
@[simp] theorem State.advance_cur_launch (s : State) : s.advance.cur.launch = s.cur.launch := rfl
@[simp] theorem State.advance_cur_rank (s : State) : s.advance.cur.rank = s.cur.rank := rfl
@[simp] theorem State.advance_cur_count (s : State) : s.advance.cur.count = s.cur.count := rfl
@[simp] theorem State.advance_cur_index (s : State) : s.advance.cur.index = s.cur.index := rfl
@[simp] theorem State.advance_cur_gang (s : State) : s.advance.cur.gang = s.cur.gang := rfl
@[simp] theorem State.advance_cur_regs (s : State) : s.advance.cur.regs = s.cur.regs := rfl
@[simp] theorem State.advance_cur_pc (s : State) : s.advance.cur.pc = s.cur.pc + 8 := rfl
@[simp] theorem State.advance_cur_sup (s : State) : s.advance.cur.sup = s.cur.sup := rfl
@[simp] theorem State.advance_cur_vl (s : State) : s.advance.cur.vl = s.cur.vl := rfl
@[simp] theorem State.advance_cur_vcfg (s : State) : s.advance.cur.vcfg = s.cur.vcfg := rfl
@[simp] theorem State.advance_cur_estart (s : State) : s.advance.cur.estart = s.cur.estart := rfl
@[simp] theorem State.advance_cur_ctb (s : State) : s.advance.cur.ctb = s.cur.ctb := rfl
@[simp] theorem State.advance_cur_fflags (s : State) : s.advance.cur.fflags = s.cur.fflags := rfl
@[simp] theorem State.advance_cur_frm (s : State) : s.advance.cur.frm = s.cur.frm := rfl
@[simp] theorem State.advance_cur_ck (s : State) : s.advance.cur.ck = s.cur.ck := rfl
@[simp] theorem State.advance_cur_pmcnt (s : State) : s.advance.cur.pmcnt = s.cur.pmcnt := rfl
@[simp] theorem State.advance_cur_tcfg (s : State) : s.advance.cur.tcfg = s.cur.tcfg := rfl
@[simp] theorem State.advance_cur_mownEn (s : State) : s.advance.cur.mownEn = s.cur.mownEn := rfl
@[simp] theorem State.advance_cur_vset (s : State) : s.advance.cur.vset = s.cur.vset := rfl
@[simp] theorem State.advance_cur_snext (s : State) : s.advance.cur.snext = s.cur.snext := rfl
@[simp] theorem State.advance_cur_sfloor (s : State) : s.advance.cur.sfloor = s.cur.sfloor := rfl
@[simp] theorem State.advance_cur_preq (s : State) : s.advance.cur.preq = s.cur.preq := rfl
@[simp] theorem State.advance_cur_preqNe (s : State) : s.advance.cur.preqNe = s.cur.preqNe := rfl
@[simp] theorem State.advance_cur_pdeadln (s : State) : s.advance.cur.pdeadln = s.cur.pdeadln := rfl
@[simp] theorem State.advance_cur_pm (s : State) : s.advance.cur.pm = s.cur.pm := rfl
@[simp] theorem State.advance_cur_tl (s : State) : s.advance.cur.tl = s.cur.tl := rfl
@[simp] theorem State.advance_cur_half (s : State) : s.advance.cur.half = s.cur.half := rfl
@[simp] theorem State.advance_cur_hv (s : State) : s.advance.cur.hv = s.cur.hv := rfl
@[simp] theorem State.advance_cur_hdone (s : State) : s.advance.cur.hdone = s.cur.hdone := rfl
@[simp] theorem State.advance_cur_async (s : State) : s.advance.cur.async = s.cur.async := rfl
@[simp] theorem State.advance_cur_skip (s : State) : s.advance.cur.skip = s.cur.skip := rfl
@[simp] theorem State.advance_cur_npr (s : State) : s.advance.cur.npr = s.cur.npr := rfl
@[simp] theorem State.advance_cur_tcause (s : State) : s.advance.cur.tcause = s.cur.tcause := rfl
@[simp] theorem State.advance_cur_tpc (s : State) : s.advance.cur.tpc = s.cur.tpc := rfl
@[simp] theorem State.advance_cur_tval (s : State) : s.advance.cur.tval = s.cur.tval := rfl
@[simp] theorem State.advance_cur_tvec (s : State) : s.advance.cur.tvec = s.cur.tvec := rfl
@[simp] theorem State.advance_cur_trec (s : State) : s.advance.cur.trec = s.cur.trec := rfl
@[simp] theorem State.advance_cur_tscratch (s : State) : s.advance.cur.tscratch = s.cur.tscratch := rfl
@[simp] theorem State.advance_cur_ptroot (s : State) : s.advance.cur.ptroot = s.cur.ptroot := rfl
@[simp] theorem State.advance_cur_ctxsave (s : State) : s.advance.cur.ctxsave = s.cur.ctxsave := rfl
@[simp] theorem State.advance_cur_lclass (s : State) : s.advance.cur.lclass = s.cur.lclass := rfl
@[simp] theorem State.advance_cur_prio (s : State) : s.advance.cur.prio = s.cur.prio := rfl
@[simp] theorem State.advance_cur_strict (s : State) : s.advance.cur.strict = s.cur.strict := rfl
@[simp] theorem State.advance_cur_facc (s : State) : s.advance.cur.facc = s.cur.facc := rfl
@[simp] theorem State.advance_cur_untracked (s : State) : s.advance.cur.untracked = s.cur.untracked := rfl
@[simp] theorem State.advance_cur_masks (s : State) : s.advance.cur.masks = s.cur.masks := rfl
@[simp] theorem State.advance_cur_poisonMask (s : State) : s.advance.cur.poisonMask = s.cur.poisonMask := rfl
@[simp] theorem State.advance_cur_tiles (s : State) : s.advance.cur.tiles = s.cur.tiles := rfl
@[simp] theorem State.advance_cur_accs (s : State) : s.advance.cur.accs = s.cur.accs := rfl
@[simp] theorem State.advance_cur_pend (s : State) : s.advance.cur.pend = s.cur.pend := rfl
@[simp] theorem State.advance_cur_transfers (s : State) : s.advance.cur.transfers = s.cur.transfers := rfl
@[simp] theorem State.advance_cur_wait (s : State) : s.advance.cur.wait = s.cur.wait := rfl
@[simp] theorem State.advance_cur_blocked (s : State) : s.advance.cur.blocked = s.cur.blocked := rfl
@[simp] theorem State.advance_cur_barad (s : State) : s.advance.cur.barad = s.cur.barad := rfl
@[simp] theorem State.advance_cur_reply (s : State) : s.advance.cur.reply = s.cur.reply := rfl
@[simp] theorem State.advance_cur_pdeadFrac (s : State) : s.advance.cur.pdeadFrac = s.cur.pdeadFrac := rfl
@[simp] theorem State.advance_cur_ctbDone (s : State) : s.advance.cur.ctbDone = s.cur.ctbDone := rfl
@[simp] theorem State.advance_cur_handed (s : State) : s.advance.cur.handed = s.cur.handed := rfl
@[simp] theorem State.advance_cur_gone (s : State) : s.advance.cur.gone = s.cur.gone := rfl
@[simp] theorem State.advance_cur_lwait (s : State) : s.advance.cur.lwait = s.cur.lwait := rfl
@[simp] theorem State.advance_cur_lwaitFreed (s : State) : s.advance.cur.lwaitFreed = s.cur.lwaitFreed := rfl
@[simp] theorem State.advance_cur_regionHold (s : State) : s.advance.cur.regionHold = s.cur.regionHold := rfl
@[simp] theorem State.advance_cur_readyOrder (s : State) : s.advance.cur.readyOrder = s.cur.readyOrder := rfl
@[simp] theorem State.advance_cur_unfenced (s : State) : s.advance.cur.unfenced = s.cur.unfenced := rfl
@[simp] theorem State.advance_cur_pubs (s : State) : s.advance.cur.pubs = s.cur.pubs := rfl
@[simp] theorem State.advance_cur_beacons (s : State) : s.advance.cur.beacons = s.cur.beacons := rfl
@[simp] theorem State.advance_cur_cancelled (s : State) : s.advance.cur.cancelled = s.cur.cancelled := rfl
@[simp] theorem State.advance_cur_ending (s : State) : s.advance.cur.ending = s.cur.ending := rfl
@[simp] theorem State.advance_cur_drain (s : State) : s.advance.cur.drain = s.cur.drain := rfl
@[simp] theorem State.advance_cur_wantHeld (s : State) : s.advance.cur.wantHeld = s.cur.wantHeld := rfl
@[simp] theorem State.advance_cur_migrate (s : State) : s.advance.cur.migrate = s.cur.migrate := rfl
@[simp] theorem State.advance_cur_readySince (s : State) : s.advance.cur.readySince = s.cur.readySince := rfl
@[simp] theorem State.advance_cur_runSince (s : State) : s.advance.cur.runSince = s.cur.runSince := rfl
@[simp] theorem State.advance_cur_reopen (s : State) : s.advance.cur.reopen = s.cur.reopen := rfl
@[simp] theorem State.advance_cur_queues (s : State) : s.advance.cur.queues = s.cur.queues := rfl
@[simp] theorem State.advance_cur_recorded (s : State) : s.advance.cur.recorded = s.cur.recorded := rfl
@[simp] theorem State.advance_cur_replay (s : State) : s.advance.cur.replay = s.cur.replay := rfl

/-! ### Ctx.setReg -/

@[simp] theorem Ctx.setReg_kind (c : Ctx) (v : BitVec 6) (w : Word) : (c.setReg v w).kind = c.kind := by unfold Ctx.setReg; split <;> rfl
@[simp] theorem Ctx.setReg_place (c : Ctx) (v : BitVec 6) (w : Word) : (c.setReg v w).place = c.place := by unfold Ctx.setReg; split <;> rfl
@[simp] theorem Ctx.setReg_part (c : Ctx) (v : BitVec 6) (w : Word) : (c.setReg v w).part = c.part := by unfold Ctx.setReg; split <;> rfl
@[simp] theorem Ctx.setReg_home (c : Ctx) (v : BitVec 6) (w : Word) : (c.setReg v w).home = c.home := by unfold Ctx.setReg; split <;> rfl
@[simp] theorem Ctx.setReg_run (c : Ctx) (v : BitVec 6) (w : Word) : (c.setReg v w).run = c.run := by unfold Ctx.setReg; split <;> rfl
@[simp] theorem Ctx.setReg_reqid (c : Ctx) (v : BitVec 6) (w : Word) : (c.setReg v w).reqid = c.reqid := by unfold Ctx.setReg; split <;> rfl
@[simp] theorem Ctx.setReg_entry (c : Ctx) (v : BitVec 6) (w : Word) : (c.setReg v w).entry = c.entry := by unfold Ctx.setReg; split <;> rfl
@[simp] theorem Ctx.setReg_launch (c : Ctx) (v : BitVec 6) (w : Word) : (c.setReg v w).launch = c.launch := by unfold Ctx.setReg; split <;> rfl
@[simp] theorem Ctx.setReg_rank (c : Ctx) (v : BitVec 6) (w : Word) : (c.setReg v w).rank = c.rank := by unfold Ctx.setReg; split <;> rfl
@[simp] theorem Ctx.setReg_count (c : Ctx) (v : BitVec 6) (w : Word) : (c.setReg v w).count = c.count := by unfold Ctx.setReg; split <;> rfl
@[simp] theorem Ctx.setReg_index (c : Ctx) (v : BitVec 6) (w : Word) : (c.setReg v w).index = c.index := by unfold Ctx.setReg; split <;> rfl
@[simp] theorem Ctx.setReg_gang (c : Ctx) (v : BitVec 6) (w : Word) : (c.setReg v w).gang = c.gang := by unfold Ctx.setReg; split <;> rfl
@[simp] theorem Ctx.setReg_pc (c : Ctx) (v : BitVec 6) (w : Word) : (c.setReg v w).pc = c.pc := by unfold Ctx.setReg; split <;> rfl
@[simp] theorem Ctx.setReg_sup (c : Ctx) (v : BitVec 6) (w : Word) : (c.setReg v w).sup = c.sup := by unfold Ctx.setReg; split <;> rfl
@[simp] theorem Ctx.setReg_vl (c : Ctx) (v : BitVec 6) (w : Word) : (c.setReg v w).vl = c.vl := by unfold Ctx.setReg; split <;> rfl
@[simp] theorem Ctx.setReg_vcfg (c : Ctx) (v : BitVec 6) (w : Word) : (c.setReg v w).vcfg = c.vcfg := by unfold Ctx.setReg; split <;> rfl
@[simp] theorem Ctx.setReg_estart (c : Ctx) (v : BitVec 6) (w : Word) : (c.setReg v w).estart = c.estart := by unfold Ctx.setReg; split <;> rfl
@[simp] theorem Ctx.setReg_ctb (c : Ctx) (v : BitVec 6) (w : Word) : (c.setReg v w).ctb = c.ctb := by unfold Ctx.setReg; split <;> rfl
@[simp] theorem Ctx.setReg_fflags (c : Ctx) (v : BitVec 6) (w : Word) : (c.setReg v w).fflags = c.fflags := by unfold Ctx.setReg; split <;> rfl
@[simp] theorem Ctx.setReg_frm (c : Ctx) (v : BitVec 6) (w : Word) : (c.setReg v w).frm = c.frm := by unfold Ctx.setReg; split <;> rfl
@[simp] theorem Ctx.setReg_ck (c : Ctx) (v : BitVec 6) (w : Word) : (c.setReg v w).ck = c.ck := by unfold Ctx.setReg; split <;> rfl
@[simp] theorem Ctx.setReg_pmcnt (c : Ctx) (v : BitVec 6) (w : Word) : (c.setReg v w).pmcnt = c.pmcnt := by unfold Ctx.setReg; split <;> rfl
@[simp] theorem Ctx.setReg_tcfg (c : Ctx) (v : BitVec 6) (w : Word) : (c.setReg v w).tcfg = c.tcfg := by unfold Ctx.setReg; split <;> rfl
@[simp] theorem Ctx.setReg_mownEn (c : Ctx) (v : BitVec 6) (w : Word) : (c.setReg v w).mownEn = c.mownEn := by unfold Ctx.setReg; split <;> rfl
@[simp] theorem Ctx.setReg_vset (c : Ctx) (v : BitVec 6) (w : Word) : (c.setReg v w).vset = c.vset := by unfold Ctx.setReg; split <;> rfl
@[simp] theorem Ctx.setReg_snext (c : Ctx) (v : BitVec 6) (w : Word) : (c.setReg v w).snext = c.snext := by unfold Ctx.setReg; split <;> rfl
@[simp] theorem Ctx.setReg_sfloor (c : Ctx) (v : BitVec 6) (w : Word) : (c.setReg v w).sfloor = c.sfloor := by unfold Ctx.setReg; split <;> rfl
@[simp] theorem Ctx.setReg_preq (c : Ctx) (v : BitVec 6) (w : Word) : (c.setReg v w).preq = c.preq := by unfold Ctx.setReg; split <;> rfl
@[simp] theorem Ctx.setReg_preqNe (c : Ctx) (v : BitVec 6) (w : Word) : (c.setReg v w).preqNe = c.preqNe := by unfold Ctx.setReg; split <;> rfl
@[simp] theorem Ctx.setReg_pdeadln (c : Ctx) (v : BitVec 6) (w : Word) : (c.setReg v w).pdeadln = c.pdeadln := by unfold Ctx.setReg; split <;> rfl
@[simp] theorem Ctx.setReg_pm (c : Ctx) (v : BitVec 6) (w : Word) : (c.setReg v w).pm = c.pm := by unfold Ctx.setReg; split <;> rfl
@[simp] theorem Ctx.setReg_tl (c : Ctx) (v : BitVec 6) (w : Word) : (c.setReg v w).tl = c.tl := by unfold Ctx.setReg; split <;> rfl
@[simp] theorem Ctx.setReg_half (c : Ctx) (v : BitVec 6) (w : Word) : (c.setReg v w).half = c.half := by unfold Ctx.setReg; split <;> rfl
@[simp] theorem Ctx.setReg_hv (c : Ctx) (v : BitVec 6) (w : Word) : (c.setReg v w).hv = c.hv := by unfold Ctx.setReg; split <;> rfl
@[simp] theorem Ctx.setReg_hdone (c : Ctx) (v : BitVec 6) (w : Word) : (c.setReg v w).hdone = c.hdone := by unfold Ctx.setReg; split <;> rfl
@[simp] theorem Ctx.setReg_async (c : Ctx) (v : BitVec 6) (w : Word) : (c.setReg v w).async = c.async := by unfold Ctx.setReg; split <;> rfl
@[simp] theorem Ctx.setReg_skip (c : Ctx) (v : BitVec 6) (w : Word) : (c.setReg v w).skip = c.skip := by unfold Ctx.setReg; split <;> rfl
@[simp] theorem Ctx.setReg_npr (c : Ctx) (v : BitVec 6) (w : Word) : (c.setReg v w).npr = c.npr := by unfold Ctx.setReg; split <;> rfl
@[simp] theorem Ctx.setReg_tcause (c : Ctx) (v : BitVec 6) (w : Word) : (c.setReg v w).tcause = c.tcause := by unfold Ctx.setReg; split <;> rfl
@[simp] theorem Ctx.setReg_tpc (c : Ctx) (v : BitVec 6) (w : Word) : (c.setReg v w).tpc = c.tpc := by unfold Ctx.setReg; split <;> rfl
@[simp] theorem Ctx.setReg_tval (c : Ctx) (v : BitVec 6) (w : Word) : (c.setReg v w).tval = c.tval := by unfold Ctx.setReg; split <;> rfl
@[simp] theorem Ctx.setReg_tvec (c : Ctx) (v : BitVec 6) (w : Word) : (c.setReg v w).tvec = c.tvec := by unfold Ctx.setReg; split <;> rfl
@[simp] theorem Ctx.setReg_trec (c : Ctx) (v : BitVec 6) (w : Word) : (c.setReg v w).trec = c.trec := by unfold Ctx.setReg; split <;> rfl
@[simp] theorem Ctx.setReg_tscratch (c : Ctx) (v : BitVec 6) (w : Word) : (c.setReg v w).tscratch = c.tscratch := by unfold Ctx.setReg; split <;> rfl
@[simp] theorem Ctx.setReg_ptroot (c : Ctx) (v : BitVec 6) (w : Word) : (c.setReg v w).ptroot = c.ptroot := by unfold Ctx.setReg; split <;> rfl
@[simp] theorem Ctx.setReg_ctxsave (c : Ctx) (v : BitVec 6) (w : Word) : (c.setReg v w).ctxsave = c.ctxsave := by unfold Ctx.setReg; split <;> rfl
@[simp] theorem Ctx.setReg_lclass (c : Ctx) (v : BitVec 6) (w : Word) : (c.setReg v w).lclass = c.lclass := by unfold Ctx.setReg; split <;> rfl
@[simp] theorem Ctx.setReg_prio (c : Ctx) (v : BitVec 6) (w : Word) : (c.setReg v w).prio = c.prio := by unfold Ctx.setReg; split <;> rfl
@[simp] theorem Ctx.setReg_strict (c : Ctx) (v : BitVec 6) (w : Word) : (c.setReg v w).strict = c.strict := by unfold Ctx.setReg; split <;> rfl
@[simp] theorem Ctx.setReg_facc (c : Ctx) (v : BitVec 6) (w : Word) : (c.setReg v w).facc = c.facc := by unfold Ctx.setReg; split <;> rfl
@[simp] theorem Ctx.setReg_untracked (c : Ctx) (v : BitVec 6) (w : Word) : (c.setReg v w).untracked = c.untracked := by unfold Ctx.setReg; split <;> rfl
@[simp] theorem Ctx.setReg_masks (c : Ctx) (v : BitVec 6) (w : Word) : (c.setReg v w).masks = c.masks := by unfold Ctx.setReg; split <;> rfl
@[simp] theorem Ctx.setReg_poisonMask (c : Ctx) (v : BitVec 6) (w : Word) : (c.setReg v w).poisonMask = c.poisonMask := by unfold Ctx.setReg; split <;> rfl
@[simp] theorem Ctx.setReg_tiles (c : Ctx) (v : BitVec 6) (w : Word) : (c.setReg v w).tiles = c.tiles := by unfold Ctx.setReg; split <;> rfl
@[simp] theorem Ctx.setReg_accs (c : Ctx) (v : BitVec 6) (w : Word) : (c.setReg v w).accs = c.accs := by unfold Ctx.setReg; split <;> rfl
@[simp] theorem Ctx.setReg_pend (c : Ctx) (v : BitVec 6) (w : Word) : (c.setReg v w).pend = c.pend := by unfold Ctx.setReg; split <;> rfl
@[simp] theorem Ctx.setReg_transfers (c : Ctx) (v : BitVec 6) (w : Word) : (c.setReg v w).transfers = c.transfers := by unfold Ctx.setReg; split <;> rfl
@[simp] theorem Ctx.setReg_wait (c : Ctx) (v : BitVec 6) (w : Word) : (c.setReg v w).wait = c.wait := by unfold Ctx.setReg; split <;> rfl
@[simp] theorem Ctx.setReg_blocked (c : Ctx) (v : BitVec 6) (w : Word) : (c.setReg v w).blocked = c.blocked := by unfold Ctx.setReg; split <;> rfl
@[simp] theorem Ctx.setReg_barad (c : Ctx) (v : BitVec 6) (w : Word) : (c.setReg v w).barad = c.barad := by unfold Ctx.setReg; split <;> rfl
@[simp] theorem Ctx.setReg_reply (c : Ctx) (v : BitVec 6) (w : Word) : (c.setReg v w).reply = c.reply := by unfold Ctx.setReg; split <;> rfl
@[simp] theorem Ctx.setReg_pdeadFrac (c : Ctx) (v : BitVec 6) (w : Word) : (c.setReg v w).pdeadFrac = c.pdeadFrac := by unfold Ctx.setReg; split <;> rfl
@[simp] theorem Ctx.setReg_ctbDone (c : Ctx) (v : BitVec 6) (w : Word) : (c.setReg v w).ctbDone = c.ctbDone := by unfold Ctx.setReg; split <;> rfl
@[simp] theorem Ctx.setReg_handed (c : Ctx) (v : BitVec 6) (w : Word) : (c.setReg v w).handed = c.handed := by unfold Ctx.setReg; split <;> rfl
@[simp] theorem Ctx.setReg_gone (c : Ctx) (v : BitVec 6) (w : Word) : (c.setReg v w).gone = c.gone := by unfold Ctx.setReg; split <;> rfl
@[simp] theorem Ctx.setReg_lwait (c : Ctx) (v : BitVec 6) (w : Word) : (c.setReg v w).lwait = c.lwait := by unfold Ctx.setReg; split <;> rfl
@[simp] theorem Ctx.setReg_lwaitFreed (c : Ctx) (v : BitVec 6) (w : Word) : (c.setReg v w).lwaitFreed = c.lwaitFreed := by unfold Ctx.setReg; split <;> rfl
@[simp] theorem Ctx.setReg_regionHold (c : Ctx) (v : BitVec 6) (w : Word) : (c.setReg v w).regionHold = c.regionHold := by unfold Ctx.setReg; split <;> rfl
@[simp] theorem Ctx.setReg_readyOrder (c : Ctx) (v : BitVec 6) (w : Word) : (c.setReg v w).readyOrder = c.readyOrder := by unfold Ctx.setReg; split <;> rfl
@[simp] theorem Ctx.setReg_unfenced (c : Ctx) (v : BitVec 6) (w : Word) : (c.setReg v w).unfenced = c.unfenced := by unfold Ctx.setReg; split <;> rfl
@[simp] theorem Ctx.setReg_pubs (c : Ctx) (v : BitVec 6) (w : Word) : (c.setReg v w).pubs = c.pubs := by unfold Ctx.setReg; split <;> rfl
@[simp] theorem Ctx.setReg_beacons (c : Ctx) (v : BitVec 6) (w : Word) : (c.setReg v w).beacons = c.beacons := by unfold Ctx.setReg; split <;> rfl
@[simp] theorem Ctx.setReg_cancelled (c : Ctx) (v : BitVec 6) (w : Word) : (c.setReg v w).cancelled = c.cancelled := by unfold Ctx.setReg; split <;> rfl
@[simp] theorem Ctx.setReg_ending (c : Ctx) (v : BitVec 6) (w : Word) : (c.setReg v w).ending = c.ending := by unfold Ctx.setReg; split <;> rfl
@[simp] theorem Ctx.setReg_drain (c : Ctx) (v : BitVec 6) (w : Word) : (c.setReg v w).drain = c.drain := by unfold Ctx.setReg; split <;> rfl
@[simp] theorem Ctx.setReg_wantHeld (c : Ctx) (v : BitVec 6) (w : Word) : (c.setReg v w).wantHeld = c.wantHeld := by unfold Ctx.setReg; split <;> rfl
@[simp] theorem Ctx.setReg_migrate (c : Ctx) (v : BitVec 6) (w : Word) : (c.setReg v w).migrate = c.migrate := by unfold Ctx.setReg; split <;> rfl
@[simp] theorem Ctx.setReg_readySince (c : Ctx) (v : BitVec 6) (w : Word) : (c.setReg v w).readySince = c.readySince := by unfold Ctx.setReg; split <;> rfl
@[simp] theorem Ctx.setReg_runSince (c : Ctx) (v : BitVec 6) (w : Word) : (c.setReg v w).runSince = c.runSince := by unfold Ctx.setReg; split <;> rfl
@[simp] theorem Ctx.setReg_reopen (c : Ctx) (v : BitVec 6) (w : Word) : (c.setReg v w).reopen = c.reopen := by unfold Ctx.setReg; split <;> rfl
@[simp] theorem Ctx.setReg_queues (c : Ctx) (v : BitVec 6) (w : Word) : (c.setReg v w).queues = c.queues := by unfold Ctx.setReg; split <;> rfl
@[simp] theorem Ctx.setReg_recorded (c : Ctx) (v : BitVec 6) (w : Word) : (c.setReg v w).recorded = c.recorded := by unfold Ctx.setReg; split <;> rfl
@[simp] theorem Ctx.setReg_replay (c : Ctx) (v : BitVec 6) (w : Word) : (c.setReg v w).replay = c.replay := by unfold Ctx.setReg; split <;> rfl

/-! ### Registers read back -/

/-- A scalar reads back what was written; s0 reads as zero. -/
theorem Ctx.reg_setReg_same (c : Ctx) (v : BitVec 6) (w : Word) : (c.setReg v w).reg v = if v = 0 then 0 else w := by
  unfold Ctx.setReg Ctx.reg; split <;> simp_all

/-- Writing a scalar leaves every other scalar. -/
theorem Ctx.reg_setReg_other (c : Ctx) (u v : BitVec 6) (w : Word) (h : u.toNat % 32 ≠ v.toNat % 32) : (c.setReg v w).reg u = c.reg u := by
  unfold Ctx.setReg Ctx.reg
  by_cases hv : v = 0
  · simp [hv]
  · by_cases hu : u = 0
    · simp [hu]
    · rw [if_neg hu, if_neg hu, if_neg hv]
      exact Vector.getElem_set_ne (Nat.mod_lt _ (by decide)) (Nat.mod_lt _ (by decide)) (Ne.symm h)

@[simp] theorem Ctx.setReg_zero (c : Ctx) (w : Word) : c.setReg 0 w = c := rfl
@[simp] theorem State.setReg_zero (s : State) (w : Word) : s.setReg 0 w = s := rfl

end Sys2Proof.Machine
end

