-- ==== Sys2Proof/Laws/Ops.lean ====
section
/-! SUPPORT. What the shared operations can do, said once: the issue of an instruction, the ends of a body, the checks of a vector
instruction, the writing of rows, and byte accesses. -/

namespace Sys2Proof.Machine

/-! ### Issue -/

/-- An instruction that passes its decode checks and waits for no scalar runs its body. -/
theorem issue_of_ready {i : Instr} {s : State} {body : State → Res} (h : ready i s = true) : issue i body s = finish (body s) := by
  simp only [ready, Bool.and_eq_true, decide_eq_true_eq, Bool.not_eq_true'] at h
  simp [issue, h.1, h.2]

/-- An instruction that fails a decode check takes class 0 (R55, R56). -/
theorem issue_of_fault {i : Instr} {s : State} {body : State → Res} {k : Nat} (h : issueFault i s = some k) :
    issue i body s = .next (takeTrap k (wordOfInstr i) {} s) := by
  simp [issue, h]

/-- An instruction that names a scalar still to be written waits (R265). -/
theorem issue_of_waits {i : Instr} {s : State} {body : State → Res} (h : issueFault i s = none) (w : waitsScalar i s = true) :
    issue i body s = .next s := by
  simp [issue, h, w]

@[simp] theorem finish_done (s : State) : finish (.done s) = .next s.advance := rfl
@[simp] theorem finish_jump (s : State) (pc : Word) : finish (.jump s pc) = .next { s with cur := { s.cur with pc := pc } } := rfl
@[simp] theorem finish_stay (s : State) : finish (.stay s) = .next s := rfl
@[simp] theorem finish_trap (s : State) (code : Nat) (tval : Word) (info : TrapInfo) :
    finish (.trap s code tval info) = .next (takeTrap code tval info s) := rfl

/-- A body that ends with a state completes. -/
theorem runBody_ok {m : M Unit} {s t : State} (h : m s = .ok ((), t)) : runBody m s = .done t := by simp [runBody, h]

/-- A body that stops ends as its stop says. -/
theorem runBody_error {m : M Unit} {s : State} {x : Stop} (h : m s = .error x) : runBody m s = x.res s := by simp [runBody, h]

/-- A body that waits leaves what it keeps. -/
theorem runBody_hold {m : M Unit} {s : State} {k : Option State} (h : m s = .error (.hold k)) : runBody m s = .stay (k.getD s) := by
  simp [runBody, h, Stop.res]

/-- A body that traps with nothing kept takes the trap in the state it began in. -/
theorem runBody_trap {m : M Unit} {s : State} {c : Nat} {v : Word} (h : m s = .error (.trap c v none)) :
    runBody m s = .trap s c v {} := by
  simp [runBody, h, Stop.res]

/-- A body that traps takes the trap in what it keeps, where the record need not wait for a row (R329). -/
theorem runBody_trapKeep {m : M Unit} {s t : State} {c : Nat} {v : Word} (h : m s = .error (.trap c v (some t)))
    (w : t.trapWaits c = false) : runBody m s = .trap t c v {} := by
  simp [runBody, h, Stop.res, w]

/-- A check that has passed leaves the checks after it. -/
theorem ite_none {c : Prop} [Decidable c] {x : Nat} {y : Option Nat} (h : (if c then some x else y) = none) : y = none := by
  split at h
  · cases h
  · exact h

/-- A word that may issue names registers of the kinds its entry gives (R44, R45, R56). -/
theorem ready_accepts {i : Instr} {s : State} {c o : Nat} {f : Fields} {r : Rule} (h : ready i s = true)
    (ho : opcodeOf i = some (c, o, f)) (hr : ruleOf i = some r) :
    r.d.accepts f.d = true ∧ r.a.accepts f.a = true ∧ r.b.accepts f.b = true := by
  simp only [ready, Bool.and_eq_true, decide_eq_true_eq, issueFault, decodeFault, ho, hr] at h
  have key : ruleFault r f = none := ite_none (ite_none (ite_none h.1))
  unfold ruleFault at key
  refine ⟨?_, ?_, ?_⟩ <;> by_contra hc <;> rw [Bool.not_eq_true] at hc
  · simp [hc] at key
  · split at key
    · cases key
    · simp [hc] at key
  · split at key
    · cases key
    · split at key
      · cases key
      · simp [hc] at key

/-! ### Bodies -/

theorem bind_ok {α β : Type} {m : M α} {f : α → M β} {s t : State} {a : α} (h : m s = .ok (a, t)) : (m >>= f) s = f a t := by
  change (StateT.bind m f) s = _
  simp [StateT.bind, h]; rfl

theorem bind_error {α β : Type} {m : M α} {f : α → M β} {s : State} {x : Stop} (h : m s = .error x) : (m >>= f) s = .error x := by
  change (StateT.bind m f) s = _
  simp [StateT.bind, h]; rfl

/-- A body made of two succeeds just where both do, one after the other. -/
theorem bind_eq_ok {α β : Type} {m : M α} {f : α → M β} {s u : State} {b : β} :
    (m >>= f) s = .ok (b, u) ↔ ∃ a t, m s = .ok (a, t) ∧ f a t = .ok (b, u) := by
  cases h : m s with
  | error x => simp [bind_error h]
  | ok p => obtain ⟨a, t⟩ := p; rw [bind_ok h]; constructor
            · intro g; exact ⟨a, t, rfl, g⟩
            · rintro ⟨a', t', e, g⟩; cases e; exact g

@[simp] theorem pure_run {α : Type} (a : α) (s : State) : (pure a : M α) s = .ok (a, s) := rfl
@[simp] theorem get_run (s : State) : (get : M State) s = .ok (s, s) := rfl
@[simp] theorem set_run (t s : State) : (set t : M PUnit) s = .ok ((), t) := rfl
@[simp] theorem modify_run (f : State → State) (s : State) : (modify f : M PUnit) s = .ok ((), f s) := rfl
@[simp] theorem get_bind {α : Type} (f : State → M α) (s : State) : (get >>= f) s = f s s := rfl
@[simp] theorem set_bind {α : Type} (t : State) (f : PUnit → M α) (s : State) : (set t >>= f) s = f () t := rfl
@[simp] theorem modify_bind {α : Type} (g : State → State) (f : PUnit → M α) (s : State) : (modify g >>= f) s = f () (g s) := rfl
@[simp] theorem pure_bind_run {α β : Type} (a : α) (f : α → M β) (s : State) : ((pure a : M α) >>= f) s = f a s := rfl
@[simp] theorem checkM_true (c k : Nat) (v : Word) : checkM true c k v = pure () := rfl
@[simp] theorem checkM_false (c k : Nat) (v : Word) : checkM false c k v = trapM c k v := rfl
@[simp] theorem trapM_run {α : Type} (c k : Nat) (v : Word) (s : State) : (trapM c k v : M α) s = .error (.trap (c * 16 + k) v none) := rfl
@[simp] theorem trapM_bind {α β : Type} (c k : Nat) (v : Word) (f : α → M β) (s : State) :
    ((trapM c k v : M α) >>= f) s = .error (.trap (c * 16 + k) v none) := rfl
@[simp] theorem waitUntil_true : waitUntil true = pure () := rfl
@[simp] theorem waitUntil_false : waitUntil false = holdM := rfl

/-- A check that holds does nothing. -/
theorem checkM_of {b : Bool} (h : b = true) (c k : Nat) (v : Word) : checkM b c k v = pure () := by subst h; rfl

/-- A loop over a list whose every step leaves the state does nothing. -/
theorem forM_unit {α : Type} (l : List α) (f : α → M PUnit) (s : State) (h : ∀ a ∈ l, f a s = .ok ((), s)) : l.forM f s = .ok ((), s) := by
  induction l with
  | nil => rfl
  | cons a l ih =>
    rw [show (a :: l).forM f = (f a >>= fun _ => l.forM f) from rfl, bind_ok (h a (by simp))]
    exact ih (fun b hb => h b (by simp [hb]))

/-! ### Rows -/

/-- A ready row passes its check (R97). -/
theorem checkRow_ready {s : State} {g : Nat} {w : Bool} (h : s.RowReady g w) : checkRow g w s = .ok ((), s) := by
  obtain ⟨h1, h3, h2, -, h4⟩ := h
  cases hr : (s.homeGroup g).row with
  | none => simp [hr] at h2
  | some r =>
    cases w with
    | false => simp [checkRow, h1, h3, hr]
    | true => simp [checkRow, h1, h3, hr, (h4 rfl).1]

/-- Device time that has been reached already is not waited for. -/
theorem waitTo_of_le {s : State} {t : Nat} (h : t ≤ s.clk) : s.waitTo t = s := by
  unfold State.waitTo; rw [if_neg (by omega)]

/-- A run of ready rows passes its checks without a wait (R97). -/
theorem checkRun_ready {s : State} {g n : Nat} {w : Bool} (h : ∀ i < n, s.RowReady (g + i) w) : checkRun g n w s = .ok ((), s) := by
  unfold checkRun
  rw [bind_ok (forM_unit (List.range n) (fun i => checkRow (g + i) w) s (fun a ha => checkRow_ready (h a (List.mem_range.1 ha))))]
  have : (List.range n).foldl (fun s i => State.waitTo s (s.usableAt (s.homeKey (g + i)))) s = s := by
    have key : ∀ l : List Nat, (∀ i ∈ l, i < n) →
        l.foldl (fun s i => State.waitTo s (s.usableAt (s.homeKey (g + i)))) s = s := by
      intro l
      induction l with
      | nil => intro _; rfl
      | cons a l ih =>
        intro hl
        rw [List.foldl_cons, waitTo_of_le (h a (hl a (by simp))).activated]
        exact ih (fun i hi => hl i (by simp [hi]))
    exact key _ (fun i hi => List.mem_range.1 hi)
  simp [this]

/-- Outside a replayable launch every region is allowed (R352). -/
theorem replayOk_of_noReplay {s : State} (h : s.NoReplay) (va n : Nat) (w d : Bool) : s.replayOk va n w d = true := by
  unfold State.replayOk
  cases hl : s.launchOf s.cur with
  | none => rfl
  | some l => simp [h l hl]

/-- Outside a replayable launch the region check of a run passes (R352). -/
theorem replayRun_of_noReplay {s : State} (h : s.NoReplay) (g n : Nat) (w : Bool)
    (touch : Nat → Bool) : replayRun g n w touch s = .ok ((), s) := by
  unfold replayRun
  rw [get_bind]
  exact forM_unit _ _ s (fun i _ => by simp [replayOk_of_noReplay h])

/-- A shape that is ready passes every check of R125 and leaves the state. -/
theorem vecChecks_ready {sh : VecShape} {s : State} {rm : RoundMode} (h : VecReady sh s rm) : vecChecks sh s = .ok (rm, s) := by
  obtain ⟨-, h1, h2, h3, h4, h5, h6, h7, h8, h9, h10, h11⟩ := h
  unfold vecChecks
  rw [get_bind]
  have e1 : (sh.packed || ewOf s.cur.vcfg != 4) = true := by simpa using h1
  simp only [e1, h2, h3, h6, checkM_true, pure_bind]
  rw [bind_ok (forM_unit _ _ s (fun r hr => by simp [checkRowAlign, h4 r hr])),
    bind_ok (forM_unit _ _ s (fun r hr => by simp [checkMaskAlign, h5 r hr]))]
  have e3 : checkClass s = .ok ((), s) := by simp [checkClass, h8]
  have tail : ∀ m : M RoundMode, m s = .ok (rm, s) → (do
      checkClass
      sh.rows.forM (fun r => checkRun (rowField r.1) r.2.1 r.2.2)
      sh.rows.forM (fun r => replayRun (rowField r.1) r.2.1 r.2.2 (sh.touch s.cur r))
      m) s = .ok (rm, s) := by
    intro m hm
    rw [bind_ok e3, bind_ok (forM_unit _ _ s (fun r hr => checkRun_ready (h9 r hr))),
      bind_ok (forM_unit _ _ s (fun r _ => replayRun_of_noReplay h10 _ _ _ _)), hm]
  have hm : (match sh.rm with
      | none => pure 0
      | some rm => match roundingMode rm s.cur.frm with
        | some m => pure m
        | none => trapM 11 9 s.cur.frm : M RoundMode) s = .ok (rm, s) := by
    cases hr : sh.rm with
    | none => simp only [hr] at h11; subst h11; rfl
    | some x => simp only [hr] at h11; simp [h11]
  cases hi : sh.index with
  | none => exact tail _ hm
  | some i =>
    simp only [h7 i hi, decide_true, checkM_true, pure_bind]
    exact tail _ hm

/-! ### Byte accesses -/

/-- A translation that succeeds leaves its leaf and state to the body. -/
theorem translateM_ok {s t : State} {va : Word} {acc : AccKindT} {leaf : Leaf} (h : s.translate va acc = .ok (leaf, t)) :
    translateM va acc s = .ok (leaf, t) := by simp [translateM, h]

/-- The row service of a plain access. -/
theorem rowAccess_plain {t u : State} {leaf : Leaf} {w : Bool}
    (h : (if leaf.mt = mtRow then t.rowServe leaf.pa w else some t) = some u) : rowAccess leaf w t = .ok ((), u) := by
  unfold rowAccess rowAccessFor
  unfold State.rowServe at h
  split at h <;> rename_i hm
  · simp [hm, h]
  · simp only [hm, if_neg, not_false_eq_true]; cases h; rfl

/-- A plain access is not one of a logged queue (R353). -/
theorem PlainAccess.notLogged {s t u : State} {va : Word} {n : Nat} {acc : AccKindT} {leaf : Leaf}
    (h : PlainAccess s va n acc leaf t u) : t.loggedQueue leaf n = false ∧ t.headStore leaf n = false := by
  simp [State.loggedQueue, State.headStore, h.plain]

@[simp] theorem noteUse_mem (u : State) (pa mt : Nat) : (u.noteUse pa mt).mem = u.mem := by
  simp only [State.noteUse]; split <;> split <;> (try split) <;> rfl

/-- A plain load of sound bytes reads them (R82). -/
theorem loadM_plain {s t u : State} {va : Word} {n : Nat} {acc : AccKindT} {leaf : Leaf} (h : PlainAccess s va n acc leaf t u)
    (hp : poisoned u.poison leaf.pa n = false) (hc : u.Settled leaf) :
    loadM va n acc s = .ok ((u.num leaf.pa n, leaf), u.afterRead leaf) := by
  have hd : leaf.mt ≠ mtDev := by rcases h.dram with e | e <;> simp [e, mtRow, mtCached, mtDev]
  have hq := h.notLogged.1
  unfold loadM
  rw [bind_ok (translateM_ok h.found)]
  simp only [hd, if_neg, not_false_eq_true, get_bind, hq, Bool.and_false]
  have ha : accessChecks va leaf n acc.writes false t = .ok ((), t) := by
    have e : (leaf.mt == mtDev) = false := by simpa using hd
    simp [accessChecks, h.regions, h.published, e]
  rw [bind_ok ha, bind_ok (rowAccess_plain h.served)]
  unfold State.Settled at hc
  have hr : u.readPhys leaf n = (u.bytes leaf.pa n, u.noteUse leaf.pa leaf.mt) := by
    simp only [State.readPhys, hc, State.dramBytes, h.data, State.bytes, noteUse_mem]; rfl
  simp only [get_bind, hp, Bool.not_false, checkM_true, pure_bind_run, hr]
  rfl

/-- A plain store writes its bytes (R82). -/
theorem storeM_plain {s t u : State} {va : Word} {n : Nat} {leaf : Leaf} {v : Word} (h : PlainAccess s va n .write leaf t u) :
    storeM va n v s = scalarStore leaf (leBytes v.toNat n) u := by
  have hd : leaf.mt ≠ mtDev := by rcases h.dram with e | e <;> simp [e, mtRow, mtCached, mtDev]
  have hq := h.notLogged.2
  unfold storeM
  rw [bind_ok (translateM_ok h.found)]
  simp only [hd, if_neg, not_false_eq_true, get_bind, hq]
  have ha : accessChecks va leaf n true false t = .ok ((), t) := by
    have e : (leaf.mt == mtDev) = false := by simpa using hd
    have hr : t.replayOk va.toNat n true false = true := h.regions
    simp [accessChecks, hr, h.published, e]
  rw [bind_ok ha, bind_ok (rowAccess_plain (w := true) h.served)]
  rfl

end Sys2Proof.Machine
end

