-- ==== Sys2Proof/Laws/PerInstr.lean ====
section
/-! SUPPORT. Per instruction (R41, R42, R54): CLASS and OP lie in their ranges, the fields are those of the word, and the class list at that OP
gives a well-formed instruction back. -/

namespace Sys2Proof.Laws

set_option Elab.async false

/-- What the opcode of an instruction says of its fields and of the class lists. -/
def Fields.Statement (i : Instr) : Prop :=
  ∀ c o f, opcodeOf i = some (c, o, f) → fieldsOf i = f ∧ o < opCount c ∧ c < 8 ∧
    (formAgrees i = true → ∃ mk, (classList c)[o]? = some mk ∧ formOf (mk f) = i)

theorem Fields.of_none {i : Instr} (h : opcodeOf i = none) : Fields.Statement i := by
  intro c o f k
  rw [h] at k
  cases k

theorem Fields.of_some {i : Instr} {c o : Nat} {f : Sys2Proof.Fields} (h : opcodeOf i = some (c, o, f)) (lt : o < opCount c ∧ c < 8)
    (mk : formAgrees i = true → ∃ mk, (classList c)[o]? = some mk ∧ formOf (mk f) = i) : Fields.Statement i := by
  intro c' o' f' k
  rw [h] at k
  cases k
  exact ⟨by simp [fieldsOf, h], lt.1, lt.2, mk⟩

theorem Fields.pairWord (w : Word) : Fields.Statement (.pairWord w) := Fields.of_none rfl
theorem Fields.illegalInstruction (w : Word) : Fields.Statement (.illegalInstruction w) := Fields.of_none rfl
theorem Fields.nop (f : Sys2Proof.Fields) : Fields.Statement (.nop f) := Fields.of_some rfl (by decide) (fun _ => ⟨_, rfl, rfl⟩)
theorem Fields.add (f : Sys2Proof.Fields) : Fields.Statement (.add f) := Fields.of_some rfl (by decide) (fun _ => ⟨_, rfl, rfl⟩)
theorem Fields.sub (f : Sys2Proof.Fields) : Fields.Statement (.sub f) := Fields.of_some rfl (by decide) (fun _ => ⟨_, rfl, rfl⟩)
theorem Fields.and (f : Sys2Proof.Fields) : Fields.Statement (.and f) := Fields.of_some rfl (by decide) (fun _ => ⟨_, rfl, rfl⟩)
theorem Fields.or (f : Sys2Proof.Fields) : Fields.Statement (.or f) := Fields.of_some rfl (by decide) (fun _ => ⟨_, rfl, rfl⟩)
theorem Fields.xor (f : Sys2Proof.Fields) : Fields.Statement (.xor f) := Fields.of_some rfl (by decide) (fun _ => ⟨_, rfl, rfl⟩)
theorem Fields.sll (f : Sys2Proof.Fields) : Fields.Statement (.sll f) := Fields.of_some rfl (by decide) (fun _ => ⟨_, rfl, rfl⟩)
theorem Fields.srl (f : Sys2Proof.Fields) : Fields.Statement (.srl f) := Fields.of_some rfl (by decide) (fun _ => ⟨_, rfl, rfl⟩)
theorem Fields.sra (f : Sys2Proof.Fields) : Fields.Statement (.sra f) := Fields.of_some rfl (by decide) (fun _ => ⟨_, rfl, rfl⟩)
theorem Fields.slt (f : Sys2Proof.Fields) : Fields.Statement (.slt f) := Fields.of_some rfl (by decide) (fun _ => ⟨_, rfl, rfl⟩)
theorem Fields.sltz (f : Sys2Proof.Fields) : Fields.Statement (.sltz f) := Fields.of_some rfl (by decide) (fun _ => ⟨_, rfl, rfl⟩)
theorem Fields.mul (f : Sys2Proof.Fields) : Fields.Statement (.mul f) := Fields.of_some rfl (by decide) (fun _ => ⟨_, rfl, rfl⟩)
theorem Fields.mulh (f : Sys2Proof.Fields) : Fields.Statement (.mulh f) := Fields.of_some rfl (by decide) (fun _ => ⟨_, rfl, rfl⟩)
theorem Fields.mulhz (f : Sys2Proof.Fields) : Fields.Statement (.mulhz f) := Fields.of_some rfl (by decide) (fun _ => ⟨_, rfl, rfl⟩)
theorem Fields.div (f : Sys2Proof.Fields) : Fields.Statement (.div f) := Fields.of_some rfl (by decide) (fun _ => ⟨_, rfl, rfl⟩)
theorem Fields.divz (f : Sys2Proof.Fields) : Fields.Statement (.divz f) := Fields.of_some rfl (by decide) (fun _ => ⟨_, rfl, rfl⟩)
theorem Fields.rem (f : Sys2Proof.Fields) : Fields.Statement (.rem f) := Fields.of_some rfl (by decide) (fun _ => ⟨_, rfl, rfl⟩)
theorem Fields.remz (f : Sys2Proof.Fields) : Fields.Statement (.remz f) := Fields.of_some rfl (by decide) (fun _ => ⟨_, rfl, rfl⟩)
theorem Fields.min (f : Sys2Proof.Fields) : Fields.Statement (.min f) := Fields.of_some rfl (by decide) (fun _ => ⟨_, rfl, rfl⟩)
theorem Fields.max (f : Sys2Proof.Fields) : Fields.Statement (.max f) := Fields.of_some rfl (by decide) (fun _ => ⟨_, rfl, rfl⟩)
theorem Fields.minz (f : Sys2Proof.Fields) : Fields.Statement (.minz f) := Fields.of_some rfl (by decide) (fun _ => ⟨_, rfl, rfl⟩)
theorem Fields.maxz (f : Sys2Proof.Fields) : Fields.Statement (.maxz f) := Fields.of_some rfl (by decide) (fun _ => ⟨_, rfl, rfl⟩)
theorem Fields.clz (f : Sys2Proof.Fields) : Fields.Statement (.clz f) := Fields.of_some rfl (by decide) (fun _ => ⟨_, rfl, rfl⟩)
theorem Fields.ctz (f : Sys2Proof.Fields) : Fields.Statement (.ctz f) := Fields.of_some rfl (by decide) (fun _ => ⟨_, rfl, rfl⟩)
theorem Fields.pop (f : Sys2Proof.Fields) : Fields.Statement (.pop f) := Fields.of_some rfl (by decide) (fun _ => ⟨_, rfl, rfl⟩)
theorem Fields.bext (f : Sys2Proof.Fields) : Fields.Statement (.bext f) := Fields.of_some rfl (by decide) (fun _ => ⟨_, rfl, rfl⟩)
theorem Fields.bins (f : Sys2Proof.Fields) : Fields.Statement (.bins f) := Fields.of_some rfl (by decide) (fun _ => ⟨_, rfl, rfl⟩)
theorem Fields.lih (f : Sys2Proof.Fields) : Fields.Statement (.lih f) := Fields.of_some rfl (by decide) (fun _ => ⟨_, rfl, rfl⟩)
theorem Fields.li (f : Sys2Proof.Fields) : Fields.Statement (.li f) := Fields.of_some rfl (by decide) (fun _ => ⟨_, rfl, rfl⟩)
theorem Fields.sel (f : Sys2Proof.Fields) : Fields.Statement (.sel f) := Fields.of_some rfl (by decide) (fun _ => ⟨_, rfl, rfl⟩)
theorem Fields.adr (f : Sys2Proof.Fields) : Fields.Statement (.adr f) := Fields.of_some rfl (by decide) (fun _ => ⟨_, rfl, rfl⟩)
theorem Fields.crr (f : Sys2Proof.Fields) : Fields.Statement (.crr f) := Fields.of_some rfl (by decide) (fun _ => ⟨_, rfl, rfl⟩)
theorem Fields.crw (f : Sys2Proof.Fields) : Fields.Statement (.crw f) := Fields.of_some rfl (by decide) (fun _ => ⟨_, rfl, rfl⟩)
theorem Fields.crs (f : Sys2Proof.Fields) : Fields.Statement (.crs f) := Fields.of_some rfl (by decide) (fun _ => ⟨_, rfl, rfl⟩)
theorem Fields.crc (f : Sys2Proof.Fields) : Fields.Statement (.crc f) := Fields.of_some rfl (by decide) (fun _ => ⟨_, rfl, rfl⟩)
theorem Fields.ld (f : Sys2Proof.Fields) : Fields.Statement (.ld f) := Fields.of_some rfl (by decide) (fun _ => ⟨_, rfl, rfl⟩)
theorem Fields.st (f : Sys2Proof.Fields) : Fields.Statement (.st f) := Fields.of_some rfl (by decide) (fun _ => ⟨_, rfl, rfl⟩)
theorem Fields.lda (f : Sys2Proof.Fields) : Fields.Statement (.lda f) := Fields.of_some rfl (by decide) (fun _ => ⟨_, rfl, rfl⟩)
theorem Fields.stl (f : Sys2Proof.Fields) : Fields.Statement (.stl f) := Fields.of_some rfl (by decide) (fun _ => ⟨_, rfl, rfl⟩)
theorem Fields.pf (f : Sys2Proof.Fields) : Fields.Statement (.pf f) := Fields.of_some rfl (by decide) (fun _ => ⟨_, rfl, rfl⟩)
theorem Fields.bCond (f : Sys2Proof.Fields) : Fields.Statement (.bCond f) := Fields.of_some rfl (by decide) (fun _ => ⟨_, rfl, rfl⟩)
theorem Fields.j (f : Sys2Proof.Fields) : Fields.Statement (.j f) := Fields.of_some rfl (by decide) (fun _ => ⟨_, rfl, rfl⟩)
theorem Fields.jl (f : Sys2Proof.Fields) : Fields.Statement (.jl f) := Fields.of_some rfl (by decide) (fun _ => ⟨_, rfl, rfl⟩)
theorem Fields.jr (f : Sys2Proof.Fields) : Fields.Statement (.jr f) := Fields.of_some rfl (by decide) (fun _ => ⟨_, rfl, rfl⟩)
theorem Fields.smb (f : Sys2Proof.Fields) : Fields.Statement (.smb f) := Fields.of_some rfl (by decide) (fun _ => ⟨_, rfl, rfl⟩)
theorem Fields.bk (f : Sys2Proof.Fields) : Fields.Statement (.bk f) := Fields.of_some rfl (by decide) (fun _ => ⟨_, rfl, rfl⟩)
theorem Fields.bt (f : Sys2Proof.Fields) : Fields.Statement (.bt f) := Fields.of_some rfl (by decide) (fun _ => ⟨_, rfl, rfl⟩)
theorem Fields.act (f : Sys2Proof.Fields) : Fields.Statement (.act f) := Fields.of_some rfl (by decide) (fun _ => ⟨_, rfl, rfl⟩)
theorem Fields.actn (f : Sys2Proof.Fields) : Fields.Statement (.actn f) := Fields.of_some rfl (by decide) (fun _ => ⟨_, rfl, rfl⟩)
theorem Fields.wb (f : Sys2Proof.Fields) : Fields.Statement (.wb f) := Fields.of_some rfl (by decide) (fun _ => ⟨_, rfl, rfl⟩)
theorem Fields.pre (f : Sys2Proof.Fields) : Fields.Statement (.pre f) := Fields.of_some rfl (by decide) (fun _ => ⟨_, rfl, rfl⟩)
theorem Fields.prex (f : Sys2Proof.Fields) : Fields.Statement (.prex f) := Fields.of_some rfl (by decide) (fun _ => ⟨_, rfl, rfl⟩)
theorem Fields.ref (f : Sys2Proof.Fields) : Fields.Statement (.ref f) := Fields.of_some rfl (by decide) (fun _ => ⟨_, rfl, rfl⟩)
theorem Fields.refa (f : Sys2Proof.Fields) : Fields.Statement (.refa f) := Fields.of_some rfl (by decide) (fun _ => ⟨_, rfl, rfl⟩)
theorem Fields.rstat (f : Sys2Proof.Fields) : Fields.Statement (.rstat f) := Fields.of_some rfl (by decide) (fun _ => ⟨_, rfl, rfl⟩)
theorem Fields.rplace (f : Sys2Proof.Fields) : Fields.Statement (.rplace f) := Fields.of_some rfl (by decide) (fun _ => ⟨_, rfl, rfl⟩)
theorem Fields.setvl (f : Sys2Proof.Fields) : Fields.Statement (.setvl f) := Fields.of_some rfl (by decide) (fun _ => ⟨_, rfl, rfl⟩)
theorem Fields.setcfg (f : Sys2Proof.Fields) : Fields.Statement (.setcfg f) := Fields.of_some rfl (by decide) (fun _ => ⟨_, rfl, rfl⟩)
theorem Fields.vadd (f : Sys2Proof.Fields) : Fields.Statement (.vadd f) := Fields.of_some rfl (by decide) (fun _ => ⟨_, rfl, rfl⟩)
theorem Fields.vsub (f : Sys2Proof.Fields) : Fields.Statement (.vsub f) := Fields.of_some rfl (by decide) (fun _ => ⟨_, rfl, rfl⟩)
theorem Fields.vrsub (f : Sys2Proof.Fields) : Fields.Statement (.vrsub f) := Fields.of_some rfl (by decide) (fun _ => ⟨_, rfl, rfl⟩)
theorem Fields.vmul (f : Sys2Proof.Fields) : Fields.Statement (.vmul f) := Fields.of_some rfl (by decide) (fun _ => ⟨_, rfl, rfl⟩)
theorem Fields.vmulh (f : Sys2Proof.Fields) : Fields.Statement (.vmulh f) := Fields.of_some rfl (by decide) (fun _ => ⟨_, rfl, rfl⟩)
theorem Fields.vmacc (f : Sys2Proof.Fields) : Fields.Statement (.vmacc f) := Fields.of_some rfl (by decide) (fun _ => ⟨_, rfl, rfl⟩)
theorem Fields.vadds (f : Sys2Proof.Fields) : Fields.Statement (.vadds f) := Fields.of_some rfl (by decide) (fun _ => ⟨_, rfl, rfl⟩)
theorem Fields.vaddsz (f : Sys2Proof.Fields) : Fields.Statement (.vaddsz f) := Fields.of_some rfl (by decide) (fun _ => ⟨_, rfl, rfl⟩)
theorem Fields.vsubs (f : Sys2Proof.Fields) : Fields.Statement (.vsubs f) := Fields.of_some rfl (by decide) (fun _ => ⟨_, rfl, rfl⟩)
theorem Fields.vsubsz (f : Sys2Proof.Fields) : Fields.Statement (.vsubsz f) := Fields.of_some rfl (by decide) (fun _ => ⟨_, rfl, rfl⟩)
theorem Fields.vavg (f : Sys2Proof.Fields) : Fields.Statement (.vavg f) := Fields.of_some rfl (by decide) (fun _ => ⟨_, rfl, rfl⟩)
theorem Fields.vabsd (f : Sys2Proof.Fields) : Fields.Statement (.vabsd f) := Fields.of_some rfl (by decide) (fun _ => ⟨_, rfl, rfl⟩)
theorem Fields.vmin (f : Sys2Proof.Fields) : Fields.Statement (.vmin f) := Fields.of_some rfl (by decide) (fun _ => ⟨_, rfl, rfl⟩)
theorem Fields.vmax (f : Sys2Proof.Fields) : Fields.Statement (.vmax f) := Fields.of_some rfl (by decide) (fun _ => ⟨_, rfl, rfl⟩)
theorem Fields.vminz (f : Sys2Proof.Fields) : Fields.Statement (.vminz f) := Fields.of_some rfl (by decide) (fun _ => ⟨_, rfl, rfl⟩)
theorem Fields.vmaxz (f : Sys2Proof.Fields) : Fields.Statement (.vmaxz f) := Fields.of_some rfl (by decide) (fun _ => ⟨_, rfl, rfl⟩)
theorem Fields.vand (f : Sys2Proof.Fields) : Fields.Statement (.vand f) := Fields.of_some rfl (by decide) (fun _ => ⟨_, rfl, rfl⟩)
theorem Fields.vor (f : Sys2Proof.Fields) : Fields.Statement (.vor f) := Fields.of_some rfl (by decide) (fun _ => ⟨_, rfl, rfl⟩)
theorem Fields.vxor (f : Sys2Proof.Fields) : Fields.Statement (.vxor f) := Fields.of_some rfl (by decide) (fun _ => ⟨_, rfl, rfl⟩)
theorem Fields.vsll (f : Sys2Proof.Fields) : Fields.Statement (.vsll f) := Fields.of_some rfl (by decide) (fun _ => ⟨_, rfl, rfl⟩)
theorem Fields.vsrl (f : Sys2Proof.Fields) : Fields.Statement (.vsrl f) := Fields.of_some rfl (by decide) (fun _ => ⟨_, rfl, rfl⟩)
theorem Fields.vsra (f : Sys2Proof.Fields) : Fields.Statement (.vsra f) := Fields.of_some rfl (by decide) (fun _ => ⟨_, rfl, rfl⟩)
theorem Fields.vnsra (f : Sys2Proof.Fields) : Fields.Statement (.vnsra f) := Fields.of_some rfl (by decide) (fun _ => ⟨_, rfl, rfl⟩)
theorem Fields.vwadd (f : Sys2Proof.Fields) : Fields.Statement (.vwadd f) := Fields.of_some rfl (by decide) (fun _ => ⟨_, rfl, rfl⟩)
theorem Fields.vwmul (f : Sys2Proof.Fields) : Fields.Statement (.vwmul f) := Fields.of_some rfl (by decide) (fun _ => ⟨_, rfl, rfl⟩)
theorem Fields.vdot4 (f : Sys2Proof.Fields) : Fields.Statement (.vdot4 f) := Fields.of_some rfl (by decide) (fun _ => ⟨_, rfl, rfl⟩)
theorem Fields.vcmpeq (f : Sys2Proof.Fields) : Fields.Statement (.vcmpeq f) := Fields.of_some rfl (by decide) (fun _ => ⟨_, rfl, rfl⟩)
theorem Fields.vcmpne (f : Sys2Proof.Fields) : Fields.Statement (.vcmpne f) := Fields.of_some rfl (by decide) (fun _ => ⟨_, rfl, rfl⟩)
theorem Fields.vcmplt (f : Sys2Proof.Fields) : Fields.Statement (.vcmplt f) := Fields.of_some rfl (by decide) (fun _ => ⟨_, rfl, rfl⟩)
theorem Fields.vcmple (f : Sys2Proof.Fields) : Fields.Statement (.vcmple f) := Fields.of_some rfl (by decide) (fun _ => ⟨_, rfl, rfl⟩)
theorem Fields.vcmpltz (f : Sys2Proof.Fields) : Fields.Statement (.vcmpltz f) := Fields.of_some rfl (by decide) (fun _ => ⟨_, rfl, rfl⟩)
theorem Fields.vcmplez (f : Sys2Proof.Fields) : Fields.Statement (.vcmplez f) := Fields.of_some rfl (by decide) (fun _ => ⟨_, rfl, rfl⟩)
theorem Fields.vmerge (f : Sys2Proof.Fields) : Fields.Statement (.vmerge f) := Fields.of_some rfl (by decide) (fun _ => ⟨_, rfl, rfl⟩)
theorem Fields.vmov (f : Sys2Proof.Fields) : Fields.Statement (.vmov f) := Fields.of_some rfl (by decide) (fun _ => ⟨_, rfl, rfl⟩)
theorem Fields.vext (f : Sys2Proof.Fields) : Fields.Statement (.vext f) := Fields.of_some rfl (by decide) (fun _ => ⟨_, rfl, rfl⟩)
theorem Fields.vins (f : Sys2Proof.Fields) : Fields.Statement (.vins f) := Fields.of_some rfl (by decide) (fun _ => ⟨_, rfl, rfl⟩)
theorem Fields.vredsum (f : Sys2Proof.Fields) : Fields.Statement (.vredsum f) := Fields.of_some rfl (by decide) (fun _ => ⟨_, rfl, rfl⟩)
theorem Fields.vredmin (f : Sys2Proof.Fields) : Fields.Statement (.vredmin f) := Fields.of_some rfl (by decide) (fun _ => ⟨_, rfl, rfl⟩)
theorem Fields.vredmax (f : Sys2Proof.Fields) : Fields.Statement (.vredmax f) := Fields.of_some rfl (by decide) (fun _ => ⟨_, rfl, rfl⟩)
theorem Fields.vredand (f : Sys2Proof.Fields) : Fields.Statement (.vredand f) := Fields.of_some rfl (by decide) (fun _ => ⟨_, rfl, rfl⟩)
theorem Fields.vredor (f : Sys2Proof.Fields) : Fields.Statement (.vredor f) := Fields.of_some rfl (by decide) (fun _ => ⟨_, rfl, rfl⟩)
theorem Fields.vfadd (f : Sys2Proof.Fields) : Fields.Statement (.vfadd f) := Fields.of_some rfl (by decide) (fun _ => ⟨_, rfl, rfl⟩)
theorem Fields.vfsub (f : Sys2Proof.Fields) : Fields.Statement (.vfsub f) := Fields.of_some rfl (by decide) (fun _ => ⟨_, rfl, rfl⟩)
theorem Fields.vfmul (f : Sys2Proof.Fields) : Fields.Statement (.vfmul f) := Fields.of_some rfl (by decide) (fun _ => ⟨_, rfl, rfl⟩)
theorem Fields.vfma (f : Sys2Proof.Fields) : Fields.Statement (.vfma f) := Fields.of_some rfl (by decide) (fun _ => ⟨_, rfl, rfl⟩)
theorem Fields.vfnma (f : Sys2Proof.Fields) : Fields.Statement (.vfnma f) := Fields.of_some rfl (by decide) (fun _ => ⟨_, rfl, rfl⟩)
theorem Fields.vfmin (f : Sys2Proof.Fields) : Fields.Statement (.vfmin f) := Fields.of_some rfl (by decide) (fun _ => ⟨_, rfl, rfl⟩)
theorem Fields.vfmax (f : Sys2Proof.Fields) : Fields.Statement (.vfmax f) := Fields.of_some rfl (by decide) (fun _ => ⟨_, rfl, rfl⟩)
theorem Fields.vfdiv (f : Sys2Proof.Fields) : Fields.Statement (.vfdiv f) := Fields.of_some rfl (by decide) (fun _ => ⟨_, rfl, rfl⟩)
theorem Fields.vfsqrt (f : Sys2Proof.Fields) : Fields.Statement (.vfsqrt f) := Fields.of_some rfl (by decide) (fun _ => ⟨_, rfl, rfl⟩)
theorem Fields.vfrcp (f : Sys2Proof.Fields) : Fields.Statement (.vfrcp f) := Fields.of_some rfl (by decide) (fun _ => ⟨_, rfl, rfl⟩)
theorem Fields.vfrsq (f : Sys2Proof.Fields) : Fields.Statement (.vfrsq f) := Fields.of_some rfl (by decide) (fun _ => ⟨_, rfl, rfl⟩)
theorem Fields.vfexp2 (f : Sys2Proof.Fields) : Fields.Statement (.vfexp2 f) := Fields.of_some rfl (by decide) (fun _ => ⟨_, rfl, rfl⟩)
theorem Fields.vfcmpeq (f : Sys2Proof.Fields) : Fields.Statement (.vfcmpeq f) := Fields.of_some rfl (by decide) (fun _ => ⟨_, rfl, rfl⟩)
theorem Fields.vfcmplt (f : Sys2Proof.Fields) : Fields.Statement (.vfcmplt f) := Fields.of_some rfl (by decide) (fun _ => ⟨_, rfl, rfl⟩)
theorem Fields.vfcmple (f : Sys2Proof.Fields) : Fields.Statement (.vfcmple f) := Fields.of_some rfl (by decide) (fun _ => ⟨_, rfl, rfl⟩)
theorem Fields.vfredsum (f : Sys2Proof.Fields) : Fields.Statement (.vfredsum f) := Fields.of_some rfl (by decide) (fun _ => ⟨_, rfl, rfl⟩)
theorem Fields.vfredmax (f : Sys2Proof.Fields) : Fields.Statement (.vfredmax f) := Fields.of_some rfl (by decide) (fun _ => ⟨_, rfl, rfl⟩)
theorem Fields.vfclass (f : Sys2Proof.Fields) : Fields.Statement (.vfclass f) := Fields.of_some rfl (by decide) (fun _ => ⟨_, rfl, rfl⟩)
theorem Fields.vslide (f : Sys2Proof.Fields) : Fields.Statement (.vslide f) := Fields.of_some rfl (by decide) (fun _ => ⟨_, rfl, rfl⟩)
theorem Fields.vrot (f : Sys2Proof.Fields) : Fields.Statement (.vrot f) := Fields.of_some rfl (by decide) (fun _ => ⟨_, rfl, rfl⟩)
theorem Fields.vperm (f : Sys2Proof.Fields) : Fields.Statement (.vperm f) := Fields.of_some rfl (by decide) (fun _ => ⟨_, rfl, rfl⟩)
theorem Fields.vcompress (f : Sys2Proof.Fields) : Fields.Statement (.vcompress f) := Fields.of_some rfl (by decide) (fun _ => ⟨_, rfl, rfl⟩)
theorem Fields.vexpand (f : Sys2Proof.Fields) : Fields.Statement (.vexpand f) := Fields.of_some rfl (by decide) (fun _ => ⟨_, rfl, rfl⟩)
theorem Fields.viota (f : Sys2Proof.Fields) : Fields.Statement (.viota f) := Fields.of_some rfl (by decide) (fun _ => ⟨_, rfl, rfl⟩)
theorem Fields.kand (f : Sys2Proof.Fields) : Fields.Statement (.kand f) := Fields.of_some rfl (by decide) (fun _ => ⟨_, rfl, rfl⟩)
theorem Fields.kor (f : Sys2Proof.Fields) : Fields.Statement (.kor f) := Fields.of_some rfl (by decide) (fun _ => ⟨_, rfl, rfl⟩)
theorem Fields.kxor (f : Sys2Proof.Fields) : Fields.Statement (.kxor f) := Fields.of_some rfl (by decide) (fun _ => ⟨_, rfl, rfl⟩)
theorem Fields.knot (f : Sys2Proof.Fields) : Fields.Statement (.knot f) := Fields.of_some rfl (by decide) (fun _ => ⟨_, rfl, rfl⟩)
theorem Fields.kpop (f : Sys2Proof.Fields) : Fields.Statement (.kpop f) := Fields.of_some rfl (by decide) (fun _ => ⟨_, rfl, rfl⟩)
theorem Fields.kfirst (f : Sys2Proof.Fields) : Fields.Statement (.kfirst f) := Fields.of_some rfl (by decide) (fun _ => ⟨_, rfl, rfl⟩)
theorem Fields.kmov (f : Sys2Proof.Fields) : Fields.Statement (.kmov f) :=
  Fields.of_some rfl (by decide) (fun h => ⟨_, rfl, by
    simp [formAgrees] at h
    simp only [formOf]
    split
    · rw [h.resolve_left (fun k => k ‹_›)]; rfl
    · rfl⟩)
theorem Fields.kmovPm (f : Sys2Proof.Fields) : Fields.Statement (.kmovPm f) :=
  Fields.of_some rfl (by decide) (fun h => ⟨_, rfl, by simp only [formAgrees, Bool.and_eq_true, decide_eq_true_eq] at h; simp [formOf, h]⟩)
theorem Fields.kmovRowToMask (f : Sys2Proof.Fields) : Fields.Statement (.kmovRowToMask f) :=
  Fields.of_some rfl (by decide) (fun h => ⟨_, rfl, by simp only [formAgrees, Bool.and_eq_true, decide_eq_true_eq] at h; simp [formOf, h]⟩)
theorem Fields.kmovMaskToRow (f : Sys2Proof.Fields) : Fields.Statement (.kmovMaskToRow f) :=
  Fields.of_some rfl (by decide) (fun h => ⟨_, rfl, by simp only [formAgrees, Bool.and_eq_true, decide_eq_true_eq] at h; simp [formOf, h]⟩)
theorem Fields.vcka (f : Sys2Proof.Fields) : Fields.Statement (.vcka f) := Fields.of_some rfl (by decide) (fun _ => ⟨_, rfl, rfl⟩)
theorem Fields.ckchk (f : Sys2Proof.Fields) : Fields.Statement (.ckchk f) := Fields.of_some rfl (by decide) (fun _ => ⟨_, rfl, rfl⟩)
theorem Fields.pmclr (f : Sys2Proof.Fields) : Fields.Statement (.pmclr f) := Fields.of_some rfl (by decide) (fun _ => ⟨_, rfl, rfl⟩)
theorem Fields.vcvt (f : Sys2Proof.Fields) : Fields.Statement (.vcvt f) := Fields.of_some rfl (by decide) (fun _ => ⟨_, rfl, rfl⟩)
theorem Fields.vcvtq (f : Sys2Proof.Fields) : Fields.Statement (.vcvtq f) := Fields.of_some rfl (by decide) (fun _ => ⟨_, rfl, rfl⟩)
theorem Fields.tcfg (f : Sys2Proof.Fields) : Fields.Statement (.tcfg f) := Fields.of_some rfl (by decide) (fun _ => ⟨_, rfl, rfl⟩)
theorem Fields.tld (f : Sys2Proof.Fields) : Fields.Statement (.tld f) :=
  Fields.of_some rfl (by decide) (fun h => ⟨_, rfl, by simp [formAgrees] at h; simp [formOf, h]⟩)
theorem Fields.tldExposed (f : Sys2Proof.Fields) : Fields.Statement (.tldExposed f) :=
  Fields.of_some rfl (by decide) (fun h => ⟨_, rfl, by simp only [formAgrees, decide_eq_true_eq] at h; simp [formOf, h]⟩)
theorem Fields.mvm (f : Sys2Proof.Fields) : Fields.Statement (.mvm f) := Fields.of_some rfl (by decide) (fun _ => ⟨_, rfl, rfl⟩)
theorem Fields.mvmz (f : Sys2Proof.Fields) : Fields.Statement (.mvmz f) := Fields.of_some rfl (by decide) (fun _ => ⟨_, rfl, rfl⟩)
theorem Fields.mvmw (f : Sys2Proof.Fields) : Fields.Statement (.mvmw f) := Fields.of_some rfl (by decide) (fun _ => ⟨_, rfl, rfl⟩)
theorem Fields.acrd (f : Sys2Proof.Fields) : Fields.Statement (.acrd f) := Fields.of_some rfl (by decide) (fun _ => ⟨_, rfl, rfl⟩)
theorem Fields.aclr (f : Sys2Proof.Fields) : Fields.Statement (.aclr f) := Fields.of_some rfl (by decide) (fun _ => ⟨_, rfl, rfl⟩)
theorem Fields.ackx (f : Sys2Proof.Fields) : Fields.Statement (.ackx f) := Fields.of_some rfl (by decide) (fun _ => ⟨_, rfl, rfl⟩)
theorem Fields.tstat (f : Sys2Proof.Fields) : Fields.Statement (.tstat f) := Fields.of_some rfl (by decide) (fun _ => ⟨_, rfl, rfl⟩)
theorem Fields.xput (f : Sys2Proof.Fields) : Fields.Statement (.xput f) := Fields.of_some rfl (by decide) (fun _ => ⟨_, rfl, rfl⟩)
theorem Fields.xget (f : Sys2Proof.Fields) : Fields.Statement (.xget f) := Fields.of_some rfl (by decide) (fun _ => ⟨_, rfl, rfl⟩)
theorem Fields.xexp (f : Sys2Proof.Fields) : Fields.Statement (.xexp f) := Fields.of_some rfl (by decide) (fun _ => ⟨_, rfl, rfl⟩)
theorem Fields.xhide (f : Sys2Proof.Fields) : Fields.Statement (.xhide f) := Fields.of_some rfl (by decide) (fun _ => ⟨_, rfl, rfl⟩)
theorem Fields.xtrw (f : Sys2Proof.Fields) : Fields.Statement (.xtrw f) := Fields.of_some rfl (by decide) (fun _ => ⟨_, rfl, rfl⟩)
theorem Fields.xtrc (f : Sys2Proof.Fields) : Fields.Statement (.xtrc f) := Fields.of_some rfl (by decide) (fun _ => ⟨_, rfl, rfl⟩)
theorem Fields.copy (f : Sys2Proof.Fields) : Fields.Statement (.copy f) := Fields.of_some rfl (by decide) (fun _ => ⟨_, rfl, rfl⟩)
theorem Fields.ctwait (f : Sys2Proof.Fields) : Fields.Statement (.ctwait f) := Fields.of_some rfl (by decide) (fun _ => ⟨_, rfl, rfl⟩)
theorem Fields.ctfind (f : Sys2Proof.Fields) : Fields.Statement (.ctfind f) := Fields.of_some rfl (by decide) (fun _ => ⟨_, rfl, rfl⟩)
theorem Fields.vgld (f : Sys2Proof.Fields) : Fields.Statement (.vgld f) := Fields.of_some rfl (by decide) (fun _ => ⟨_, rfl, rfl⟩)
theorem Fields.vgst (f : Sys2Proof.Fields) : Fields.Statement (.vgst f) := Fields.of_some rfl (by decide) (fun _ => ⟨_, rfl, rfl⟩)
theorem Fields.radd (f : Sys2Proof.Fields) : Fields.Statement (.radd f) := Fields.of_some rfl (by decide) (fun _ => ⟨_, rfl, rfl⟩)
theorem Fields.rswap (f : Sys2Proof.Fields) : Fields.Statement (.rswap f) := Fields.of_some rfl (by decide) (fun _ => ⟨_, rfl, rfl⟩)
theorem Fields.rcas (f : Sys2Proof.Fields) : Fields.Statement (.rcas f) := Fields.of_some rfl (by decide) (fun _ => ⟨_, rfl, rfl⟩)
theorem Fields.rmax (f : Sys2Proof.Fields) : Fields.Statement (.rmax f) := Fields.of_some rfl (by decide) (fun _ => ⟨_, rfl, rfl⟩)
theorem Fields.rpush (f : Sys2Proof.Fields) : Fields.Statement (.rpush f) := Fields.of_some rfl (by decide) (fun _ => ⟨_, rfl, rfl⟩)
theorem Fields.rget (f : Sys2Proof.Fields) : Fields.Statement (.rget f) := Fields.of_some rfl (by decide) (fun _ => ⟨_, rfl, rfl⟩)
theorem Fields.rput (f : Sys2Proof.Fields) : Fields.Statement (.rput f) := Fields.of_some rfl (by decide) (fun _ => ⟨_, rfl, rfl⟩)
theorem Fields.rsync (f : Sys2Proof.Fields) : Fields.Statement (.rsync f) := Fields.of_some rfl (by decide) (fun _ => ⟨_, rfl, rfl⟩)
theorem Fields.fenceFull (f : Sys2Proof.Fields) : Fields.Statement (.fenceFull f) :=
  Fields.of_some rfl (by decide) (fun h => ⟨_, rfl, by simp [formAgrees] at h; simp only [formOf]; split <;> first | rfl | omega⟩)
theorem Fields.fenceAcq (f : Sys2Proof.Fields) : Fields.Statement (.fenceAcq f) :=
  Fields.of_some rfl (by decide) (fun h => ⟨_, rfl, by simp only [formAgrees, decide_eq_true_eq] at h; simp [formOf, h]⟩)
theorem Fields.fenceRel (f : Sys2Proof.Fields) : Fields.Statement (.fenceRel f) :=
  Fields.of_some rfl (by decide) (fun h => ⟨_, rfl, by simp only [formAgrees, decide_eq_true_eq] at h; simp [formOf, h]⟩)
theorem Fields.fenceSv (f : Sys2Proof.Fields) : Fields.Statement (.fenceSv f) :=
  Fields.of_some rfl (by decide) (fun h => ⟨_, rfl, by simp only [formAgrees, decide_eq_true_eq] at h; simp [formOf, h]⟩)
theorem Fields.fenceVs (f : Sys2Proof.Fields) : Fields.Statement (.fenceVs f) :=
  Fields.of_some rfl (by decide) (fun h => ⟨_, rfl, by simp only [formAgrees, decide_eq_true_eq] at h; simp [formOf, h]⟩)
theorem Fields.fenceRow (f : Sys2Proof.Fields) : Fields.Statement (.fenceRow f) :=
  Fields.of_some rfl (by decide) (fun h => ⟨_, rfl, by simp only [formAgrees, decide_eq_true_eq] at h; simp [formOf, h]⟩)
theorem Fields.amo (f : Sys2Proof.Fields) : Fields.Statement (.amo f) := Fields.of_some rfl (by decide) (fun _ => ⟨_, rfl, rfl⟩)
theorem Fields.semt (f : Sys2Proof.Fields) : Fields.Statement (.semt f) := Fields.of_some rfl (by decide) (fun _ => ⟨_, rfl, rfl⟩)
theorem Fields.semc (f : Sys2Proof.Fields) : Fields.Statement (.semc f) := Fields.of_some rfl (by decide) (fun _ => ⟨_, rfl, rfl⟩)
theorem Fields.semq (f : Sys2Proof.Fields) : Fields.Statement (.semq f) := Fields.of_some rfl (by decide) (fun _ => ⟨_, rfl, rfl⟩)
theorem Fields.bara (f : Sys2Proof.Fields) : Fields.Statement (.bara f) := Fields.of_some rfl (by decide) (fun _ => ⟨_, rfl, rfl⟩)
theorem Fields.barw (f : Sys2Proof.Fields) : Fields.Statement (.barw f) := Fields.of_some rfl (by decide) (fun _ => ⟨_, rfl, rfl⟩)
theorem Fields.barad (f : Sys2Proof.Fields) : Fields.Statement (.barad f) := Fields.of_some rfl (by decide) (fun _ => ⟨_, rfl, rfl⟩)
theorem Fields.lkw (f : Sys2Proof.Fields) : Fields.Statement (.lkw f) := Fields.of_some rfl (by decide) (fun _ => ⟨_, rfl, rfl⟩)
theorem Fields.whold (f : Sys2Proof.Fields) : Fields.Statement (.whold f) := Fields.of_some rfl (by decide) (fun _ => ⟨_, rfl, rfl⟩)
theorem Fields.wrel (f : Sys2Proof.Fields) : Fields.Statement (.wrel f) := Fields.of_some rfl (by decide) (fun _ => ⟨_, rfl, rfl⟩)
theorem Fields.wreg (f : Sys2Proof.Fields) : Fields.Statement (.wreg f) := Fields.of_some rfl (by decide) (fun _ => ⟨_, rfl, rfl⟩)
theorem Fields.wdone (f : Sys2Proof.Fields) : Fields.Statement (.wdone f) := Fields.of_some rfl (by decide) (fun _ => ⟨_, rfl, rfl⟩)
theorem Fields.qwait (f : Sys2Proof.Fields) : Fields.Statement (.qwait f) := Fields.of_some rfl (by decide) (fun _ => ⟨_, rfl, rfl⟩)
theorem Fields.ldv (f : Sys2Proof.Fields) : Fields.Statement (.ldv f) := Fields.of_some rfl (by decide) (fun _ => ⟨_, rfl, rfl⟩)
theorem Fields.valid (f : Sys2Proof.Fields) : Fields.Statement (.valid f) := Fields.of_some rfl (by decide) (fun _ => ⟨_, rfl, rfl⟩)
theorem Fields.casv (f : Sys2Proof.Fields) : Fields.Statement (.casv f) := Fields.of_some rfl (by decide) (fun _ => ⟨_, rfl, rfl⟩)
theorem Fields.launch (f : Sys2Proof.Fields) : Fields.Statement (.launch f) := Fields.of_some rfl (by decide) (fun _ => ⟨_, rfl, rfl⟩)
theorem Fields.lwait (f : Sys2Proof.Fields) : Fields.Statement (.lwait f) := Fields.of_some rfl (by decide) (fun _ => ⟨_, rfl, rfl⟩)
theorem Fields.lcancel (f : Sys2Proof.Fields) : Fields.Statement (.lcancel f) := Fields.of_some rfl (by decide) (fun _ => ⟨_, rfl, rfl⟩)
theorem Fields.gpred (f : Sys2Proof.Fields) : Fields.Statement (.gpred f) := Fields.of_some rfl (by decide) (fun _ => ⟨_, rfl, rfl⟩)
theorem Fields.gjoin (f : Sys2Proof.Fields) : Fields.Statement (.gjoin f) := Fields.of_some rfl (by decide) (fun _ => ⟨_, rfl, rfl⟩)
theorem Fields.yield (f : Sys2Proof.Fields) : Fields.Statement (.yield f) := Fields.of_some rfl (by decide) (fun _ => ⟨_, rfl, rfl⟩)
theorem Fields.nprb (f : Sys2Proof.Fields) : Fields.Statement (.nprb f) := Fields.of_some rfl (by decide) (fun _ => ⟨_, rfl, rfl⟩)
theorem Fields.npre (f : Sys2Proof.Fields) : Fields.Statement (.npre f) := Fields.of_some rfl (by decide) (fun _ => ⟨_, rfl, rfl⟩)
theorem Fields.trap (f : Sys2Proof.Fields) : Fields.Statement (.trap f) := Fields.of_some rfl (by decide) (fun _ => ⟨_, rfl, rfl⟩)
theorem Fields.rett (f : Sys2Proof.Fields) : Fields.Statement (.rett f) := Fields.of_some rfl (by decide) (fun _ => ⟨_, rfl, rfl⟩)
theorem Fields.tlbiVa (f : Sys2Proof.Fields) : Fields.Statement (.tlbiVa f) :=
  Fields.of_some rfl (by decide) (fun h => ⟨_, rfl, by simp only [formAgrees, decide_eq_true_eq] at h; simp [formOf, h]⟩)
theorem Fields.tlbiAsid (f : Sys2Proof.Fields) : Fields.Statement (.tlbiAsid f) :=
  Fields.of_some rfl (by decide) (fun h => ⟨_, rfl, by simp only [formAgrees, decide_eq_true_eq] at h; simp [formOf, h]⟩)
theorem Fields.tlbiAll (f : Sys2Proof.Fields) : Fields.Statement (.tlbiAll f) :=
  Fields.of_some rfl (by decide) (fun h => ⟨_, rfl, by simp [formAgrees] at h; simp only [formOf]; split <;> first | rfl | omega⟩)
theorem Fields.jrecv (f : Sys2Proof.Fields) : Fields.Statement (.jrecv f) := Fields.of_some rfl (by decide) (fun _ => ⟨_, rfl, rfl⟩)
theorem Fields.hexit (f : Sys2Proof.Fields) : Fields.Statement (.hexit f) := Fields.of_some rfl (by decide) (fun _ => ⟨_, rfl, rfl⟩)
theorem Fields.wfi (f : Sys2Proof.Fields) : Fields.Statement (.wfi f) := Fields.of_some rfl (by decide) (fun _ => ⟨_, rfl, rfl⟩)
theorem Fields.tstamp (f : Sys2Proof.Fields) : Fields.Statement (.tstamp f) := Fields.of_some rfl (by decide) (fun _ => ⟨_, rfl, rfl⟩)
theorem Fields.ctxsave (f : Sys2Proof.Fields) : Fields.Statement (.ctxsave f) := Fields.of_some rfl (by decide) (fun _ => ⟨_, rfl, rfl⟩)
theorem Fields.ctxrst (f : Sys2Proof.Fields) : Fields.Statement (.ctxrst f) := Fields.of_some rfl (by decide) (fun _ => ⟨_, rfl, rfl⟩)
theorem Fields.pendingTrapTaken : Fields.Statement .pendingTrapTaken := Fields.of_none rfl
theorem Fields.managementInterrupt : Fields.Statement .managementInterrupt := Fields.of_none rfl
theorem Fields.cairnReset : Fields.Statement .cairnReset := Fields.of_none rfl
theorem Fields.powerOn : Fields.Statement .powerOn := Fields.of_none rfl
theorem Fields.moduleReset : Fields.Statement .moduleReset := Fields.of_none rfl
theorem Fields.debtIncrement : Fields.Statement .debtIncrement := Fields.of_none rfl
theorem Fields.forcedRefresh : Fields.Statement .forcedRefresh := Fields.of_none rfl
theorem Fields.refreshEngineRefresh : Fields.Statement .refreshEngineRefresh := Fields.of_none rfl
theorem Fields.bandFall : Fields.Statement .bandFall := Fields.of_none rfl
theorem Fields.scoreboardActivationGrant : Fields.Statement .scoreboardActivationGrant := Fields.of_none rfl
theorem Fields.mcGroupClose : Fields.Statement .mcGroupClose := Fields.of_none rfl
theorem Fields.sliceBusRetirement : Fields.Statement .sliceBusRetirement := Fields.of_none rfl
theorem Fields.channelRead : Fields.Statement .channelRead := Fields.of_none rfl
theorem Fields.channelMaskedWrite : Fields.Statement .channelMaskedWrite := Fields.of_none rfl
theorem Fields.channelRefusedOpc : Fields.Statement .channelRefusedOpc := Fields.of_none rfl
theorem Fields.channelReply : Fields.Statement .channelReply := Fields.of_none rfl
theorem Fields.transferComplete : Fields.Statement .transferComplete := Fields.of_none rfl
theorem Fields.transferFail : Fields.Statement .transferFail := Fields.of_none rfl
theorem Fields.copyChunkPerformed : Fields.Statement .copyChunkPerformed := Fields.of_none rfl
theorem Fields.remoteRequestReceived : Fields.Statement .remoteRequestReceived := Fields.of_none rfl
theorem Fields.remoteResponseReceived : Fields.Statement .remoteResponseReceived := Fields.of_none rfl
theorem Fields.retransmissionTimer : Fields.Statement .retransmissionTimer := Fields.of_none rfl
theorem Fields.floorBeaconTimer : Fields.Statement .floorBeaconTimer := Fields.of_none rfl
theorem Fields.floorBeaconReceived : Fields.Statement .floorBeaconReceived := Fields.of_none rfl
theorem Fields.beaconAckReceived : Fields.Statement .beaconAckReceived := Fields.of_none rfl
theorem Fields.incarnationProbeReceived : Fields.Statement .incarnationProbeReceived := Fields.of_none rfl
theorem Fields.probeAnswerReceived : Fields.Statement .probeAnswerReceived := Fields.of_none rfl
theorem Fields.talusRecordExpiry : Fields.Statement .talusRecordExpiry := Fields.of_none rfl
theorem Fields.copyReadRequestReceived : Fields.Statement .copyReadRequestReceived := Fields.of_none rfl
theorem Fields.copyDataAtOwner : Fields.Statement .copyDataAtOwner := Fields.of_none rfl
theorem Fields.copyDataAtRequester : Fields.Statement .copyDataAtRequester := Fields.of_none rfl
theorem Fields.copyAcknowledgementReceived : Fields.Statement .copyAcknowledgementReceived := Fields.of_none rfl
theorem Fields.copyChunkRetransmit : Fields.Statement .copyChunkRetransmit := Fields.of_none rfl
theorem Fields.efpoPacketDropped : Fields.Statement .efpoPacketDropped := Fields.of_none rfl
theorem Fields.efpoLinkChange : Fields.Statement .efpoLinkChange := Fields.of_none rfl
theorem Fields.timeSyncExchange : Fields.Statement .timeSyncExchange := Fields.of_none rfl
theorem Fields.timeSyncAnswer : Fields.Statement .timeSyncAnswer := Fields.of_none rfl
theorem Fields.tsyncLoss : Fields.Statement .tsyncLoss := Fields.of_none rfl
theorem Fields.paceRequest : Fields.Statement .paceRequest := Fields.of_none rfl
theorem Fields.paceRequestReceived : Fields.Statement .paceRequestReceived := Fields.of_none rfl
theorem Fields.paceFallDwell : Fields.Statement .paceFallDwell := Fields.of_none rfl
theorem Fields.paceAgreementReceived : Fields.Statement .paceAgreementReceived := Fields.of_none rfl
theorem Fields.paceAgreementApply : Fields.Statement .paceAgreementApply := Fields.of_none rfl
theorem Fields.paceAckReceived : Fields.Statement .paceAckReceived := Fields.of_none rfl
theorem Fields.paceAgreementResend : Fields.Statement .paceAgreementResend := Fields.of_none rfl
theorem Fields.paceMemberSilent : Fields.Statement .paceMemberSilent := Fields.of_none rfl
theorem Fields.paceCoordinatorSilent : Fields.Statement .paceCoordinatorSilent := Fields.of_none rfl
theorem Fields.sensorSample : Fields.Statement .sensorSample := Fields.of_none rfl
theorem Fields.observerTick : Fields.Statement .observerTick := Fields.of_none rfl
theorem Fields.powerEstimate : Fields.Statement .powerEstimate := Fields.of_none rfl
theorem Fields.peakClampEnd : Fields.Statement .peakClampEnd := Fields.of_none rfl
theorem Fields.govRise : Fields.Statement .govRise := Fields.of_none rfl
theorem Fields.govFall : Fields.Statement .govFall := Fields.of_none rfl
theorem Fields.permitBoundary : Fields.Statement .permitBoundary := Fields.of_none rfl
theorem Fields.monitorSample : Fields.Statement .monitorSample := Fields.of_none rfl
theorem Fields.launchAdmission : Fields.Statement .launchAdmission := Fields.of_none rfl
theorem Fields.launchPredecessorCancel : Fields.Statement .launchPredecessorCancel := Fields.of_none rfl
theorem Fields.cancelledHartStop : Fields.Statement .cancelledHartStop := Fields.of_none rfl
theorem Fields.launchReplay : Fields.Statement .launchReplay := Fields.of_none rfl
theorem Fields.contextDispatch : Fields.Statement .contextDispatch := Fields.of_none rfl
theorem Fields.yieldRequest : Fields.Statement .yieldRequest := Fields.of_none rfl
theorem Fields.forcedSave : Fields.Statement .forcedSave := Fields.of_none rfl
theorem Fields.regionOverrun : Fields.Statement .regionOverrun := Fields.of_none rfl
theorem Fields.barrierDestroyed : Fields.Statement .barrierDestroyed := Fields.of_none rfl
theorem Fields.roceSend : Fields.Statement .roceSend := Fields.of_none rfl
theorem Fields.roceRdmaWrite : Fields.Statement .roceRdmaWrite := Fields.of_none rfl
theorem Fields.roceRdmaRead : Fields.Statement .roceRdmaRead := Fields.of_none rfl
theorem Fields.roceUnsupported : Fields.Statement .roceUnsupported := Fields.of_none rfl
theorem Fields.roceIcrcFail : Fields.Statement .roceIcrcFail := Fields.of_none rfl
theorem Fields.hostFrameOther : Fields.Statement .hostFrameOther := Fields.of_none rfl
theorem Fields.cnpReceived : Fields.Statement .cnpReceived := Fields.of_none rfl
theorem Fields.readRateRaise : Fields.Statement .readRateRaise := Fields.of_none rfl
theorem Fields.pgflushWrite : Fields.Statement .pgflushWrite := Fields.of_none rfl
theorem Fields.pgflushDone : Fields.Statement .pgflushDone := Fields.of_none rfl
theorem Fields.pubforceClear : Fields.Statement .pubforceClear := Fields.of_none rfl
theorem Fields.preemptRequest : Fields.Statement .preemptRequest := Fields.of_none rfl
theorem Fields.preemptMigrate : Fields.Statement .preemptMigrate := Fields.of_none rfl
theorem Fields.counterClear : Fields.Statement .counterClear := Fields.of_none rfl
theorem Fields.attestationRequest : Fields.Statement .attestationRequest := Fields.of_none rfl
theorem Fields.attestationDone : Fields.Statement .attestationDone := Fields.of_none rfl
theorem Fields.featlockWrite : Fields.Statement .featlockWrite := Fields.of_none rfl
theorem Fields.faccWrite : Fields.Statement .faccWrite := Fields.of_none rfl
theorem Fields.efdevidWrite : Fields.Statement .efdevidWrite := Fields.of_none rfl
theorem Fields.sensorReadmit : Fields.Statement .sensorReadmit := Fields.of_none rfl
theorem Fields.sensorMarkFailed : Fields.Statement .sensorMarkFailed := Fields.of_none rfl
theorem Fields.alarmClear : Fields.Statement .alarmClear := Fields.of_none rfl
theorem Fields.mipClear : Fields.Statement .mipClear := Fields.of_none rfl
theorem Fields.logidxAppend : Fields.Statement .logidxAppend := Fields.of_none rfl
theorem Fields.monitorClear : Fields.Statement .monitorClear := Fields.of_none rfl
theorem Fields.permcfgDrop : Fields.Statement .permcfgDrop := Fields.of_none rfl
theorem Fields.islthrWrite : Fields.Statement .islthrWrite := Fields.of_none rfl
theorem Fields.sembitsWrite : Fields.Statement .sembitsWrite := Fields.of_none rfl
theorem Fields.ctbWrite : Fields.Statement .ctbWrite := Fields.of_none rfl
theorem Fields.tcfgWrite : Fields.Statement .tcfgWrite := Fields.of_none rfl
theorem Fields.vcfgWrite : Fields.Statement .vcfgWrite := Fields.of_none rfl
theorem Fields.vlWrite : Fields.Statement .vlWrite := Fields.of_none rfl
theorem Fields.lclassWrite : Fields.Statement .lclassWrite := Fields.of_none rfl
theorem Fields.prioWrite : Fields.Statement .prioWrite := Fields.of_none rfl
theorem Fields.serialRegisterWrite : Fields.Statement .serialRegisterWrite := Fields.of_none rfl
theorem Fields.registerWrite : Fields.Statement .registerWrite := Fields.of_none rfl
theorem Fields.uncorrectableStateError : Fields.Statement .uncorrectableStateError := Fields.of_none rfl
theorem Fields.pauseFrameReceived : Fields.Statement .pauseFrameReceived := Fields.of_none rfl
theorem Fields.hostPortLinkChange : Fields.Statement .hostPortLinkChange := Fields.of_none rfl

end Sys2Proof.Laws
end

