-- ==== Sys2Proof/Laws/Rows.lean ====
section
/-! SUPPORT. Maps held as lists, and what the writing of rows, elements and masks by a vector instruction does when every row is ready. -/

namespace Sys2Proof

/-! ### Sparse maps -/

@[simp] theorem SMap.get_put_same {α : Type} (m : SMap α) (k : Nat) (v d : α) : SMap.get (SMap.put m k v) k d = v := by
  induction m with
  | nil => simp [SMap.put, SMap.get]
  | cons p r ih =>
    obtain ⟨j, w⟩ := p
    simp only [SMap.put]
    split
    · simp [SMap.get]
    · split
      · simp [SMap.get]
      · rename_i h; simp [SMap.get, Ne.symm h, ih]

theorem SMap.get_put_other {α : Type} (m : SMap α) {k j : Nat} (v d : α) (h : j ≠ k) :
    SMap.get (SMap.put m k v) j d = SMap.get m j d := by
  induction m with
  | nil => simp [SMap.put, SMap.get, Ne.symm h]
  | cons p r ih =>
    obtain ⟨i, w⟩ := p
    simp only [SMap.put]
    split
    · simp [SMap.get, Ne.symm h]
    · split
      · rename_i e; subst e; simp [SMap.get, Ne.symm h]
      · simp only [SMap.get, ih]

end Sys2Proof

namespace Sys2Proof.Machine

/-! ### Groups and towers -/

@[simp] theorem State.group_setGroup_same (s : State) (k : Nat) (f : Group → Group) : (s.setGroup k f).group k = f (s.group k) := by
  simp [State.group, State.setGroup]

theorem State.group_setGroup_other (s : State) {k j : Nat} (f : Group → Group) (h : j ≠ k) : (s.setGroup k f).group j = s.group j := by
  simp [State.group, State.setGroup, SMap.get_put_other _ _ _ h]

theorem State.group_setGroup (s : State) (k j : Nat) (f : Group → Group) :
    (s.setGroup k f).group j = if j = k then f (s.group k) else s.group j := by
  by_cases h : j = k
  · subst h; simp
  · simp [h, State.group_setGroup_other s f h]

@[simp] theorem State.tower_setTower_same (s : State) (t : Nat) (f : Tower → Tower) : (s.setTower t f).tower t = f (s.tower t) := by
  simp [State.tower, State.setTower]

theorem State.tower_setTower_other (s : State) {t u : Nat} (f : Tower → Tower) (h : u ≠ t) : (s.setTower t f).tower u = s.tower u := by
  simp [State.tower, State.setTower, SMap.get_put_other _ _ _ h]

/-! ### Moves in flight -/

/-- With no transfer in flight there is no move. -/
theorem traverses_of_noTransfers {s : State} (h : s.NoTransfers) : s.traverses = [] := by
  unfold State.traverses
  rw [List.flatMap_eq_nil_iff]
  intro c hc
  rw [h c hc]; rfl

/-- With no transfer in flight, nothing is settled. -/
theorem settle_of_noTransfers {s : State} (h : s.NoTransfers) (p) : s.settle p = s := by
  simp [State.settle, traverses_of_noTransfers h]

theorem settleReads_of_noTransfers {s : State} (h : s.NoTransfers) (id k : Nat) : s.settleReads id k = s := by
  have e : s.traverses = [] := traverses_of_noTransfers h
  simp [State.settleReads, State.settlePuts, State.putsBefore, State.moveAll, e]

theorem settleGroup_of_noTransfers {s : State} (h : s.NoTransfers) (k : Nat) : s.settleGroup k = s := settle_of_noTransfers h _

/-- An update that leaves the current hart's transfers and life, and every other context, leaves no transfer in flight. -/
theorem noTransfers_of_eq {s t : State} (h : s.NoTransfers) (h1 : t.cur.transfers = s.cur.transfers) (h2 : t.cur.run = s.cur.run)
    (h3 : t.others = s.others) : t.NoTransfers := by
  unfold State.NoTransfers State.live at *
  rw [h3]
  simp only [List.filter_cons, h2] at *
  split at h <;> rename_i hr
  · simp only [hr, if_true, List.mem_cons, forall_eq_or_imp] at *
    exact ⟨h1 ▸ h.1, h.2⟩
  · simp only [hr]
    exact h

/-! ### Writing rows -/

theorem homeKey_setGroup (s : State) (k g : Nat) (f : Group → Group) : (s.setGroup k f).homeKey g = s.homeKey g := rfl

/-- What a write does to the stores still unperformed: those into the bytes it covers alone (R73). -/
theorem orderStores_eq (s : State) (a n : Nat) : ∃ u, s.orderStores a n = { s with cur := { s.cur with unfenced := u } } := by
  unfold State.orderStores
  split
  · exact ⟨s.cur.unfenced, rfl⟩
  · exact ⟨_, rfl⟩

@[simp] theorem orderStores_group (s : State) (a n k : Nat) : (s.orderStores a n).group k = s.group k := by
  obtain ⟨u, hu⟩ := orderStores_eq s a n
  rw [hu]; rfl

@[simp] theorem orderStores_homeKey (s : State) (a n g : Nat) : (s.orderStores a n).homeKey g = s.homeKey g := by
  obtain ⟨u, hu⟩ := orderStores_eq s a n
  rw [hu]; rfl

/-- A ready row is opened for writing by its dirty state and the order of the hart's stores (R73, R96, R97, R206). -/
theorem dirtyRow_ready {s : State} {g : Nat} (h : s.NoTransfers) (hd : (s.homeGroup g).dset = true) :
    dirtyRow g s = .ok ((), s.markRow g) := by
  unfold dirtyRow State.markRow
  simp only [settleReads_of_noTransfers h]
  have e : ∀ u : State, (u.group (s.homeKey g)).dset = true → u.setRowDirtyBits (s.homeKey g) = .ok u := by
    intro u hu
    simp [State.setRowDirtyBits, hu]
  rw [e _ (by rw [orderStores_group]; exact hd)]

/-- Opening a row for a write starts no transfer. -/
theorem markRow_noTransfers {s : State} (h : s.NoTransfers) (g : Nat) : (s.markRow g).NoTransfers := by
  obtain ⟨u, hu⟩ := orderStores_eq s (s.openBase (s.homeKey g)) 8192
  unfold State.markRow
  rw [hu]
  exact noTransfers_of_eq h rfl rfl rfl

/-- Opening a row for a write leaves the D bits that rows record (R96). -/
theorem markRow_dset (s : State) (g j : Nat) : ((s.markRow g).homeGroup j).dset = (s.homeGroup j).dset := by
  unfold State.markRow State.homeGroup
  rw [homeKey_setGroup, orderStores_homeKey, State.group_setGroup]
  split
  · rename_i e; rw [orderStores_group, e]
  · rw [orderStores_group]

/-- The rows of a run are opened for writing one after the other. -/
theorem dirtyLoop_ready {s : State} {g : Nat} (l : List Nat) (h : s.NoTransfers)
    (hd : ∀ i ∈ l, (s.homeGroup (g + i)).dset = true) :
    l.forM (fun i => dirtyRow (g + i)) s = .ok ((), s.markDirty (l.map (fun i => g + i))) := by
  induction l generalizing s with
  | nil => rfl
  | cons a l ih =>
    rw [show (a :: l).forM (fun i => dirtyRow (g + i)) = (dirtyRow (g + a) >>= fun _ => l.forM (fun i => dirtyRow (g + i))) from rfl,
      bind_ok (dirtyRow_ready h (hd a (by simp)))]
    rw [ih (markRow_noTransfers h _) (fun i hi => by rw [markRow_dset]; exact hd i (by simp [hi]))]
    rfl

/-- The groups a run writes lie in it. -/
theorem touched_lt {n ew : Nat} {es : List Elt} {i : Nat} (h : i ∈ touched n ew es) : i < n := by
  simp only [touched, List.mem_filter, List.mem_range] at h; exact h.1

/-- Without an interrupt in its midst, an instruction stops at no element (R126). -/
theorem stopsAt_of_whole {s : State} (h : s.stopAt = none) : s.stopsAt = none := by simp [State.stopsAt, h]

/-- The end of an element-wise instruction without an enabled trap (R123). -/
theorem finishElts_done {s : State} {g n ew : Nat} {es : List Elt} (h : s.NoTransfers) (hs : s.stopAt = none)
    (hd : ∀ i < n, (s.homeGroup (g + i)).dset = true) (ht : trapElt s.cur.frm es = none) :
    finishElts g n ew es s = .ok ((), s.withElements g n ew es) := by
  unfold finishElts
  rw [get_bind]
  simp only [stopsAt_of_whole hs, eltsBefore, ht, Option.all_none, waitUntil_true, pure_bind]
  rw [bind_ok (dirtyLoop_ready _ h (fun i hi => hd i (touched_lt hi)))]
  rfl

/-- The end of an element-wise instruction at an enabled trap (R161): the elements below perform, and ESTART names the element. -/
theorem finishElts_trap {s : State} {g n ew : Nat} {es : List Elt} {x : Elt} {k : Nat} (h : s.NoTransfers) (hs : s.stopAt = none)
    (hd : ∀ i < n, (s.homeGroup (g + i)).dset = true) (ht : trapElt s.cur.frm es = some (x, k)) :
    finishElts g n ew es s = .error (.trap (13 * 16 + k) (numericTval x.e x.flags)
      (some (s.elementsBelow g n ew es x.e))) := by
  unfold finishElts
  rw [get_bind]
  simp only [stopsAt_of_whole hs, eltsBefore, ht, Option.all_none, waitUntil_true, pure_bind]
  rw [bind_ok (dirtyLoop_ready _ h (fun i hi => hd i (touched_lt hi)))]
  rfl

/-- The end of a whole-row instruction without an enabled trap (R126). -/
theorem finishWhole_done {s : State} {g n ew : Nat} {es : List Elt} (h : s.NoTransfers)
    (hd : ∀ i < n, (s.homeGroup (g + i)).dset = true) (ht : trapElt s.cur.frm es = none) :
    finishWhole g n ew es s = .ok ((), s.withElements g n ew es) := by
  unfold finishWhole
  rw [get_bind]
  simp only [ht]
  rw [bind_ok (dirtyLoop_ready _ h (fun i hi => hd i (touched_lt hi)))]
  rfl

/-- The end of a whole-row instruction at an enabled trap: nothing is written (R161). -/
theorem finishWhole_trap {s : State} {g n ew : Nat} {es : List Elt} {x : Elt} {k : Nat} (ht : trapElt s.cur.frm es = some (x, k)) :
    finishWhole g n ew es s = .error (.trap (13 * 16 + k) (numericTval x.e x.flags) none) := by
  unfold finishWhole
  rw [get_bind]
  simp only [ht]
  rfl

/-- The end of a compare without an enabled trap (R134). -/
theorem finishMask_done {s : State} {k ew : Nat} {es : List Elt} (hs : s.stopAt = none) (ht : trapElt s.cur.frm es = none) :
    finishMask k ew es s = .ok ((), (s.writeMaskElts k ew es).setCur (fun c => { c with estart := 0 })) := by
  unfold finishMask
  rw [get_bind]
  simp only [stopsAt_of_whole hs, eltsBefore, ht, Option.all_none, waitUntil_true, pure_bind]
  rfl

/-- Elements that raise no flag trap never. -/
theorem trapElt_none {frm : Word} {es : List Elt} (h : ∀ x ∈ es, x.flags = 0) : trapElt frm es = none := by
  unfold trapElt
  rw [List.findSome?_eq_none_iff]
  intro x hx
  rw [h x hx]
  have z : ∀ k, bitAt 0 k = false := fun k => by simp [bitAt]
  simp [trappingFlag, z]

/-- Elements written by an operation without flags raise none. -/
theorem eltsOf_flags {f : Fields} {c : Ctx} {first : Nat} {val : Nat → Nat × Nat} {pois : Nat → Bool} (h : ∀ e, (val e).2 = 0) :
    ∀ x ∈ eltsOf f c first val pois, x.flags = 0 := by
  intro x hx
  simp only [eltsOf, List.mem_filterMap] at hx
  obtain ⟨i, -, hi⟩ := hx
  split at hi
  · cases hi; simp [h]
  · split at hi <;> cases hi; rfl

/-! ### Masks read -/

/-- What a read of mask registers changes: the publication list alone. -/
theorem acquireMask_eq (s : State) (k : Nat) : ∃ p, s.acquireMask k = { s with cur := { s.cur with pubs := p } } := by
  unfold State.acquireMask
  split
  · exact ⟨s.cur.pubs, rfl⟩
  · exact ⟨_, rfl⟩

theorem readMaskRun_eq (s : State) (ms : List (Nat × Nat)) (vg : Nat) :
    ∃ p, s.readMaskRun ms vg = { s with cur := { s.cur with pubs := p } } := by
  unfold State.readMaskRun
  generalize (ms.filter (fun m => m.1 != 0)).flatMap (fun m => (List.range vg).map (fun i => m.1 + i)) = l
  induction l generalizing s with
  | nil => exact ⟨s.cur.pubs, rfl⟩
  | cons a l ih =>
    obtain ⟨p, hp⟩ := acquireMask_eq s a
    obtain ⟨q, hq⟩ := ih (s.acquireMask a)
    rw [List.foldl_cons, hq, hp]
    exact ⟨q, rfl⟩

/-- A read of masks starts no transfer. -/
theorem readMaskRun_noTransfers {s : State} (ms : List (Nat × Nat)) (vg : Nat) (h : s.NoTransfers) : (s.readMaskRun ms vg).NoTransfers := by
  obtain ⟨p, hp⟩ := readMaskRun_eq s ms vg
  rw [hp]; exact noTransfers_of_eq h rfl rfl rfl

/-- A read of masks changes no row. -/
@[simp] theorem readMaskRun_homeGroup (s : State) (ms : List (Nat × Nat)) (vg g : Nat) :
    (s.readMaskRun ms vg).homeGroup g = s.homeGroup g := by
  obtain ⟨p, hp⟩ := readMaskRun_eq s ms vg
  rw [hp]; rfl

@[simp] theorem readMaskRun_frm (s : State) (ms : List (Nat × Nat)) (vg : Nat) : (s.readMaskRun ms vg).cur.frm = s.cur.frm := by
  obtain ⟨p, hp⟩ := readMaskRun_eq s ms vg
  rw [hp]

@[simp] theorem readMaskRun_vl (s : State) (ms : List (Nat × Nat)) (vg : Nat) : (s.readMaskRun ms vg).cur.vl = s.cur.vl := by
  obtain ⟨p, hp⟩ := readMaskRun_eq s ms vg
  rw [hp]

@[simp] theorem readMaskRun_vcfg (s : State) (ms : List (Nat × Nat)) (vg : Nat) : (s.readMaskRun ms vg).cur.vcfg = s.cur.vcfg := by
  obtain ⟨p, hp⟩ := readMaskRun_eq s ms vg
  rw [hp]

@[simp] theorem readMaskRun_estart (s : State) (ms : List (Nat × Nat)) (vg : Nat) : (s.readMaskRun ms vg).cur.estart = s.cur.estart := by
  obtain ⟨p, hp⟩ := readMaskRun_eq s ms vg
  rw [hp]

@[simp] theorem readMaskRun_reg (s : State) (ms : List (Nat × Nat)) (vg : Nat) (v : BitVec 6) : (s.readMaskRun ms vg).reg v = s.reg v := by
  obtain ⟨p, hp⟩ := readMaskRun_eq s ms vg
  rw [hp]; rfl

/-- The D bits of a run that a ready shape writes are set. -/
theorem VecReady.dset {sh : VecShape} {s : State} {rm : RoundMode} (h : VecReady sh s rm) {v : BitVec 6} {n : Nat}
    (hv : (v, n, true) ∈ sh.rows) : ∀ i < n, (s.homeGroup (rowField v + i)).dset = true :=
  fun i hi => ((h.isOpen _ hv i hi).writes rfl).2

@[simp] theorem readMasks_run (s : State) (ms : List (Nat × Nat)) (vg : Nat) : readMasks ms vg s = .ok ((), s.readMaskRun ms vg) := rfl

end Sys2Proof.Machine
end

