-- ==== Sys2Proof/Tests/Setup.lean ====
section
/-! SUPPORT. What the tests build on: fields, a tower hart and a small machine around it, and Bool forms of the predicates of Safety that
`decide` can evaluate. -/

namespace Sys2Proof.Tests

open Sys2Proof.Machine

/-- Fields of a full word. -/
def F (form d a b : Nat) (imm : Nat := 0) (m : Nat := 0) (mz : Bool := false) : Fields :=
  { form := BitVec.ofNat 2 form, d := BitVec.ofNat 6 d, a := BitVec.ofNat 6 a, b := BitVec.ofNat 6 b, m := BitVec.ofNat 3 m, mz := mz,
    imm := BitVec.ofNat 28 imm }

/-- Tables at 0x1000: the first GiB of DRAM as CACHED with R, W and X, again as ROW from 1 GiB, the version region from 2 GiB, device
space from 3 GiB, the first GiB as checked CACHED memory from 4 GiB; A and D are set. -/
def tables : List Host.Cell :=
  [(0x1000, 0x01), (0x1001, 0x20), (0x2000, 0x01), (0x2001, 0x30), (0x3000, 0x5F), (0x3001, 0x0C), (0x3008, 0x17), (0x3009, 0x0C),
   (0x3010, 0x57), (0x3011, 0x0D), (0x3014, 0x40), (0x3018, 0x97), (0x3019, 0x0C), (0x301D, 0xF0), (0x3020, 0x57), (0x3021, 0x0E)]

/-- A tower hart in supervisor mode on tower 0, partition 0, bank 0, in latency class D, with every feature and MOWN. -/
def hart : Ctx :=
  { Ctx.blank with
    kind := .tower, run := .running, reqid := 0x60064, entry := 100, launch := 0x77, sup := true, prio := 3, lclass := 3, ptroot := 0x1000,
    vcfg := 0x102, vl := 4, mownEn := true, facc := Vector.replicate 4 (BitVec.allOnes 64), pc := 0x8000, tvec := 0x9000, trec := 0xA000,
    ctxsave := 0x20000 }

/-- A hart with scalars set. -/
def regs (l : List (Nat × Nat)) (c : Ctx := hart) : Ctx :=
  l.foldl (fun c p => c.setReg (BitVec.ofNat 6 p.1) (BitVec.ofNat 64 p.2)) c

/-- A machine whose hart with the turn is `c`, Cairn beside it. -/
def board (c : Ctx := hart) : State := { State.reset with cur := c, others := [Ctx.cairn], mem := tables, clk := 1000000 }

/-- An open row of the home bank of tower 0: group `g` holds row `r`, writable. -/
def openRow (g r : Nat) (s : State) : State :=
  s.setGroup g (fun x => { x with row := some r, writable := true, dset := true })

/-- Groups 0 to `n` - 1 of bank 0 open on row 1. -/
def rows (n : Nat) (s : State) : State := (List.range n).foldl (fun s g => openRow g 1 s) s

/-- Bytes at the start of open group `g` of bank 0, whose row is 1 (R26). -/
def fill (g : Nat) (bs : List Nat) (s : State) : State := s.poke (g * 0x80_0000 + 0x2000) (bs.map (BitVec.ofNat 8))

/-- Words of 32 bits at the start of open group `g`. -/
def fill32 (g : Nat) (ws : List Nat) (s : State) : State := s.poke (g * 0x80_0000 + 0x2000) (ws.flatMap (fun w => leBytes w 4))

/-- The 32-bit elements 0 to 3 of group `g`. -/
def row32 (g : Nat) (t : State) : List Nat := (List.range 4).map (fun e => t.num (g * 0x80_0000 + 0x2000 + 4 * e) 4)

/-- Cairn with the turn. -/
def cairnBoard : State := { board with cur := { Ctx.cairn with pc := 0x8000 }, others := [hart] }

/-- The machine with an event's operands supplied. -/
def withInput (x : EventInput) (s : State) : State := { s with input := x }

/-- The next state of an outcome, and what a test asks of it. -/
def gives (o : Host.Outcome State Fault Refusal) (p : State → Bool) : Bool :=
  match o with
  | .next t => p t
  | _ => false

/-- What a test asks of a value that may be absent. -/
def has {α : Type} (o : Option α) (p : α → Bool) : Bool :=
  match o with
  | some x => p x
  | none => false

theorem has_elim {α : Type} {o : Option α} {p : α → Bool} (h : has o p = true) : ∃ x, o = some x ∧ p x = true := by
  cases o with
  | none => cases h
  | some x => exact ⟨x, rfl, h⟩

/-- A check among those of a list that all hold. -/
theorem all_mem {l : List Bool} (h : l.all id = true) (b : Bool) (hb : b ∈ l) : b = true := List.all_eq_true.1 h b hb

/-- The checks of AtWord. -/
def wordChecks (s : State) : List Bool :=
  [!s.stopped, decide (s.agenda = []), decide (s.cur.run = .running), s.cur.ending.isNone, !s.cur.stops,
    s.cur.kind != .cairn || s.dueInterrupt.isNone, s.cur.gang.isNone, !s.cur.trapDue, !s.forcedDueNow]

/-- Bool form of AtWord. -/
def atWord (s : State) : Bool := (wordChecks s).all id

theorem atWord_of {s : State} (h : atWord s = true) : s.AtWord where
  started := by simpa using all_mem h (!s.stopped) (by simp [wordChecks])
  quiet := by simpa using all_mem h (decide (s.agenda = [])) (by simp [wordChecks])
  running := by simpa using all_mem h (decide (s.cur.run = .running)) (by simp [wordChecks])
  alive := by simpa using all_mem h s.cur.ending.isNone (by simp [wordChecks])
  goesOn := by simpa using all_mem h (!s.cur.stops) (by simp [wordChecks])
  noInterrupt := fun k => by simpa [k] using all_mem h (s.cur.kind != .cairn || s.dueInterrupt.isNone) (by simp [wordChecks])
  single := by simpa using all_mem h s.cur.gang.isNone (by simp [wordChecks])
  noTrap := by simpa using all_mem h (!s.cur.trapDue) (by simp [wordChecks])
  noSave := by simpa using all_mem h (!s.forcedDueNow) (by simp [wordChecks])

/-- Bool form of RowReady. -/
def rowReady (s : State) (g : Nat) (w : Bool) : Bool :=
  !(s.homeGroup g).forced && !(s.homeGroup g).forcing && (s.homeGroup g).row.isSome && decide (s.usableAt (s.homeKey g) ≤ s.clk) &&
    (!w || ((s.homeGroup g).writable && (s.homeGroup g).dset))

theorem rowReady_of {s : State} {g : Nat} {w : Bool} (h : rowReady s g w = true) : s.RowReady g w := by
  simp only [rowReady, Bool.and_eq_true, Bool.not_eq_true', decide_eq_true_eq, Bool.or_eq_true] at h
  refine { notForced := h.1.1.1.1, settled := h.1.1.1.2, isOpen := h.1.1.2, activated := h.1.2, writes := fun k => ?_ }
  rcases h.2 with d | d
  · simp [k] at d
  · exact d

/-- Bool form of NoReplay. -/
def noReplay (s : State) : Bool :=
  match s.launchOf s.cur with
  | some l => !l.replayable
  | none => true

theorem noReplay_of {s : State} (h : noReplay s = true) : s.NoReplay := by
  intro l hl
  simp only [noReplay, hl, Bool.not_eq_true'] at h
  exact h

/-- Bool form of NoTransfers. -/
def noTransfers (s : State) : Bool := s.live.all (fun c => c.transfers.isEmpty)

theorem noTransfers_of {s : State} (h : noTransfers s = true) : s.NoTransfers := by
  intro c hc
  simpa using List.all_eq_true.1 h c hc

/-- The checks of VecReady on the shape of an instruction. -/
def shapeReady (sh : VecShape) (s : State) : Bool :=
  (sh.packed || ewOf s.cur.vcfg != 4) && sh.fcOk && sh.widthOk && sh.lengthOk && sh.rows.all (fun r => rowField r.1 % r.2.1 == 0) &&
    sh.masks.all (fun m => m.1 % vgOf s.cur.vcfg == 0)

/-- The checks of VecReady on the state. -/
def groupsReady (sh : VecShape) (s : State) : Bool :=
  s.stopAt.isNone && noReplay s && decide (vgOf s.cur.vcfg ≤ vgMax s.cur.lclass) &&
    sh.rows.all (fun r => (List.range r.2.1).all (fun i => rowReady s (rowField r.1 + i) r.2.2))

/-- The element index and the rounding mode of VecReady. -/
def modeReady (sh : VecShape) (s : State) (rm : RoundMode) : Bool :=
  (match sh.index with
    | some i => decide (i < s.cur.vl.toNat)
    | none => true) &&
  (match sh.rm with
    | none => decide (rm = 0)
    | some x => decide (roundingMode x s.cur.frm = some rm))

/-- Bool form of VecReady. -/
def vecReady (sh : VecShape) (s : State) (rm : RoundMode) : Bool := shapeReady sh s && groupsReady sh s && modeReady sh s rm

theorem vecReady_of {sh : VecShape} {s : State} {rm : RoundMode} (h : vecReady sh s rm = true) : VecReady sh s rm := by
  have hs : shapeReady sh s = true := by simp_all [vecReady]
  have hg : groupsReady sh s = true := by simp_all [vecReady]
  have hm : modeReady sh s rm = true := by simp_all [vecReady]
  simp only [shapeReady, Bool.and_eq_true, Bool.or_eq_true, List.all_eq_true, bne_iff_ne, beq_iff_eq] at hs
  simp only [groupsReady, Bool.and_eq_true, decide_eq_true_eq, List.all_eq_true, Option.isNone_iff_eq_none] at hg
  exact {
    whole := hg.1.1.1
    width := hs.1.1.1.1.1
    fc := hs.1.1.1.1.2
    sizes := hs.1.1.1.2
    rows := hs.1.2
    masks := hs.2
    length := hs.1.1.2
    index := fun i hi => by
      simp only [modeReady, hi, Bool.and_eq_true, decide_eq_true_eq] at hm
      exact hm.1
    wide := hg.1.2
    isOpen := fun r hr i hi => rowReady_of (hg.2 r hr i (List.mem_range.2 hi))
    noReplay := noReplay_of hg.1.1.2
    mode := by
      have := (Bool.and_eq_true _ _ ▸ hm).2
      cases hr : sh.rm <;> simp only [hr, decide_eq_true_eq] at this ⊢ <;> exact this }

/-- The leaf and the two states of a plain access, where there is one. -/
def plainOf (s : State) (va : Word) (n : Nat) (acc : AccKindT) : Option (Leaf × State × State) :=
  match s.translate va acc with
  | .error _ => none
  | .ok (leaf, t) =>
    if (leaf.mt = mtRow || leaf.mt = mtCached) && t.replayOk va.toNat n acc.writes false && !t.unpublished t.cur.reqid leaf n && decide (t.cur.queues = []) &&
        !(inSideTable leaf.pa n) then
      (if leaf.mt = mtRow then t.rowServe leaf.pa acc.writes else some t).map (fun u => (leaf, t, u))
    else none

theorem plain_of {s t u : State} {va : Word} {n : Nat} {acc : AccKindT} {leaf : Leaf}
    (h : plainOf s va n acc = some (leaf, t, u)) : PlainAccess s va n acc leaf t u := by
  simp only [plainOf] at h
  split at h
  · cases h
  · rename_i l t' ht
    split at h
    · rename_i hc
      simp only [Option.map_eq_some_iff, Prod.mk.injEq] at h
      obtain ⟨u', hu, rfl, rfl, rfl⟩ := h
      simp only [Bool.and_eq_true, Bool.or_eq_true, Bool.not_eq_true', decide_eq_true_eq] at hc
      exact { found := ht, dram := hc.1.1.1.1, regions := hc.1.1.1.2, published := hc.1.1.2, served := hu, plain := hc.1.2, data := hc.2 }
    · cases h

/-- A plain access of which a test asks `p`. -/
def plainWith (s : State) (va : Word) (n : Nat) (acc : AccKindT) (p : Leaf → State → State → Bool) : Bool :=
  has (plainOf s va n acc) (fun x => p x.1 x.2.1 x.2.2)

theorem plain_witness {s : State} {va : Word} {n : Nat} {acc : AccKindT} {p : Leaf → State → State → Bool}
    (h : plainWith s va n acc p = true) : ∃ leaf t u, PlainAccess s va n acc leaf t u ∧ p leaf t u = true := by
  obtain ⟨⟨l, t, u⟩, hx, hp⟩ := has_elim h
  exact ⟨l, t, u, plain_of hx, hp⟩

/-- Sound memory at a leaf, not in conflict. -/
def soundAt (u : State) (leaf : Leaf) (n : Nat) : Bool :=
  !poisoned u.poison leaf.pa n && !((u.noteUse leaf.pa leaf.mt).conflict.contains (leaf.pa / 4096))

theorem gives_elim {o : Host.Outcome State Fault Refusal} {p : State → Bool} (h : gives o p = true) : ∃ t, o = .next t ∧ p t = true := by
  cases o with
  | next t => exact ⟨t, rfl, h⟩
  | fault f => cases h
  | refused r => cases h

/-- What a test asks of a result that may be an error. -/
def okWith {ε α : Type} (o : Except ε α) (p : α → Bool) : Bool :=
  match o with
  | .ok x => p x
  | .error _ => false

theorem ok_elim {ε α : Type} {o : Except ε α} {p : α → Bool} (h : okWith o p = true) : ∃ x, o = .ok x ∧ p x = true := by
  cases o with
  | error e => cases h
  | ok x => exact ⟨x, rfl, h⟩

/-- The error of a result. -/
def errOf {α : Type} (o : Except Nat α) : Option Nat :=
  match o with
  | .ok _ => none
  | .error c => some c

theorem err_elim {α : Type} {o : Except Nat α} {c : Nat} (h : errOf o = some c) : o = .error c := by
  cases o with
  | ok x => cases h
  | error e => exact congrArg Except.error (Option.some.inj h)

/-- CACHED memory is served without a change. -/
theorem plain_cached {s t u : State} {va : Word} {n : Nat} {acc : AccKindT} {leaf : Leaf} (h : PlainAccess s va n acc leaf t u)
    (hm : leaf.mt = mtCached) : u = t := by
  have := h.served
  rw [hm, if_neg (by decide)] at this
  exact (Option.some.inj this).symm

theorem sound_of {u : State} {leaf : Leaf} {n : Nat} (h : soundAt u leaf n = true) : poisoned u.poison leaf.pa n = false ∧ u.Settled leaf := by
  simp only [soundAt, Bool.and_eq_true, Bool.not_eq_true'] at h
  exact h

/-- A record of 64 bytes read by one plain load. -/
def readsRecord (s : State) (va : Word) : Option (List Byte × State) :=
  match plainOf s va 64 .read with
  | none => none
  | some (leaf, _, u) =>
    if va.toNat % 64 = 0 && soundAt u leaf 64 then some (leBytes (u.num leaf.pa 64) 64, u.afterRead leaf) else none

theorem readsRecord_of {s t : State} {va : Word} {bs : List Byte} (h : readsRecord s va = some (bs, t)) : s.ReadsRecord va bs t := by
  simp only [readsRecord] at h
  split at h
  · cases h
  · rename_i leaf s1 u hp
    split at h
    · rename_i hc
      simp only [Bool.and_eq_true, decide_eq_true_eq] at hc
      simp only [Option.some.injEq, Prod.mk.injEq] at h
      obtain ⟨rfl, rfl⟩ := h
      exact ⟨leaf, s1, u, hc.1, plain_of hp, (sound_of hc.2).1, (sound_of hc.2).2, rfl, rfl⟩
    · cases h

/-- Plain loads one after the other. -/
def readsAll (n : Nat) : State → List Word → Option (List (Nat × Bool) × State)
  | s, [] => some ([], s)
  | s, a :: rest =>
    match plainOf s a n .read with
    | none => none
    | some (leaf, _, u) =>
      if a.toNat % n = 0 && !((u.noteUse leaf.pa leaf.mt).conflict.contains (leaf.pa / 4096)) then
        (readsAll n (u.afterRead leaf) rest).map (fun x => ((u.num leaf.pa n, poisoned u.poison leaf.pa n) :: x.1, x.2))
      else none

theorem readsAll_of {n : Nat} {as : List Word} : ∀ {s t : State} {vs : List (Nat × Bool)}, readsAll n s as = some (vs, t) → ReadsAll n s as vs t := by
  induction as with
  | nil =>
    intro s t vs h
    simp only [readsAll, Option.some.injEq, Prod.mk.injEq] at h
    exact ⟨h.1.symm, h.2.symm⟩
  | cons a rest ih =>
    intro s t vs h
    simp only [readsAll] at h
    split at h
    · cases h
    · rename_i leaf s1 u hp
      split at h
      · rename_i hc
        simp only [Bool.and_eq_true, decide_eq_true_eq, Bool.not_eq_true'] at hc
        simp only [Option.map_eq_some_iff, Prod.mk.injEq] at h
        obtain ⟨x, hx, rfl, rfl⟩ := h
        exact ⟨leaf, s1, u, x.1, hc.1, plain_of hp, hc.2, rfl, ih hx⟩
      · cases h

/-- Element loads one after the other. -/
def gathersAll (n : Nat) : State → List Word → Option (List (Nat × Bool) × State)
  | s, [] => some ([], s)
  | s, a :: rest =>
    match plainOf s a n .read with
    | none => none
    | some (leaf, _, u) =>
      if a.toNat % n = 0 && !((u.noteUse leaf.pa leaf.mt).conflict.contains (leaf.pa / 4096)) then
        (gathersAll n ((u.noteUse leaf.pa leaf.mt).cacheRead leaf) rest).map (fun x =>
          ((leValue ((u.bytes leaf.pa n).mapIdx (fun i b => u.cur.queueByte (leaf.pa + i) b)), poisoned u.poison leaf.pa n) :: x.1, x.2))
      else none

theorem gathersAll_of {n : Nat} {as : List Word} : ∀ {s t : State} {vs : List (Nat × Bool)}, gathersAll n s as = some (vs, t) →
    GathersAll n s as vs t := by
  induction as with
  | nil =>
    intro s t vs h
    simp only [gathersAll, Option.some.injEq, Prod.mk.injEq] at h
    exact ⟨h.1.symm, h.2.symm⟩
  | cons a rest ih =>
    intro s t vs h
    simp only [gathersAll] at h
    split at h
    · cases h
    · rename_i leaf s1 u hp
      split at h
      · rename_i hc
        simp only [Bool.and_eq_true, decide_eq_true_eq, Bool.not_eq_true'] at hc
        simp only [Option.map_eq_some_iff, Prod.mk.injEq] at h
        obtain ⟨x, hx, rfl, rfl⟩ := h
        exact ⟨leaf, s1, u, x.1, hc.1, plain_of hp, hc.2, rfl, ih hx⟩
      · cases h

/-- Element stores one after the other. -/
def scattersAll (n : Nat) : State → List (Word × Nat) → Option (List Nat × State)
  | s, [] => some ([], s)
  | s, x :: rest =>
    match plainOf s x.1 n .write with
    | none => none
    | some (leaf, _, u) =>
      match storeAt leaf (leBytes x.2 n) (u.settleReads u.cur.reqid (groupOf leaf.pa)) with
      | .error _ => none
      | .ok (_, s3) => if x.1.toNat % n = 0 then (scattersAll n s3 rest).map (fun y => (leaf.pa :: y.1, y.2)) else none

theorem scattersAll_of {n : Nat} {xs : List (Word × Nat)} : ∀ {s t : State} {pas : List Nat}, scattersAll n s xs = some (pas, t) →
    ScattersAll n s xs pas t := by
  induction xs with
  | nil =>
    intro s t pas h
    simp only [scattersAll, Option.some.injEq, Prod.mk.injEq] at h
    exact ⟨h.1.symm, h.2.symm⟩
  | cons x rest ih =>
    intro s t pas h
    simp only [scattersAll] at h
    split at h
    · cases h
    · rename_i leaf s1 u hp
      split at h
      · cases h
      · rename_i y s3 hs
        split at h
        · rename_i hm
          simp only [Option.map_eq_some_iff, Prod.mk.injEq] at h
          obtain ⟨z, hz, rfl, rfl⟩ := h
          exact ⟨leaf, s1, u, s3, z.1, hm, plain_of hp, hs, rfl, ih hz⟩
        · cases h

/-- The second operand of class 0. -/
def secondOf (f : Fields) (s : State) : Word := if f.form = 0 then s.reg f.b else f.imm.signExtend 64

/-- The parameters of bext and bins. -/
def fieldOf (f : Fields) (s : State) : BitVec 14 := if f.form = 0 then (s.reg f.b).extractLsb' 0 14 else f.imm.extractLsb' 0 14

end Sys2Proof.Tests
end

