-- ==== Sys2Proof/Tests/Slice0.lean ====
section
/-! SUPPORT. Tests of single words and single steps. Words are written out from R42, R48 and the grids of R54; expected results are
hand calculations from the rule each test names. -/

set_option maxRecDepth 100000

namespace Sys2Proof.Tests

set_option Elab.async false

open Sys2Proof.Machine

/-! ### Well-formedness: one ill-formed term for each check (R41-R55) -/

/-- Every check on a full word accepts these. -/
theorem test_wf_accepts : ∀ i ∈ [Instr.add (F 0 1 2 3), .add (F 2 1 2 0 0xFFF_FFFF), .vadd (F 2 36 36 0 7 2 true), .fenceRel (F 3 0 0 0 2),
    .kmovPm (F 3 49 0 0 0), .tldExposed (F 3 60 0 0 9), .ld (F 2 1 2 0 0), .pairWord 0xC000_0000_0000_0000, .illegalInstruction (1 <<< 63 ||| 1 <<< 62),
    .debtIncrement], (match i with
      | .pairWord w => Instr.wf (.pairWord (w &&& ~~~(1#64 <<< 62)))
      | j => j.wf) = true := by decide +kernel

/-- FORM (R43); D, A, B of a wrong file, a field that must be 0 (R45); M and MZ (R46); IMM28 (R47). -/
theorem test_wf_refuses_fields : ∀ i ∈ [Instr.add (F 1 1 2 3), .add (F 0 32 2 3), .add (F 0 1 32 3), .add (F 0 1 2 32), .add (F 2 1 2 3),
    .add (F 0 1 2 3 0 1), .add (F 0 1 2 3 0 0 true), .vadd (F 0 33 34 35 0 0 true), .add (F 0 1 2 3 1), .sll (F 2 1 2 0 64),
    .vcmpeq (F 0 48 33 34), .smb (F 3 2 2 0 0), .ldv (F 3 5 1 5 0)], i.wf = false := by decide +kernel

/-- The constructor is the one that FORM, KIND or SEL chooses. -/
theorem test_wf_refuses_variants : ∀ i ∈ [Instr.fenceFull (F 3 0 0 0 1), .fenceAcq (F 3 0 0 0 0), .fenceRel (F 3 0 0 0 1), .fenceSv (F 3 0 0 0 4),
    .fenceVs (F 3 0 0 0 3), .fenceRow (F 3 0 0 0 6), .tlbiVa (F 3 0 1 2 1), .tlbiAsid (F 3 0 0 2 0), .tlbiAll (F 3 0 0 0 1), .kmov (F 3 49 0 0 0),
    .kmovPm (F 3 49 0 0 1), .kmovRowToMask (F 3 49 33 0 0), .kmovMaskToRow (F 3 33 49 0 1), .tld (F 3 60 0 0 9), .tldExposed (F 0 60 33 0 0)],
    i.wf = false := by decide +kernel

/-- A pair word from its halves (R48). -/
def pairOf (h0 h1 : Half) : Word := 1#1 ++ 0#1 ++ (h0.hop ++ h0.d ++ h0.a ++ h0.imm) ++ (h1.hop ++ h1.d ++ h1.a ++ h1.imm)

/-- A half. -/
def H (hop d a imm : Nat) : Half := { hop := BitVec.ofNat 7 hop, d := BitVec.ofNat 4 d, a := BitVec.ofNat 4 a, imm := BitVec.ofNat 16 imm }

/-- Legal pairs: every HOP in H1 beside a nop, and HOPs that may stand in H0. -/
theorem test_wf_accepts_pairs : ∀ p ∈ [(H 0 0 0 0, H 0 0 0 0), (H 1 1 2 0, H 2 3 4 5), (H 8 1 2 63, H 11 1 0 9), (H 13 1 2 1, H 15 1 0 2),
    (H 16 7 2 1, H 17 7 0 0), (H 19 1 2 0, H 26 1 2 3), (H 12 1 2 0, H 28 1 2 4), (H 3 1 2 0, H 27 1 2 0), (H 18 0 0 0, H 14 1 2 3)],
    (Instr.pairWord (pairOf p.1 p.2)).wf = true := by decide +kernel

/-- Each rule of R49, R51 and R53 broken once: a nop with a field, a marked-0 field, a shift of 64, li with A, a branch or smb in H0, smb of a
register by itself, a row field of 8, an unassigned HOP, two memory halves, setvl beside a vector half or beside setvl. -/
theorem test_wf_refuses_pairs : ∀ p ∈ [(H 0 1 0 0, H 0 0 0 0), (H 0 0 1 0, H 0 0 0 0), (H 0 0 0 1, H 0 0 0 0), (H 1 1 2 1, H 0 0 0 0),
    (H 8 1 2 64, H 0 0 0 0), (H 11 1 1 0, H 0 0 0 0), (H 15 1 0 2, H 0 0 0 0), (H 28 1 2 0, H 0 0 0 0), (H 0 0 0 0, H 28 1 1 0),
    (H 16 8 1 0, H 0 0 0 0), (H 17 1 1 0, H 0 0 0 0), (H 17 1 0 1, H 0 0 0 0), (H 19 1 8 0, H 0 0 0 0), (H 19 1 2 1, H 0 0 0 0),
    (H 26 8 1 0, H 0 0 0 0), (H 29 0 0 0, H 0 0 0 0), (H 127 0 0 0, H 0 0 0 0), (H 13 1 2 0, H 14 1 2 0), (H 27 1 2 0, H 19 1 2 0),
    (H 27 1 2 0, H 27 1 2 0), (H 19 1 2 0, H 27 1 2 0)], (Instr.pairWord (pairOf p.1 p.2)).wf = false := by decide +kernel

/-- The full-form equivalent of every half with its register fields at 0 is an instruction that decode accepts (R53). -/
theorem test_half_equivalents : (List.range 29).all (fun n => [false, true].all (fun second =>
    has (halfEquiv (H n (if n = 28 then 1 else 0) (if n = 28 then 2 else 0) 0) second) (fun i => i.wf))) = true := by decide +kernel

/-- A pair constructor needs P = 1 and bit 62 = 0; the illegal constructor stands only for words with no instruction. -/
theorem test_wf_refuses_words : Instr.wf (.pairWord 0) = false ∧ Instr.wf (.pairWord (3 <<< 62)) = false ∧
    Instr.wf (.illegalInstruction 0) = false ∧ Instr.wf (.illegalInstruction (1 <<< 63)) = false ∧
    Instr.wf (.illegalInstruction 0x0230_0000_0000_0000) = true := by decide +kernel

/-! ### Decoding: every constructor's word, from CLASS and OP of R54 and the fields of R42 -/

/-- FORM 2, D 0x21, A 0x12, B 0x2B, M 5, MZ 1, IMM28 0x0ABCDE0. -/
def g : Fields := F 2 0x21 0x12 0x2B 0x0AB_CDE0 5 true

theorem test_words_class0 : ∀ p ∈ ([
    (0x000A_14AB_B0AB_CDE0, .nop g), (0x001A_14AB_B0AB_CDE0, .add g), (0x002A_14AB_B0AB_CDE0, .sub g), (0x003A_14AB_B0AB_CDE0, .and g),
    (0x004A_14AB_B0AB_CDE0, .or g), (0x005A_14AB_B0AB_CDE0, .xor g), (0x006A_14AB_B0AB_CDE0, .sll g), (0x007A_14AB_B0AB_CDE0, .srl g),
    (0x008A_14AB_B0AB_CDE0, .sra g), (0x009A_14AB_B0AB_CDE0, .slt g), (0x00AA_14AB_B0AB_CDE0, .sltz g), (0x00BA_14AB_B0AB_CDE0, .mul g),
    (0x00CA_14AB_B0AB_CDE0, .mulh g), (0x00DA_14AB_B0AB_CDE0, .mulhz g), (0x00EA_14AB_B0AB_CDE0, .div g), (0x00FA_14AB_B0AB_CDE0, .divz g),
    (0x010A_14AB_B0AB_CDE0, .rem g), (0x011A_14AB_B0AB_CDE0, .remz g), (0x012A_14AB_B0AB_CDE0, .min g), (0x013A_14AB_B0AB_CDE0, .max g),
    (0x014A_14AB_B0AB_CDE0, .minz g), (0x015A_14AB_B0AB_CDE0, .maxz g), (0x016A_14AB_B0AB_CDE0, .clz g), (0x017A_14AB_B0AB_CDE0, .ctz g),
    (0x018A_14AB_B0AB_CDE0, .pop g), (0x019A_14AB_B0AB_CDE0, .bext g), (0x01AA_14AB_B0AB_CDE0, .bins g), (0x01BA_14AB_B0AB_CDE0, .lih g),
    (0x01CA_14AB_B0AB_CDE0, .li g), (0x01DA_14AB_B0AB_CDE0, .sel g), (0x01EA_14AB_B0AB_CDE0, .adr g), (0x01FA_14AB_B0AB_CDE0, .crr g),
    (0x020A_14AB_B0AB_CDE0, .crw g), (0x021A_14AB_B0AB_CDE0, .crs g), (0x022A_14AB_B0AB_CDE0, .crc g)] : List (Word × Instr)), decodeWord p.1 = p.2 := by decide +kernel

theorem test_words_class1 : ∀ p ∈ ([
    (0x100A_14AB_B0AB_CDE0, .ld g), (0x101A_14AB_B0AB_CDE0, .st g), (0x102A_14AB_B0AB_CDE0, .lda g), (0x103A_14AB_B0AB_CDE0, .stl g),
    (0x104A_14AB_B0AB_CDE0, .pf g), (0x105A_14AB_B0AB_CDE0, .bCond g), (0x106A_14AB_B0AB_CDE0, .j g), (0x107A_14AB_B0AB_CDE0, .jl g),
    (0x108A_14AB_B0AB_CDE0, .jr g), (0x109A_14AB_B0AB_CDE0, .smb g), (0x10AA_14AB_B0AB_CDE0, .bk g), (0x10BA_14AB_B0AB_CDE0, .bt g)] : List (Word × Instr)), decodeWord p.1 = p.2 := by decide +kernel

theorem test_words_class2 : ∀ p ∈ ([
    (0x200A_14AB_B0AB_CDE0, .act g), (0x201A_14AB_B0AB_CDE0, .actn g), (0x202A_14AB_B0AB_CDE0, .wb g), (0x203A_14AB_B0AB_CDE0, .pre g),
    (0x204A_14AB_B0AB_CDE0, .prex g), (0x205A_14AB_B0AB_CDE0, .ref g), (0x206A_14AB_B0AB_CDE0, .refa g), (0x207A_14AB_B0AB_CDE0, .rstat g),
    (0x208A_14AB_B0AB_CDE0, .rplace g)] : List (Word × Instr)), decodeWord p.1 = p.2 := by decide +kernel

theorem test_words_class3a : ∀ p ∈ ([
    (0x300A_14AB_B0AB_CDE0, .setvl g), (0x301A_14AB_B0AB_CDE0, .setcfg g), (0x302A_14AB_B0AB_CDE0, .vadd g),
    (0x303A_14AB_B0AB_CDE0, .vsub g), (0x304A_14AB_B0AB_CDE0, .vrsub g), (0x305A_14AB_B0AB_CDE0, .vmul g), (0x306A_14AB_B0AB_CDE0, .vmulh g),
    (0x307A_14AB_B0AB_CDE0, .vmacc g), (0x308A_14AB_B0AB_CDE0, .vadds g), (0x309A_14AB_B0AB_CDE0, .vaddsz g),
    (0x30AA_14AB_B0AB_CDE0, .vsubs g), (0x30BA_14AB_B0AB_CDE0, .vsubsz g), (0x30CA_14AB_B0AB_CDE0, .vavg g),
    (0x30DA_14AB_B0AB_CDE0, .vabsd g), (0x30EA_14AB_B0AB_CDE0, .vmin g), (0x30FA_14AB_B0AB_CDE0, .vmax g), (0x310A_14AB_B0AB_CDE0, .vminz g),
    (0x311A_14AB_B0AB_CDE0, .vmaxz g), (0x312A_14AB_B0AB_CDE0, .vand g), (0x313A_14AB_B0AB_CDE0, .vor g), (0x314A_14AB_B0AB_CDE0, .vxor g),
    (0x315A_14AB_B0AB_CDE0, .vsll g), (0x316A_14AB_B0AB_CDE0, .vsrl g), (0x317A_14AB_B0AB_CDE0, .vsra g), (0x318A_14AB_B0AB_CDE0, .vnsra g),
    (0x319A_14AB_B0AB_CDE0, .vwadd g), (0x31AA_14AB_B0AB_CDE0, .vwmul g), (0x31BA_14AB_B0AB_CDE0, .vdot4 g),
    (0x31CA_14AB_B0AB_CDE0, .vcmpeq g), (0x31DA_14AB_B0AB_CDE0, .vcmpne g), (0x31EA_14AB_B0AB_CDE0, .vcmplt g),
    (0x31FA_14AB_B0AB_CDE0, .vcmple g), (0x320A_14AB_B0AB_CDE0, .vcmpltz g), (0x321A_14AB_B0AB_CDE0, .vcmplez g),
    (0x322A_14AB_B0AB_CDE0, .vmerge g), (0x323A_14AB_B0AB_CDE0, .vmov g), (0x324A_14AB_B0AB_CDE0, .vext g), (0x325A_14AB_B0AB_CDE0, .vins g),
    (0x326A_14AB_B0AB_CDE0, .vredsum g), (0x327A_14AB_B0AB_CDE0, .vredmin g)] : List (Word × Instr)), decodeWord p.1 = p.2 := by decide +kernel

theorem test_words_class3b : ∀ p ∈ ([
    (0x328A_14AB_B0AB_CDE0, .vredmax g), (0x329A_14AB_B0AB_CDE0, .vredand g), (0x32AA_14AB_B0AB_CDE0, .vredor g),
    (0x32BA_14AB_B0AB_CDE0, .vfadd g), (0x32CA_14AB_B0AB_CDE0, .vfsub g), (0x32DA_14AB_B0AB_CDE0, .vfmul g),
    (0x32EA_14AB_B0AB_CDE0, .vfma g), (0x32FA_14AB_B0AB_CDE0, .vfnma g), (0x330A_14AB_B0AB_CDE0, .vfmin g),
    (0x331A_14AB_B0AB_CDE0, .vfmax g), (0x332A_14AB_B0AB_CDE0, .vfdiv g), (0x333A_14AB_B0AB_CDE0, .vfsqrt g),
    (0x334A_14AB_B0AB_CDE0, .vfrcp g), (0x335A_14AB_B0AB_CDE0, .vfrsq g), (0x336A_14AB_B0AB_CDE0, .vfexp2 g),
    (0x337A_14AB_B0AB_CDE0, .vfcmpeq g), (0x338A_14AB_B0AB_CDE0, .vfcmplt g), (0x339A_14AB_B0AB_CDE0, .vfcmple g),
    (0x33AA_14AB_B0AB_CDE0, .vfredsum g), (0x33BA_14AB_B0AB_CDE0, .vfredmax g), (0x33CA_14AB_B0AB_CDE0, .vfclass g),
    (0x33DA_14AB_B0AB_CDE0, .vslide g), (0x33EA_14AB_B0AB_CDE0, .vrot g), (0x33FA_14AB_B0AB_CDE0, .vperm g),
    (0x340A_14AB_B0AB_CDE0, .vcompress g), (0x341A_14AB_B0AB_CDE0, .vexpand g), (0x342A_14AB_B0AB_CDE0, .viota g),
    (0x343A_14AB_B0AB_CDE0, .kand g), (0x344A_14AB_B0AB_CDE0, .kor g), (0x345A_14AB_B0AB_CDE0, .kxor g), (0x346A_14AB_B0AB_CDE0, .knot g),
    (0x347A_14AB_B0AB_CDE0, .kpop g), (0x348A_14AB_B0AB_CDE0, .kfirst g), (0x349A_14AB_B0AB_CDE0, .kmov g),
    (0x349E_14AB_B0AB_CDE0, .kmovPm (F 3 0x21 0x12 0x2B 0xABCDE0 5 true)),
    (0x349E_14AB_B0AB_CDE1, .kmovRowToMask (F 3 0x21 0x12 0x2B 0xABCDE1 5 true)),
    (0x349E_14AB_B0AB_CDE2, .kmovMaskToRow (F 3 0x21 0x12 0x2B 0xABCDE2 5 true)), (0x34AA_14AB_B0AB_CDE0, .vcka g),
    (0x34BA_14AB_B0AB_CDE0, .ckchk g), (0x34CA_14AB_B0AB_CDE0, .pmclr g)] : List (Word × Instr)), decodeWord p.1 = p.2 := by decide +kernel

theorem test_words_class4 : ∀ p ∈ ([
    (0x400A_14AB_B0AB_CDE0, .vcvt g), (0x401A_14AB_B0AB_CDE0, .vcvtq g), (0x402A_14AB_B0AB_CDE0, .tcfg g), (0x403A_14AB_B0AB_CDE0, .tld g),
    (0x403E_14AB_B0AB_CDE0, .tldExposed (F 3 0x21 0x12 0x2B 0xABCDE0 5 true)), (0x404A_14AB_B0AB_CDE0, .mvm g),
    (0x405A_14AB_B0AB_CDE0, .mvmz g), (0x406A_14AB_B0AB_CDE0, .mvmw g), (0x407A_14AB_B0AB_CDE0, .acrd g), (0x408A_14AB_B0AB_CDE0, .aclr g),
    (0x409A_14AB_B0AB_CDE0, .ackx g), (0x40AA_14AB_B0AB_CDE0, .tstat g)] : List (Word × Instr)), decodeWord p.1 = p.2 := by decide +kernel

theorem test_words_class5 : ∀ p ∈ ([
    (0x500A_14AB_B0AB_CDE0, .xput g), (0x501A_14AB_B0AB_CDE0, .xget g), (0x502A_14AB_B0AB_CDE0, .xexp g), (0x503A_14AB_B0AB_CDE0, .xhide g),
    (0x504A_14AB_B0AB_CDE0, .xtrw g), (0x505A_14AB_B0AB_CDE0, .xtrc g), (0x506A_14AB_B0AB_CDE0, .copy g), (0x507A_14AB_B0AB_CDE0, .ctwait g),
    (0x508A_14AB_B0AB_CDE0, .ctfind g), (0x509A_14AB_B0AB_CDE0, .vgld g), (0x50AA_14AB_B0AB_CDE0, .vgst g), (0x50BA_14AB_B0AB_CDE0, .radd g),
    (0x50CA_14AB_B0AB_CDE0, .rswap g), (0x50DA_14AB_B0AB_CDE0, .rcas g), (0x50EA_14AB_B0AB_CDE0, .rmax g), (0x50FA_14AB_B0AB_CDE0, .rpush g),
    (0x510A_14AB_B0AB_CDE0, .rget g), (0x511A_14AB_B0AB_CDE0, .rput g), (0x512A_14AB_B0AB_CDE0, .rsync g)] : List (Word × Instr)), decodeWord p.1 = p.2 := by decide +kernel

theorem test_words_class6 : ∀ p ∈ ([
    (0x600E_14AB_B0AB_CDE0, .fenceFull (F 3 0x21 0x12 0x2B 0xABCDE0 5 true)),
    (0x600E_14AB_B0AB_CDE1, .fenceAcq (F 3 0x21 0x12 0x2B 0xABCDE1 5 true)),
    (0x600E_14AB_B0AB_CDE2, .fenceRel (F 3 0x21 0x12 0x2B 0xABCDE2 5 true)),
    (0x600E_14AB_B0AB_CDE3, .fenceSv (F 3 0x21 0x12 0x2B 0xABCDE3 5 true)),
    (0x600E_14AB_B0AB_CDE4, .fenceVs (F 3 0x21 0x12 0x2B 0xABCDE4 5 true)),
    (0x600E_14AB_B0AB_CDE5, .fenceRow (F 3 0x21 0x12 0x2B 0xABCDE5 5 true)), (0x601A_14AB_B0AB_CDE0, .amo g),
    (0x602A_14AB_B0AB_CDE0, .semt g), (0x603A_14AB_B0AB_CDE0, .semc g), (0x604A_14AB_B0AB_CDE0, .semq g), (0x605A_14AB_B0AB_CDE0, .bara g),
    (0x606A_14AB_B0AB_CDE0, .barw g), (0x607A_14AB_B0AB_CDE0, .barad g), (0x608A_14AB_B0AB_CDE0, .lkw g), (0x609A_14AB_B0AB_CDE0, .whold g),
    (0x60AA_14AB_B0AB_CDE0, .wrel g), (0x60BA_14AB_B0AB_CDE0, .wreg g), (0x60CA_14AB_B0AB_CDE0, .wdone g), (0x60DA_14AB_B0AB_CDE0, .qwait g),
    (0x60EA_14AB_B0AB_CDE0, .ldv g), (0x60FA_14AB_B0AB_CDE0, .valid g), (0x610A_14AB_B0AB_CDE0, .casv g)] : List (Word × Instr)), decodeWord p.1 = p.2 := by decide +kernel

theorem test_words_class7 : ∀ p ∈ ([
    (0x700A_14AB_B0AB_CDE0, .launch g), (0x701A_14AB_B0AB_CDE0, .lwait g), (0x702A_14AB_B0AB_CDE0, .lcancel g),
    (0x703A_14AB_B0AB_CDE0, .gpred g), (0x704A_14AB_B0AB_CDE0, .gjoin g), (0x705A_14AB_B0AB_CDE0, .yield g),
    (0x706A_14AB_B0AB_CDE0, .nprb g), (0x707A_14AB_B0AB_CDE0, .npre g), (0x708A_14AB_B0AB_CDE0, .trap g), (0x709A_14AB_B0AB_CDE0, .rett g),
    (0x70AE_14AB_B0AB_CDE0, .tlbiVa (F 3 0x21 0x12 0x2B 0xABCDE0 5 true)),
    (0x70AE_14AB_B0AB_CDE1, .tlbiAsid (F 3 0x21 0x12 0x2B 0xABCDE1 5 true)),
    (0x70AE_14AB_B0AB_CDE2, .tlbiAll (F 3 0x21 0x12 0x2B 0xABCDE2 5 true)), (0x70BA_14AB_B0AB_CDE0, .jrecv g),
    (0x70CA_14AB_B0AB_CDE0, .hexit g), (0x70DA_14AB_B0AB_CDE0, .wfi g), (0x70EA_14AB_B0AB_CDE0, .tstamp g),
    (0x70FA_14AB_B0AB_CDE0, .ctxsave g), (0x710A_14AB_B0AB_CDE0, .ctxrst g)] : List (Word × Instr)), decodeWord p.1 = p.2 := by decide +kernel

/-- The words the manual writes out: vadd o1, o2, o3 and vadd o4, o4, 7, k2.z (R42). -/
theorem test_words_examples : decodeWord 0x3022_18A3_0000_0000 = .vadd (F 0 33 34 35) ∧
    decodeWord 0x302A_4900_5000_0007 = .vadd (F 2 36 36 0 7 2 true) := by decide +kernel

/-- The bytes of the first example from its address upward (R42), with what follows left over. -/
theorem test_bytes_example : decode [0x00, 0x00, 0x00, 0x00, 0xA3, 0x18, 0x22, 0x30, 0x55] = .ok (.vadd (F 0 33 34 35), [0x55]) := rfl

/-- A pair word (R48): add s1, s1, s2 beside li s18, -1. -/
theorem test_words_pair : decodeWord (pairOf (H 1 1 2 0) (H 11 2 0 0xFFFF)) = .pairWord 0x8089_0000_0B20_FFFF := by decide +kernel

/-- Words with no instruction (R41, R54): bit 62 of a pair, and the first OP past each class list. -/
theorem test_words_illegal : ∀ p ∈ ([
    (0xC000_0000_0000_0000, .illegalInstruction 0xC000_0000_0000_0000), (0x0230_0000_0000_0000, .illegalInstruction 0x0230_0000_0000_0000),
    (0x10C0_0000_0000_0000, .illegalInstruction 0x10C0_0000_0000_0000), (0x2090_0000_0000_0000, .illegalInstruction 0x2090_0000_0000_0000),
    (0x34D0_0000_0000_0000, .illegalInstruction 0x34D0_0000_0000_0000), (0x40B0_0000_0000_0000, .illegalInstruction 0x40B0_0000_0000_0000),
    (0x5130_0000_0000_0000, .illegalInstruction 0x5130_0000_0000_0000), (0x6110_0000_0000_0000, .illegalInstruction 0x6110_0000_0000_0000),
    (0x7110_0000_0000_0000, .illegalInstruction 0x7110_0000_0000_0000)] : List (Word × Instr)), decodeWord p.1 = p.2 := by decide +kernel

/-- Seven bytes hold no word (R40). -/
theorem test_bytes_short : decode [0, 0, 0, 0, 0, 0, 0] = .error .truncated := rfl

/-! ### One step: scalars (R75-R88) -/

/-- A step of one instruction gives a state of which `p` holds. -/
def runs (i : Instr) (c : Ctx) (p : State → Bool) : Bool := gives (exec i (board c)) p

/-- The two-operand results of R76 at wraps, signs and shift counts above 63. -/
theorem test_binary_results : ∀ x ∈ ([(.add (F 0 3 1 2), 2 ^ 64 - 1, 1, 0), (.add (F 2 3 1 0 0xFFF_FFFF), 0, 0, 2 ^ 64 - 1),
    (.sub (F 0 3 1 2), 3, 5, 2 ^ 64 - 2), (.and (F 0 3 1 2), 12, 10, 8), (.or (F 0 3 1 2), 12, 10, 14), (.xor (F 0 3 1 2), 12, 10, 6),
    (.sll (F 0 3 1 2), 3, 65, 6), (.srl (F 0 3 1 2), 2 ^ 63, 127, 1), (.sra (F 2 3 1 0 63), 2 ^ 63, 0, 2 ^ 64 - 1),
    (.slt (F 0 3 1 2), 2 ^ 64 - 1, 1, 1), (.sltz (F 0 3 1 2), 2 ^ 64 - 1, 1, 0), (.mul (F 0 3 1 2), 2 ^ 64 - 1, 5, 2 ^ 64 - 5),
    (.mulh (F 0 3 1 2), 2 ^ 64 - 1, 2 ^ 64 - 1, 0), (.mulhz (F 0 3 1 2), 2 ^ 64 - 1, 2 ^ 64 - 1, 2 ^ 64 - 2),
    (.min (F 0 3 1 2), 2 ^ 64 - 1, 1, 2 ^ 64 - 1), (.max (F 0 3 1 2), 2 ^ 64 - 1, 1, 1), (.minz (F 0 3 1 2), 2 ^ 64 - 1, 1, 1),
    (.maxz (F 0 3 1 2), 2 ^ 64 - 1, 1, 2 ^ 64 - 1)] : List (Instr × Nat × Nat × Nat)),
    runs x.1 (regs [(1, x.2.1), (2, x.2.2.1)]) (fun t => t.reg 3 == BitVec.ofNat 64 x.2.2.2 && t.cur.pc == 0x8008) = true := by decide +kernel

/-- Quotients toward zero and remainders with the sign of a (R77): -7 by 2, and unsigned 2^64 - 7 by 2. -/
theorem test_division_results : ∀ x ∈ ([(.div (F 2 3 1 0 2), 2 ^ 64 - 3), (.rem (F 2 3 1 0 2), 2 ^ 64 - 1), (.divz (F 2 3 1 0 2), 2 ^ 63 - 4),
    (.remz (F 2 3 1 0 2), 1)] : List (Instr × Nat)),
    runs x.1 (regs [(1, 2 ^ 64 - 7)]) (fun t => t.reg 3 == BitVec.ofNat 64 x.2) = true := by decide +kernel

/-- Division traps (R77, R329): class 2, subcode 0 for an immediate zero and subcode 1 for -2^63 by -1, with a as TVAL; rem gives 0. -/
theorem test_division_traps :
    runs (.remz (F 2 3 1 0 0)) (regs [(1, 9), (3, 4)]) (fun t => t.cur.tcause == 0x20 && t.cur.tval == 9 && t.reg 3 == 4 && t.cur.tpc == 0x8000 &&
      t.cur.pc == 0x9000 && t.cur.tl && t.num 0xA000 8 == 0x20 && t.num 0xA008 8 == 0x8000) = true ∧
    runs (.div (F 2 3 1 0 0xFFF_FFFF)) (regs [(1, 2 ^ 63)]) (fun t => t.cur.tcause == 0x21 && t.cur.tval == 1 <<< 63) = true ∧
    runs (.rem (F 2 3 1 0 0xFFF_FFFF)) (regs [(1, 2 ^ 63), (3, 4)]) (fun t => t.reg 3 == 0 && t.cur.pc == 0x8008) = true := by decide +kernel

/-- clz, ctz, pop, bext and bins (R78): pos 4, len 4, with X for bext. -/
theorem test_bit_fields : ∀ x ∈ ([(.clz (F 0 3 1 0), 1, 63), (.clz (F 0 3 1 0), 0, 64), (.ctz (F 0 3 1 0), 8, 3), (.ctz (F 0 3 1 0), 0, 64),
    (.pop (F 0 3 1 0), 0xFF, 8), (.bext (F 2 3 1 0 (4 + 4 * 64)), 0x1F5, 15), (.bext (F 2 3 1 0 (4 + 4 * 64 + 2 ^ 13)), 0xF0, 2 ^ 64 - 1),
    (.bins (F 2 3 1 0 (4 + 4 * 64)), 0x1A, 0xA0)] : List (Instr × Nat × Nat)),
    runs x.1 (regs [(1, x.2.1)]) (fun t => t.reg 3 == BitVec.ofNat 64 x.2.2) = true := by decide +kernel

/-- li, lih, sel, adr and tstamp (R79, R84, R336): the clock stands at 10^6 ps. -/
theorem test_immediates : ∀ x ∈ ([(.li (F 2 3 0 0 0x800_0000), 2 ^ 64 - 2 ^ 27), (.lih (F 2 3 1 0 5), 7 * 2 ^ 28 + 5), (.sel (F 2 3 1 0 9), 9),
    (.adr (F 2 3 0 0 0xFFF_FFFF), 0x7FF8), (.tstamp (F 3 3 0 0), 1000)] : List (Instr × Nat)),
    runs x.1 (regs [(1, 7)]) (fun t => t.reg 3 == BitVec.ofNat 64 x.2) = true := by decide +kernel

/-- Control registers (R57, R58, R80): VL reads 4; crs of TSCRATCH ors; VCFG of crw takes the layout; TIME is read-only (subcode 15); a supervisor
number in user mode traps class 1, subcode 0. -/
theorem test_control_registers :
    runs (.crr (F 2 3 0 0 0x00)) hart (fun t => t.reg 3 == 4) = true ∧
    runs (.crs (F 2 3 1 0 0x106)) (regs [(1, 6)] { hart with tscratch := 9 }) (fun t => t.reg 3 == 9 && t.cur.tscratch == 15) = true ∧
    runs (.crc (F 2 3 1 0 0x106)) (regs [(1, 6)] { hart with tscratch := 15 }) (fun t => t.reg 3 == 15 && t.cur.tscratch == 9) = true ∧
    runs (.crw (F 2 3 1 0 0x05)) (regs [(1, 2 ^ 64 - 1)]) (fun t => t.cur.frm == 0x1F07) = true ∧
    runs (.crw (F 2 3 1 0 0x30)) hart (fun t => t.cur.tcause == 15) = true ∧
    runs (.crr (F 2 3 0 0 0x102)) { hart with sup := false } (fun t => t.cur.tcause == 0x10 && t.cur.tval == 0x102 && t.cur.sup && !t.cur.pm) = true := by
  decide +kernel

/-- Loads (R81): the level-5 entry at 0x1000 is 0x2001; a byte of 0x97 sign-extended; misaligned words trap 3/1 and lda 3/2. -/
theorem test_loads :
    runs (.ld (F 2 3 1 0 (3 * 2 ^ 26))) (regs [(1, 0x1000)]) (fun t => t.reg 3 == 0x2001) = true ∧
    runs (.ld (F 2 3 1 0 (2 ^ 25))) (regs [(1, 0x3018)]) (fun t => t.reg 3 == BitVec.ofInt 64 (-105)) = true ∧
    runs (.lda (F 2 3 1 0 (2 ^ 26))) (regs [(1, 0x3018)]) (fun t => t.reg 3 == 0x0C97) = true ∧
    runs (.ld (F 2 3 1 0 (2 * 2 ^ 26))) (regs [(1, 0x1002)]) (fun t => t.cur.tcause == 0x31 && t.cur.tval == 0x1002) = true ∧
    runs (.lda (F 2 3 1 0 (2 * 2 ^ 26))) (regs [(1, 0x1002)]) (fun t => t.cur.tcause == 0x32) = true := by decide +kernel

/-- Stores (R81, R82): two bytes little-endian, and nothing beside them. -/
theorem test_stores :
    runs (.st (F 2 3 1 0 (2 ^ 26 + 4))) (regs [(1, 0x10000), (3, 0x1_8765)]) (fun t => t.num 0x10000 8 == 0x8765_0000_0000 && t.mem.length == 18) = true ∧
    runs (.stl (F 2 3 1 0 (3 * 2 ^ 26))) (regs [(1, 0x10000), (3, 2 ^ 64 - 2)]) (fun t => t.num 0x10000 8 == 2 ^ 64 - 2 && t.cur.unfenced.length == 1) = true ∧
    runs (.st (F 2 3 1 0 0)) (regs [(1, 2 ^ 56)]) (fun t => t.cur.tcause == 0x49 && t.cur.tval == 1 <<< 56) = true := by decide +kernel

/-- Branches and jumps (R85): offsets count words of 8 bytes. -/
theorem test_branches :
    runs (.bCond (F 3 0 1 2 (2 * 2 ^ 24 + 0xFF_FFFE))) (regs [(1, 2 ^ 64 - 1), (2, 1)]) (fun t => t.cur.pc == 0x7FF0) = true ∧
    runs (.bCond (F 3 0 1 2 (4 * 2 ^ 24 + 5))) (regs [(1, 2 ^ 64 - 1), (2, 1)]) (fun t => t.cur.pc == 0x8008) = true ∧
    runs (.j (F 2 0 0 0 0xFFF_FFFF)) hart (fun t => t.cur.pc == 0x7FF8) = true ∧
    runs (.jl (F 2 31 0 0 2)) hart (fun t => t.cur.pc == 0x8010 && t.reg 31 == 0x8008) = true ∧
    runs (.jr (F 2 1 1 0 8)) (regs [(1, 0x9000)]) (fun t => t.cur.pc == 0x9008 && t.reg 1 == 0x8008) = true ∧
    runs (.jr (F 2 1 1 0 4)) (regs [(1, 0x9000)]) (fun t => t.cur.tcause == 0x30 && t.cur.tval == 0x9004) = true := by decide +kernel

/-- smb, bk and bt (R86-R88): VL is 4 and elements have 32 bits, so pointers rise by 16; the count falls by 4. -/
theorem test_strip_branches :
    runs (.smb (F 3 3 4 0 (2 ^ 26 + 0xFF_FFFF))) (regs [(3, 6), (4, 100), (5, 200)])
      (fun t => t.reg 3 == 2 && t.reg 4 == 116 && t.reg 5 == 216 && t.cur.pc == 0x7FF8) = true ∧
    runs (.smb (F 3 3 4 0 2)) (regs [(3, 4)]) (fun t => t.reg 3 == 0 && t.cur.pc == 0x8008) = true ∧
    runs (.smb (F 3 3 4 0 2)) (regs [(3, 3)]) (fun t => t.cur.tcause == 0x23 && t.cur.tval == 3) = true ∧
    runs (.bk (F 3 0 49 0 (0 * 2 ^ 26 + 2))) { hart.setMask 1 0x1000 with vl := 4 } (fun t => t.cur.pc == 0x8010) = true ∧
    runs (.bk (F 3 0 49 0 (1 * 2 ^ 26 + 2))) (hart.setMask 1 0x1000) (fun t => t.cur.pc == 0x8008) = true ∧
    runs (.bt (F 3 0 0 0 (5 * 2 ^ 22 + 2))) { hart with ctb := 32 } (fun t => t.cur.pc == 0x8010) = true := by decide +kernel

/-! ### Rows (R91-R101) -/

/-- A step on a machine. -/
def acts (i : Instr) (s : State) (p : State → Bool) : Bool := gives (exec i s) p

/-- act of the ROW address of row 1 of group 1 (R26, R96): a row 0x2000 bytes up, group at 0x80_0000; wb cleans, pre closes, ref pays one. -/
theorem test_rows :
    acts (.act (F 2 33 1 0 0)) (board (regs [(1, 0x4080_2000)])) (fun t => (t.group 1).row == some 1 && !(t.group 1).dirty && (t.group 1).va == 0x4080_2000) = true ∧
    acts (.actn (F 2 33 1 0 0)) (board (regs [(1, 0x4080_2000)])) (fun t => (t.group 1).row == some 1 && (t.group 1).dirty) = true ∧
    acts (.act (F 2 33 1 0 0)) (board (regs [(1, 0x4000_2000)])) (fun t => t.cur.tcause == 0x97 && (t.group 1).row == none) = true ∧
    acts (.wb (F 0 32 0 0)) ((rows 1 board).setGroup 0 (fun g => { g with dirty := true })) (fun t => (t.group 0).row == some 1 && !(t.group 0).dirty) = true ∧
    acts (.pre (F 0 32 0 0)) (rows 1 board) (fun t => (t.group 0).row == none) = true ∧
    acts (.ref (F 0 32 0 0)) board (fun t => (t.group 0).debt == -1 && (t.group 0).rptr == 1) = true ∧
    acts (.refa (F 0 0 0 0)) (rows 1 board) (fun t => (t.group 0).debt == 0 && (t.group 15).debt == -1) = true ∧
    acts (.prex (F 0 32 0 0)) (rows 1 board) (fun t => (t.group 0).row == none) = true := by decide +kernel

/-- rstat of an open dirty writable row with debt 3, and rplace of row 1 of group 1 (R100, R101). -/
theorem test_row_reports :
    acts (.rstat (F 0 3 32 0)) ((rows 1 board).setGroup 0 (fun g => { g with dirty := true, debt := 3 })) (fun t => t.reg 3 == 0x72) = true ∧
    acts (.rplace (F 0 3 33 0)) (rows 2 board) (fun t => t.reg 3 == BitVec.ofNat 64 (2 ^ 63 + 2 ^ 62 + 0x401)) = true ∧
    acts (.rplace (F 0 3 33 0)) board (fun t => t.reg 3 == 0) = true := by decide +kernel

/-! ### Vectors (R116-R145): four elements of 32 bits -/

/-- Rows o0 to o3 open, o1 and o2 filled. -/
def two (a b : List Nat) (c : Ctx := hart) : State := fill32 2 b (fill32 1 a (rows 4 (board c)))

/-- setvl clamps to VLMAX 2,048 of one row of 32-bit elements; setcfg swaps VCFG (R117-R120). -/
theorem test_configuration :
    acts (.setvl (F 2 3 0 0 5000)) board (fun t => t.cur.vl == 2048 && t.reg 3 == 5000) = true ∧
    acts (.setcfg (F 2 3 0 0 0x282)) board (fun t => t.cur.vcfg == 0x282 && t.reg 3 == 0x102) = true ∧
    acts (.setcfg (F 2 3 0 0 0x005)) board (fun t => t.cur.tcause == 8) = true := by decide +kernel

/-- Element-wise results of R132 and R133 on (-1, 2^31 - 1, 5, 7) and (1, 1, 9, 2). -/
theorem test_integer_elements : ∀ x ∈ ([(.vadd (F 0 32 33 34), [0, 0x8000_0000, 14, 9]), (.vsub (F 0 32 33 34), [0xFFFF_FFFE, 0x7FFF_FFFE, 0xFFFF_FFFC, 5]),
    (.vrsub (F 2 32 33 0 1), [2, 0x8000_0002, 0xFFFF_FFFC, 0xFFFF_FFFA]), (.vmul (F 0 32 33 34), [0xFFFF_FFFF, 0x7FFF_FFFF, 45, 14]),
    (.vmulh (F 0 32 33 34), [0xFFFF_FFFF, 0, 0, 0]), (.vadds (F 0 32 33 34), [0, 0x7FFF_FFFF, 14, 9]),
    (.vaddsz (F 0 32 33 34), [0xFFFF_FFFF, 0x8000_0000, 14, 9]), (.vsubsz (F 0 32 33 34), [0xFFFF_FFFE, 0x7FFF_FFFE, 0, 5]),
    (.vavg (F 0 32 33 34), [0, 0x4000_0000, 7, 5]), (.vabsd (F 0 32 33 34), [2, 0x7FFF_FFFE, 4, 5]), (.vmin (F 0 32 33 34), [0xFFFF_FFFF, 1, 5, 2]),
    (.vmaxz (F 0 32 33 34), [0xFFFF_FFFF, 0x7FFF_FFFF, 9, 7]), (.vand (F 0 32 33 34), [1, 1, 1, 2]), (.vxor (F 0 32 33 34), [0xFFFF_FFFE, 0x7FFF_FFFE, 12, 5]),
    (.vsll (F 0 32 33 34), [0xFFFF_FFFE, 0xFFFF_FFFE, 5 * 512, 28]), (.vsra (F 0 32 33 34), [0xFFFF_FFFF, 0x3FFF_FFFF, 0, 1])] : List (Instr × List Nat)),
    acts x.1 (two [0xFFFF_FFFF, 0x7FFF_FFFF, 5, 7] [1, 1, 9, 2]) (fun t => row32 0 t == x.2 && (t.group 0).dirty && t.cur.pc == 0x8008) = true := by
  decide +kernel

/-- A mask keeps or zeroes (R46, R122, R123): elements 0 and 2 active; ESTART skips element 0. -/
theorem test_masked_elements :
    acts (.vadd (F 0 33 33 34 0 1 false)) (two [1, 2, 3, 4] [10, 10, 10, 10] (hart.setMask 1 0x0101)) (fun t => row32 1 t == [11, 2, 13, 4]) = true ∧
    acts (.vadd (F 0 33 33 34 0 1 true)) (two [1, 2, 3, 4] [10, 10, 10, 10] (hart.setMask 1 0x0101)) (fun t => row32 1 t == [11, 0, 13, 0]) = true ∧
    acts (.vadd (F 0 33 33 34)) (two [1, 2, 3, 4] [10, 10, 10, 10] { hart with estart := 1 }) (fun t => row32 1 t == [1, 12, 13, 14] && t.cur.estart == 0) = true := by
  decide +kernel

/-- A compare writes every mask bit of the element's bytes (R122, R134). -/
theorem test_compares :
    acts (.vcmplt (F 0 49 33 34)) (two [0xFFFF_FFFF, 2, 3, 4] [1, 1, 9, 4]) (fun t => (t.cur.mask 1).toNat == 0xF0F) = true ∧
    acts (.vcmpltz (F 0 49 33 34)) (two [0xFFFF_FFFF, 2, 3, 4] [1, 1, 9, 4]) (fun t => (t.cur.mask 1).toNat == 0xF00) = true := by decide +kernel

/-- f32 arithmetic (R138, R139): 1.5 + 2.5 = 4, 1.5 x 2.5 = 3.75, 1.5 x 2.5 + 1 = 4.75, 1 / 4 = 0.25, sqrt 4 = 2, min(-0, 0) = -0. -/
theorem test_float_elements : ∀ x ∈ ([(.vfadd (F 0 32 33 34), 0x3FC0_0000, 0x4020_0000, 0x4080_0000), (.vfmul (F 0 32 33 34), 0x3FC0_0000, 0x4020_0000, 0x4070_0000),
    (.vfma (F 0 32 33 34), 0x3FC0_0000, 0x4020_0000, 0x4098_0000), (.vfdiv (F 0 32 33 34), 0x3F80_0000, 0x4080_0000, 0x3E80_0000),
    (.vfsqrt (F 0 32 33 0), 0x4080_0000, 0, 0x4000_0000), (.vfmin (F 0 32 33 34), 0x8000_0000, 0, 0x8000_0000),
    (.vfsub (F 0 32 33 34), 0x3F80_0000, 0x3F80_0000, 0), (.vfexp2 (F 0 32 33 0), 0x4040_0000, 0, 0x4100_0000)] : List (Instr × Nat × Nat × Nat)),
    acts x.1 (fill32 0 [0x3F80_0000] (two [x.2.1] [x.2.2.1] { hart with vcfg := 0x282, vl := 1 }))
      (fun t => t.num 0x2000 4 == x.2.2.2 && t.cur.fflags == 0) = true := by decide +kernel

/-- Flags and traps (R140, R161): 1 / 0 is infinity with DZ; with DZ enabled it takes class 13, subcode 3. -/
theorem test_float_flags :
    acts (.vfdiv (F 0 32 33 34)) (two [0x3F80_0000] [0] { hart with vcfg := 0x282, vl := 1 }) (fun t => t.num 0x2000 4 == 0x7F80_0000 && t.cur.fflags == 8) = true ∧
    acts (.vfdiv (F 0 32 33 34)) (two [0x3F80_0000] [0] { hart with vcfg := 0x282, vl := 1, frm := 0x0800 }) (fun t => t.cur.tcause == 0xD3) = true := by
  decide +kernel

/-- Moves of elements (R135, R141): vext sign-extends, vins, vslide by 1, vrot by 1, vcompress of elements 0 and 2. -/
theorem test_element_moves :
    acts (.vext (F 2 3 33 0 0)) (two [0xFFFF_FFFF] []) (fun t => t.reg 3 == 0xFFFF_FFFF_FFFF_FFFF) = true ∧
    acts (.vins (F 2 33 3 0 2)) (two [1, 2, 3, 4] [] (regs [(3, 77)])) (fun t => row32 1 t == [1, 2, 77, 4]) = true ∧
    acts (.vslide (F 2 32 33 0 1)) (two [1, 2, 3, 4] []) (fun t => row32 0 t == [2, 3, 4, 0]) = true ∧
    acts (.vrot (F 2 32 33 0 1)) (two [1, 2, 3, 4] []) (fun t => row32 0 t == [2, 3, 4, 1]) = true ∧
    acts (.vcompress (F 0 32 33 0 0 1 true)) (two [1, 2, 3, 4] [] (hart.setMask 1 0x0101)) (fun t => row32 0 t == [1, 3, 0, 0]) = true ∧
    acts (.vperm (F 0 32 33 34)) (two [1, 2, 3, 4] [3, 3, 0, 9]) (fun t => row32 0 t == [4, 4, 1, 0]) = true := by decide +kernel

/-- Reductions (R136, R137): 5 + (1 + 2 + 3 + 4), maximum, and the f32 tree sum. -/
theorem test_reductions :
    acts (.vredsum (F 0 32 33 34)) (two [1, 2, 3, 4] [5]) (fun t => t.num 0x2000 4 == 15) = true ∧
    acts (.vredmax (F 0 32 33 34)) (two [1, 2, 3, 0xFFFF_FFFF] [0]) (fun t => t.num 0x2000 4 == 3) = true ∧
    acts (.vfredsum (F 0 32 33 34)) (two [0x3F80_0000, 0x3F80_0000] [0x3F80_0000] { hart with vcfg := 0x282, vl := 2 }) (fun t => t.num 0x2000 4 == 0x4040_0000) = true := by
  decide +kernel

/-- Masks and checksums (R142-R145). -/
theorem test_masks_and_checksums :
    acts (.kand (F 0 50 48 49)) (board (hart.setMask 1 0x1010)) (fun t => t.cur.mask 2 == 0x1010) = true ∧
    acts (.kpop (F 0 3 49 0)) (board (hart.setMask 1 0x1013)) (fun t => t.reg 3 == 3) = true ∧
    acts (.kfirst (F 0 3 49 0)) (board (hart.setMask 1 0x1010)) (fun t => t.reg 3 == 1) = true ∧
    acts (.vcka (F 0 0 33 0 4)) (two [1, 2, 3, 4] []) (fun t => t.cur.ckN 0 == 30) = true ∧
    acts (.ckchk (F 3 3 0 0 4)) (board (hart.setCk 0 1)) (fun t => t.reg 3 == 1) = true ∧
    acts (.pmclr (F 0 0 49 0)) (board { hart.setMask 1 3 with poisonMask := 5 }) (fun t => t.cur.poisonMask == 4) = true := by decide +kernel

/-- vcvt of 2.5 from f32 to s32 rounds to even (R154, R162). -/
theorem test_conversion :
    acts (.vcvt (F 3 32 33 0 (10 + 4 * 64))) (two [0x4020_0000, 0x4060_0000] [] { hart with vl := 2 }) (fun t => t.num 0x2000 8 == 0x4_0000_0002) = true := by
  decide +kernel

/-! ### The weight array and the moves (R169-R218) -/

/-- A valid tile configuration of s8 weights, one row and two columns, SCALE 1.0 (R174). -/
def cfg : Word := 0x3F80_0000_0100_8040

/-- A tile whose first row holds 3 and -2, loaded under `cfg`. -/
def tile : Tile := { wt := 0xFE03, loaded := true, fc := 0, rows := 1, cols := 2, scale := 0x3F80_0000, pcol := 0 }

/-- tcfg stores its value, tld takes weights inside ROWS and COLS, aclr empties, tstat shows LOADED (R174-R177, R190, R192). -/
theorem test_tiles :
    acts (.tcfg (F 0 60 1 0)) (board (regs [(1, cfg.toNat)])) (fun t => t.cur.tcfgN 0 == cfg && t.cur.pc == 0x8008) = true ∧
    acts (.tld (F 0 60 33 0)) (fill 1 [3, 0xFE, 9] (rows 2 (board { hart with tcfg := hart.tcfg.set 0 cfg })))
      (fun t => (t.cur.tile 0).wt == 0xFE03 && (t.cur.tile 0).loaded) = true ∧
    acts (.tstat (F 0 3 60 0)) (board (hart.setTile 0 tile)) (fun t => t.reg 3 == 0x3F80_0000_0400_8040) = true := by decide +kernel

/-- mvmz of the input 10 by the row (3, -2) gives 30 and -20 (R180-R182), and acrd writes them as s32 (R188). -/
theorem test_multiply :
    acts (.mvmz (F 0 56 33 60)) (fill 1 [10] (rows 2 (board (hart.setTile 0 tile))))
      (fun t => (t.cur.acc 0).elems[0].v == 30 && (t.cur.acc 0).elems[1].v == -20 && !(t.cur.acc 0).empty) = true ∧
    acts (.acrd (F 3 33 56 0 (4 + 7 * 64))) (rows 2 (board (hart.setAcc 0 { Acc.blank with
      elems := (Acc.blank.elems.set 0 { v := 30, kind := .finite, poison := false }), empty := false, ts := 0x3F80_0000 })))
      (fun t => t.num 0x80_2000 4 == 30 && t.num 0x80_2004 4 == 0) = true := by decide +kernel

/-- Without MOWN a matrix instruction traps class 12, subcode 1 (R171). -/
theorem test_ownership : acts (.aclr (F 0 56 0 0)) (board { hart with mownEn := false }) (fun t => t.cur.tcause == 0xC1) = true := by decide +kernel

/-- xexp, xhide of a tag that is not there, xput of a busy tag, ctwait of no tag, ctfind (R198-R204). -/
theorem test_moves :
    acts (.xexp (F 3 0 33 0 (1 * 2 ^ 16 + 7))) (rows 2 board) (fun t => (t.tower 0).exposures.length == 1 && (t.exposure 0 7).isSome) = true ∧
    acts (.xhide (F 3 0 0 0 7)) board (fun t => t.cur.tcause == 0xEC && t.cur.tval == 7) = true ∧
    acts (.xput (F 3 0 33 2 (9 * 2 ^ 16 + 7))) (rows 2 (board (regs [(2, 5)] { hart with ctb := 2 ^ 64 - 1 })))
      (fun t => t.cur.busyTag 9 && !t.cur.ctb.getLsbD 9 && t.cur.pc == 0x8008) = true ∧
    acts (.ctwait (F 3 3 0 0)) board (fun t => t.reg 3 == 0 && t.cur.pc == 0x8008) = true ∧
    acts (.ctfind (F 3 3 1 0)) (board (regs [(1, 0x30)] { hart with ctb := 0x68 })) (fun t => t.reg 3 == 5) = true := by decide +kernel

/-- vgld gathers bytes 0x40 and 0x44 past sB, vgst scatters there (R217, R218). -/
theorem test_gather :
    acts (.vgld (F 1 32 33 2 0)) (({ two [0x40, 0x44] [] (regs [(2, 0x10000)] { hart with vl := 2 }) with poison := [] } : State).poke 0x10040 (leBytes 0x5_0000_0007 8))
      (fun t => t.num 0x2000 8 == 0x5_0000_0007) = true ∧
    acts (.vgst (F 1 34 33 2 0)) (two [0x40, 0x44] [8, 9] (regs [(2, 0x10000)] { hart with vl := 2 })) (fun t => t.num 0x10040 8 == 0x9_0000_0008) = true := by
  decide +kernel

/-- radd to an unreachable device traps class 17, subcode 0; a misaligned address class 3, subcode 4 (R263, R265). -/
theorem test_remote :
    acts (.radd (F 3 3 1 2 (5 + 3 * 2 ^ 11))) (board (regs [(1, 0x100), (5, 99)])) (fun t => t.cur.tcause == 0x110 && t.cur.tval == 99) = true ∧
    acts (.radd (F 3 3 1 2 (5 + 3 * 2 ^ 11))) (board (regs [(1, 0x104), (5, 99)])) (fun t => t.cur.tcause == 0x34) = true := by decide +kernel

/-! ### Order, atomics, versions, synchronisation, system (R232-R371) -/

/-- amo.add of 4 bytes wraps in its width and answers the old value (R259, R260); ldv of the version region records the line (R249). -/
theorem test_atomics :
    acts (.amo (F 3 3 1 2 (1 * 2 ^ 23 + 2 * 2 ^ 21))) ((board (regs [(1, 0x10000), (2, 2)])).poke 0x10000 (leBytes 0xFFFF_FFFF 4))
      (fun t => t.reg 3 == 0xFFFF_FFFF && t.num 0x10000 8 == 1) = true ∧
    acts (.ldv (F 3 3 1 4 (2 ^ 27))) (board (regs [(1, 0x8000_0000)])) (fun t => t.reg 3 == 0 && t.reg 4 == 0 && t.cur.vset.length == 1) = true ∧
    acts (.casv (F 3 3 1 2)) (board (regs [(1, 0x8000_0000), (2, 77), (3, 0)])) (fun t => t.num 0x40_0000_0000 8 == 77 && t.reg 3 == 0) = true ∧
    acts (.valid (F 0 3 0 0)) (board { hart with vset := [(0x100_0000, 0x8000_0000, 1)] }) (fun t => t.reg 3 == 1 && t.cur.vset == []) = true := by
  decide +kernel

/-- semt takes bit 5, semq of a taken bit answers 0, semc clears (R279-R281); a barrier of two counts one arrival (R283). -/
theorem test_synchronisation :
    acts (.semt (F 2 0 0 0 5)) board (fun t => (t.tower 0).sem == 32 && t.cur.pc == 0x8008) = true ∧
    acts (.semq (F 2 3 0 0 5)) (board.setTower 0 (fun w => { w with sem := 32 })) (fun t => t.reg 3 == 0) = true ∧
    acts (.semc (F 2 0 0 0 5)) (board.setTower 0 (fun w => { w with sem := 33 })) (fun t => (t.tower 0).sem == 1) = true ∧
    acts (.bara (F 2 3 0 0 (2 * 2 ^ 20 + 1))) board (fun t => ((t.tower 0).bar 1).arr == 1 && ((t.tower 0).bar 1).count == 2 && t.reg 3 == 0) = true ∧
    acts (.semt (F 2 0 0 0 5)) { board with cur := { hart with kind := .control, place := 2 } } (fun t => t.cur.tcause == 0x121) = true := by decide +kernel

/-- trap 3 takes 23/3 with sA as TVAL (R334) and rett returns to TPC in the saved mode (R333); on Cairn MEPC and ML (R394, R395). -/
theorem test_traps :
    acts (.trap (F 2 0 5 0 3)) (board (regs [(5, 9)] { hart with sup := false })) (fun t => t.cur.tcause == 0x173 && t.cur.tval == 9 && t.cur.sup && !t.cur.pm) = true ∧
    acts (.rett (F 3 0 0 0)) (board { hart with tl := true, pm := false, tpc := 0x4440 }) (fun t => t.cur.pc == 0x4440 && !t.cur.sup && !t.cur.tl) = true ∧
    acts (.rett (F 3 0 0 0)) board (fun t => t.cur.tcause == 0x144) = true ∧
    acts (.trap (F 2 0 5 0 3)) cairnBoard (fun t => t.mgmt.mepc == 0x8000 && t.mgmt.ml && t.mgmt.mcause.toNat % 512 == 0x173) = true := by decide +kernel

/-- Regions (R346), user-mode tlbi (R369), gpred without a gang (R315), a pair of two adds on the old registers (R50). -/
theorem test_system :
    acts (.nprb (F 3 0 0 0)) board (fun t => t.cur.npr.isSome) = true ∧ acts (.npre (F 3 0 0 0)) board (fun t => t.cur.tcause == 0x142) = true ∧
    acts (.tlbiAll (F 3 0 0 0 2)) (board { hart with sup := false }) (fun t => t.cur.tcause == 0x12) = true ∧
    acts (.gpred (F 3 0 1 0)) board (fun t => t.cur.tcause == 0x13D) = true ∧
    acts (.pairWord (pairOf (H 2 1 2 5) (H 12 2 3 0))) (board (regs [(2, 10), (19, 7)])) (fun t => t.reg 1 == 15 && t.reg 18 == 7 && t.cur.pc == 0x8008) = true ∧
    acts (.pairWord (pairOf (H 29 0 0 0) (H 0 0 0 0))) board (fun t => t.cur.tcause == 11) = true := by decide +kernel

/-! ### Steps and events -/

/-- Right after reset the first step runs the word that was placed (li s3, 5). -/
theorem test_step_word : gives (step (State.reset.withFetchWord 64 0x01C8_3000_0000_0005)) (fun t => t.reg 3 == 5) = true := by decide +kernel

/-- A due debt increment adds 1 and sets the next one 31.25 us on (R108); before it is due nothing changes. -/
theorem test_debt :
    gives (step { (withInput (.nums 0 0 0) board) with clk := 31250000, agenda := [.event .debtIncrement (.nums 0 0 0)] })
      (fun t => (t.group 0).debt == 1 && (t.group 0).nextInc == 62500000) = true ∧
    gives (step { board with agenda := [.event .debtIncrement (.nums 0 0 0)] }) (fun t => (t.group 0).debt == 0) = true := by decide +kernel

/-- A sensor reading of 150 degrees (2,400 sixteenths) is kept, one above fails its sensor (R380). -/
theorem test_sensor :
    gives (exec .sensorSample (withInput (.sample 640 2400) board)) (fun t => (t.sensor 640).raw == 2400 && !(t.sensor 640).failed) = true ∧
    gives (exec .sensorSample (withInput (.sample 640 2401) board)) (fun t => (t.sensor 640).failed && t.mgmt.mip.getLsbD 2) = true := by decide +kernel

end Sys2Proof.Tests
end

