-- ==== Sys2Proof/Tests/WitnessScalar.lean ====
section
/-! SUPPORT. For each statement of Obligations.lean with hypotheses, states and operands that meet them, clause by clause: the scalar part of
the machine. -/

set_option maxRecDepth 100000

namespace Sys2Proof.Tests

set_option Elab.async false

open Sys2Proof.Machine

/-- EncodeThenDecode: a full word with every field set, a pair word, a word without an instruction. -/
theorem witness_EncodeThenDecode : ∀ i ∈ [Instr.vadd (F 0 47 46 45 0 7 true), .li (F 2 31 0 0 0xFFF_FFFF), .pairWord 0x8000_0000_0000_0000,
    .illegalInstruction 0xC000_0000_0000_0000], i.wf = true ∧ isEvent i = false := by decide +kernel

/-- DecodedWords: a word of each kind. -/
theorem witness_DecodedWords : ((0xC000_0000_0000_0000 : Word).getLsbD 63 = true ∧ (0xC000_0000_0000_0000 : Word).getLsbD 62 = true) ∧
    ((0x0230_0000_0000_0000 : Word).getLsbD 63 = false ∧
      opCount ((0x0230_0000_0000_0000 : Word).extractLsb' 60 3).toNat ≤ ((0x0230_0000_0000_0000 : Word).extractLsb' 52 8).toNat) := by decide +kernel

/-- The machine after reset with li s3, 5 placed for it. -/
def placed : State := State.reset.withFetchWord 64 0x01C8_3000_0000_0005

/-- The board with its hart at an address without a mapping. -/
def astray : State := board { hart with pc := 0x1_4000_0000 }

/-- The board with its hart at an act, while a forced close awaits its refreshes in another bank of the tower. -/
def asking : State :=
  ((board (regs [(1, 0x4080_2000)])).poke 0x8000 (leBytes (wordOf 2 0 (F 2 32 1 0)).toNat 8)).setGroup (groupKey 0 5 3)
    (fun g => { g with forcing := true, debt := 2 })

/-- StepRunsWord: the machine after reset, at a word that activates nothing; an act that another activation comes before; a hart at an address without
a mapping; nothing to settle; a poisoned word. -/
theorem witness_StepRunsWord :
    (∃ w t, placed.AtWord ∧ (placed.setCur Ctx.dropStale).settleIn.fetch = .ok (w, t) ∧ t.grantBefore (decodeWord w) = none) ∧
    (∃ w t u, asking.AtWord ∧ (asking.setCur Ctx.dropStale).settleIn.fetch = .ok (w, t) ∧ decodeWord w = .act (F 2 32 1 0) ∧
      t.grantBefore (decodeWord w) = some u) ∧
    (astray.AtWord ∧ ∃ c, (astray.setCur Ctx.dropStale).settleIn.fetch = .error c) ∧
    (board.rowQueue = [] ∧ board.conflict = [] ∧ board.cur.unfenced = [] ∧ board.cur.barad = []) ∧
    (∃ leaf t, board.translate board.cur.pc .fetch = .ok (leaf, t) ∧ poisoned t.poison leaf.pa 8 = false ∧ t.Settled leaf ∧
      inSideTable leaf.pa 8 = false) ∧
    (∃ leaf t, ({ board with poison := [0x400] } : State).translate 0x8000 .fetch = .ok (leaf, t) ∧ poisoned t.poison leaf.pa 8 = true) ∧
    (∃ c, (board { hart with pc := 0x1_4000_0000 }).translate 0x1_4000_0000 .fetch = .error c) := by
  refine ⟨?_, ?_, ⟨atWord_of (by decide +kernel), 0x60, err_elim (by decide +kernel)⟩, by decide +kernel, ?_, ?_, ⟨0x40 + 0x20, err_elim (by decide +kernel)⟩⟩
  · obtain ⟨⟨w, t⟩, h, k⟩ := ok_elim (o := (placed.setCur Ctx.dropStale).settleIn.fetch) (p := fun x => (x.2.grantBefore (decodeWord x.1)).isNone)
      (by decide +kernel)
    exact ⟨w, t, atWord_of (by decide +kernel), h, Option.isNone_iff_eq_none.1 k⟩
  · obtain ⟨⟨w, t⟩, h, k⟩ := ok_elim (o := (asking.setCur Ctx.dropStale).settleIn.fetch) (p := fun x => decide (decodeWord x.1 = .act (F 2 32 1 0)) &&
      has (x.2.grantBefore (decodeWord x.1)) (fun _ => true)) (by decide +kernel)
    simp only [Bool.and_eq_true, decide_eq_true_eq] at k
    obtain ⟨u, e, _⟩ := has_elim k.2
    exact ⟨w, t, u, atWord_of (by decide +kernel), h, k.1, e⟩
  · obtain ⟨⟨l, t⟩, h, k⟩ := ok_elim (o := board.translate board.cur.pc .fetch) (p := fun x => soundAt x.2 x.1 8 && !inSideTable x.1.pa 8) (by decide +kernel)
    simp only [soundAt, Bool.and_eq_true, Bool.not_eq_true'] at k
    exact ⟨l, t, h, k.1.1, k.1.2, k.2⟩
  · obtain ⟨⟨l, t⟩, h, k⟩ := ok_elim (o := ({ board with poison := [0x400] } : State).translate 0x8000 .fetch)
      (p := fun x => poisoned x.2.poison x.1.pa 8) (by decide +kernel)
    exact ⟨l, t, h, k⟩

/-- StepPerformsEvent: an event, and a word's instruction, first in the agenda. -/
theorem witness_StepPerformsEvent : ∀ i ∈ [Instr.govRise, .nop (F 0 0 0 0)],
    ({ board with agenda := [.event i .nothing] } : State).stopped = false ∧
      ({ board with agenda := [.event i .nothing] } : State).agenda = .event i .nothing :: [] := by decide +kernel

theorem vlInv_of {s : State} (h : s.live.all (fun c => decide (c.vl.toNat ≤ vlMax c.vcfg c.lclass)) = true) : s.VlInv := by
  intro c hc
  simpa using List.all_eq_true.1 h c hc

/-- Refresh debts of a machine in which no group has been touched. -/
theorem debtInv_of {s : State} (h : s.groups = []) : s.DebtInv := by
  intro k
  simp [State.group, h, SMap.get, Group.blank]

/-- StepKeepsMemory: a step that stores; one that changes no mode, one that traps. -/
theorem witness_StepKeepsMemory : (∃ s t : State, step s = .next t ∧ s.MemInv ∧ s.VlInv ∧ s.DebtInv ∧ t.mem ≠ s.mem) ∧
    ∀ i ∈ [Instr.nop (F 0 0 0 0), .div (F 2 3 1 0 0), .rett (F 3 0 0 0), .crw (F 2 3 1 0 0x103)], isEvent i = false ∧ board.cur.kind ≠ .cairn ∧
      board.cur.run = .running ∧ ∃ t, exec i board = .next t ∧ t.cur.reqid = board.cur.reqid ∧ t.cur.run = .running := by
  constructor
  · obtain ⟨t, h, k⟩ := gives_elim (o := step ((board (regs [(3, 7), (1, 0x10000)])).poke 0x8000 (leBytes 0x101830400C000000 8)))
      (p := fun t => decide (t.mem ≠ ((board (regs [(3, 7), (1, 0x10000)])).poke 0x8000 (leBytes 0x101830400C000000 8)).mem)) (by decide +kernel)
    exact ⟨_, t, h, by unfold State.MemInv; decide +kernel, vlInv_of (by decide +kernel), debtInv_of rfl, of_decide_eq_true k⟩
  · intro i hi
    have h : ∀ i ∈ [Instr.nop (F 0 0 0 0), .div (F 2 3 1 0 0), .rett (F 3 0 0 0), .crw (F 2 3 1 0 0x103)], isEvent i = false ∧ board.cur.kind ≠ .cairn ∧
        board.cur.run = .running ∧ gives (exec i board) (fun t => decide (t.cur.reqid = board.cur.reqid ∧ t.cur.run = .running)) = true := by decide +kernel
    obtain ⟨t, e, k⟩ := gives_elim (h i hi).2.2.2
    exact ⟨(h i hi).1, (h i hi).2.1, (h i hi).2.2.1, t, e, (of_decide_eq_true k).1, (of_decide_eq_true k).2⟩

/-- ScalarArithmetic: register and immediate forms. -/
theorem witness_ScalarArithmetic : ∀ f ∈ [F 0 3 1 2, F 0 0 31 31, F 2 31 1 0 63], ∀ i ∈ [Instr.add f, .sub f, .and f, .or f, .xor f, .sll f, .srl f,
    .sra f, .slt f, .sltz f, .mul f, .mulh f, .mulhz f, .min f, .max f, .minz f, .maxz f], ready i board = true := by decide +kernel

/-- ScalarDivision: a zero divisor, another, -2^63 by -1, a hart and Cairn. -/
theorem witness_ScalarDivision :
    (∀ i ∈ [Instr.div (F 2 3 1 0 0), .divz (F 2 3 1 0 0), .rem (F 2 3 1 0 0), .remz (F 2 3 1 0 0)],
      ready i board = true ∧ secondOf (F 2 3 1 0 0) board = 0) ∧
    (∀ i ∈ [Instr.div (F 0 3 1 2), .divz (F 0 3 1 2), .rem (F 0 3 1 2), .remz (F 0 3 1 2)],
      ready i (board (regs [(1, 2 ^ 63), (2, 1)])) = true ∧ secondOf (F 0 3 1 2) (board (regs [(1, 2 ^ 63), (2, 1)])) ≠ 0) ∧
    (∀ i ∈ [Instr.div (F 2 3 1 0 0xFFF_FFFF), .rem (F 2 3 1 0 0xFFF_FFFF)], ready i (board (regs [(1, 2 ^ 63)])) = true ∧
      ((board (regs [(1, 2 ^ 63)])).reg 1).toInt = -2 ^ 63 ∧ (secondOf (F 2 3 1 0 0xFFF_FFFF) (board (regs [(1, 2 ^ 63)]))).toInt = -1) ∧
    board.cur.kind ≠ .cairn ∧ board.recordWait = none ∧ board.cur.tvec.toNat % 8 = 0 ∧ cairnBoard.cur.kind = .cairn ∧ cairnBoard.mgmt.ml = false := by
  decide +kernel

/-- TrapKeepsRegisters: a tower hart. -/
theorem witness_TrapKeepsRegisters : board.cur.kind ≠ .cairn := by decide +kernel

/-- BitFields: the whole register, its last bit, an empty field, one past bit 63, X. -/
theorem witness_BitFields :
    (∀ i ∈ [Instr.clz (F 0 3 1 0), .ctz (F 0 3 1 0), .pop (F 0 3 1 0)], ready i board = true) ∧
    (∀ p ∈ [(0, 64), (63, 1), (5, 7)], let f := F 2 3 1 0 (p.1 + p.2 * 64)
      ready (.bext f) board = true ∧ ready (.bins f) board = true ∧ 1 ≤ ((fieldOf f board).extractLsb' 6 7).toNat ∧
        ((fieldOf f board).extractLsb' 0 6).toNat + ((fieldOf f board).extractLsb' 6 7).toNat ≤ 64 ∧ (fieldOf f board).getLsbD 13 = false) ∧
    (∀ p ∈ [(0, 0), (1, 64), (63, 2)], let f := F 2 3 1 0 (p.1 + p.2 * 64)
      ready (.bext f) board = true ∧ ready (.bins f) board = true ∧ (((fieldOf f board).extractLsb' 6 7).toNat = 0 ∨
        64 < ((fieldOf f board).extractLsb' 0 6).toNat + ((fieldOf f board).extractLsb' 6 7).toNat)) ∧
    (ready (.bins (F 0 3 1 2)) (board (regs [(2, 2 ^ 13 + 64)])) = true ∧ (fieldOf (F 0 3 1 2) (board (regs [(2, 2 ^ 13 + 64)]))).getLsbD 13 = true) := by
  decide +kernel

/-- BitFields: words of class 0, OP 22 to 26, each with one field that its entry does not allow. -/
theorem witness_BitFields_words :
    let scalars := fun w : Word => decide ((w.extractLsb' 44 6).toNat < 32 ∧ (w.extractLsb' 38 6).toNat < 32 ∧ (w.extractLsb' 32 6).toNat < 32 ∧
      w.extractLsb' 29 3 = 0 ∧ w.getLsbD 28 = false)
    let op := fun w : Word => (w.extractLsb' 52 12).toNat
    let form := fun w : Word => (w.extractLsb' 50 2).toNat
    let b := fun w : Word => (w.extractLsb' 32 6).toNat
    let imm := fun w : Word => (w.extractLsb' 0 28).toNat
    [0x0164304000000000, 0x0178304000000000, 0x018C304000000000].all (fun w => scalars w && 22 ≤ op w && op w ≤ 24 && form w != 0) = true ∧
    [0x0160304200000000, 0x0170305F00000000, 0x0180304100000000].all (fun w => scalars w && 22 ≤ op w && op w ≤ 24 && form w == 0 && b w != 0) = true ∧
    [0x0160304000000001, 0x0170304008000000, 0x0180304000000005].all (fun w => scalars w && 22 ≤ op w && op w ≤ 24 && form w == 0 && b w == 0 && imm w != 0) = true ∧
    [0x0194304000000000, 0x01AC304000000000].all (fun w => scalars w && 25 ≤ op w && op w ≤ 26 && form w != 0 && form w != 2) = true ∧
    [0x0190304200000001, 0x01A0304008000000].all (fun w => scalars w && 25 ≤ op w && op w ≤ 26 && form w == 0 && imm w != 0) = true ∧
    [0x0198304100000000, 0x01A8305F00000000].all (fun w => scalars w && 25 ≤ op w && op w ≤ 26 && form w == 2 && b w != 0) = true ∧
    [0x0198304000004000, 0x01A8304008000000, 0x01A8304000002000].all (fun w => scalars w && 25 ≤ op w && op w ≤ 26 && form w == 2 && b w == 0 && (imm w / 2 ^ 14 != 0 || op w == 26 && imm w / 2 ^ 13 % 2 == 1)) = true := by
  decide +kernel

/-- ImmediatesAndMoves: each in a form it accepts. -/
theorem witness_ImmediatesAndMoves : ∀ i ∈ [Instr.nop (F 0 0 0 0), .pf (F 2 0 1 0 8), .lih (F 2 3 1 0 5), .li (F 2 3 0 0 0xFFF_FFFF), .sel (F 0 3 1 2),
    .sel (F 2 3 1 0 9), .adr (F 2 3 0 0 1), .tstamp (F 3 3 0 0)], ready i board = true := by decide +kernel

/-- ScalarFrame: two registers; each instruction ready with its condition, and completing. -/
theorem witness_ScalarFrame :
    ((31 : BitVec 6).toNat < 32 ∧ (1 : BitVec 6).toNat < 32 ∧ (31 : BitVec 6) ≠ 0 ∧ (1 : BitVec 6) ≠ 31) ∧
    (∀ i ∈ [Instr.nop (F 0 0 0 0), .add (F 0 3 1 2), .sub (F 0 3 1 2), .and (F 0 3 1 2), .or (F 0 3 1 2), .xor (F 0 3 1 2), .sll (F 0 3 1 2),
        .srl (F 0 3 1 2), .sra (F 0 3 1 2), .slt (F 0 3 1 2), .sltz (F 0 3 1 2), .mul (F 0 3 1 2), .mulh (F 0 3 1 2), .mulhz (F 0 3 1 2),
        .min (F 0 3 1 2), .max (F 0 3 1 2), .minz (F 0 3 1 2), .maxz (F 0 3 1 2), .clz (F 0 3 1 0), .ctz (F 0 3 1 0), .pop (F 0 3 1 0),
        .lih (F 2 3 1 0 5), .li (F 2 3 0 0 5), .sel (F 0 3 1 2), .adr (F 2 3 0 0 5), .tstamp (F 3 3 0 0), .pf (F 2 0 1 0 0),
        .divz (F 0 3 1 2), .rem (F 0 3 1 2), .remz (F 0 3 1 2), .div (F 0 3 1 2), .bext (F 2 3 1 0 64), .bins (F 2 3 1 0 64)],
      let s := board (regs [(1, 9), (2, 4)])
      ready i s = true ∧ secondOf (F 0 3 1 2) s ≠ 0 ∧ gives (exec i s) (fun _ => true) = true) := by decide +kernel

/-- ControlRegisterRead: VL of a tower hart, TIME and SENVAL of Cairn, with a tower island and the hub selected, a control hart. -/
theorem witness_ControlRegisterRead :
    (ready (.crr (F 2 3 0 0 0)) board = true ∧ crReach board.cur 0 = none ∧ board.cur.kind = .tower) ∧
    (∀ n ∈ [0x30, 0x311], ready (.crr (F 2 3 0 0 n)) cairnBoard = true ∧ crReach cairnBoard.cur n = none) ∧ State.reset.cur.kind = .control ∧
    cairnBoard.mgmt.islsel ≠ 32 ∧ ({ cairnBoard with mgmt := { cairnBoard.mgmt with islsel := 32 } } : State).mgmt.islsel = 32 := by decide +kernel

/-- A control hart in supervisor mode with the turn. -/
def controlBoard : State := board State.reset.cur

/-- ControlRegisterWrite: each register named, by each instruction, on the kind of hart that has it; aligned and misaligned values; Cairn's registers with
values they take and refuse; reads of a read-only register by crs and crc with s0. -/
theorem witness_ControlRegisterWrite :
    let all := fun (n : Nat) (s : State) => (F 2 3 1 0 n).sub 0 12 = n ∧ (F 2 3 1 0 n).a ≠ 0 ∧
      ∀ i ∈ [Instr.crw (F 2 3 1 0 n), .crs (F 2 3 1 0 n), .crc (F 2 3 1 0 n)], ready i s = true
    (board.cur.kind = .tower ∧ board.cur.sup = true ∧ board.cur.transfers = [] ∧
      ∀ n ∈ [0x00, 0x02, 0x03, 0x04, 0x05, 0x06, 0x09, 0x0B, 0x14, 0x19, 0x1A, 0x31, 0x32, 0x40, 0x86, 0x89, 0x100, 0x101, 0x102, 0x103, 0x104, 0x105, 0x106,
        0x110, 0x111, 0x112, 0x113, 0x114, 0x124, 0x127, 0x200, 0x20F], all n board) ∧
    (∀ x ∈ [0x1000, 0x1001], ∀ n ∈ [0x102, 0x104, 0x105, 0x112], ready (.crw (F 2 3 1 0 n)) (board (regs [(1, x)])) = true) ∧
    (controlBoard.cur.kind = .control ∧ controlBoard.cur.sup = true ∧ ∀ n ∈ [0x00, 0x01, 0x02, 0x10, 0x13, 0x14], all n controlBoard) ∧
    (cairnBoard.cur.kind = .cairn ∧ cairnBoard.mgmt.islsel ≠ 32 ∧ ∀ n ∈ [0x300, 0x301, 0x302, 0x303, 0x304, 0x305, 0x310, 0x312, 0x313, 0x314, 0x315, 0x316,
      0x317, 0x31A, 0x31B, 0x320, 0x321, 0x330, 0x331], all n cairnBoard) ∧
    ((F 2 3 0 0 0x30).a = 0 ∧ crReach board.cur ((F 2 3 0 0 0x30).sub 0 12) = none ∧ ready (.crs (F 2 3 0 0 0x30)) board = true ∧
      ready (.crc (F 2 3 0 0 0x30)) board = true) := by decide +kernel

/-- ControlRegisterReach: each clause at the ends of its ranges. -/
theorem witness_ControlRegisterReach :
    let all := fun (n : Nat) (s : State) => ∀ i ∈ [Instr.crr (F 2 3 0 0 n), .crw (F 2 3 1 0 n), .crs (F 2 3 1 0 n), .crc (F 2 3 1 0 n)], ready i s = true
    let user := board { hart with sup := false }
    (∀ n ∈ [0x400, 0xFFF], all n board) ∧ (∀ n ∈ [0x100, 0x1FF], all n user ∧ user.cur.sup = false) ∧ (∀ n ∈ [0x300, 0x3FF], all n board) ∧
    (∀ n ∈ [0x200, 0x2FF], all n State.reset ∧ State.reset.cur.kind ≠ .tower) ∧ (∀ n ∈ [0x000, 0x2FF, 0x31], all n cairnBoard ∧ cairnBoard.cur.kind = .cairn) ∧
    (∀ n ∈ [0x0C, 0x0F, 0x15, 0x17, 0x1B, 0x1F, 0x26, 0x2F, 0x33, 0x3F, 0x42, 0x85, 0x8A, 0xFF, 0x107, 0x10F, 0x115, 0x11F, 0x128, 0x1FF, 0x211, 0x217, 0x21B,
      0x2FF], all n board ∧ board.cur.kind = .tower ∧ board.cur.sup = true) ∧
    (∀ n ∈ [0x306, 0x30F, 0x31C, 0x31F, 0x322, 0x32F, 0x344, 0x3FF, 0x311, 0x318, 0x319, 0x332, 0x343], all n cairnBoard) ∧
    (∀ n ∈ [0x30, 0x0A, 0x18, 0x20, 0x25, 0x41, 0x120, 0x123, 0x218, 0x21A], all n board) ∧
    (∀ n ∈ [0x0B, 0x14, 0x19, 0x1A, 0x31, 0x32, 0x40, 0x210], all n user ∧ user.cur.kind = .tower) := by decide +kernel

/-- Branches: every condition of b, j, jl, jr to an aligned and a misaligned target, smb in its cases, on a control hart too, bk, bt. -/
theorem witness_Branches :
    (∀ c < 8, ready (.bCond (F 3 0 1 (if c < 6 then 2 else 0) (c * 2 ^ 24 + 5))) board = true ∧
      (F 3 0 1 (if c < 6 then 2 else 0) (c * 2 ^ 24 + 5)).sub 24 4 = c) ∧
    (ready (.j (F 2 0 0 0 5)) board = true ∧ ready (.jl (F 2 3 0 0 5)) board = true) ∧
    (ready (.jr (F 2 3 1 0 8)) board = true ∧ (board.reg 1 + (F 2 3 1 0 8).imm.signExtend 64).toNat % 8 = 0) ∧
    (ready (.jr (F 2 3 1 0 9)) board = true ∧ (board.reg 1 + (F 2 3 1 0 9).imm.signExtend 64).toNat % 8 ≠ 0) ∧
    (ready (.smb (F 3 3 4 0 5)) (board (regs [(3, 1)] { hart with vl := 0 })) = true ∧ (board (regs [(3, 1)])).reg 3 ≠ 0) ∧
    (ready (.smb (F 3 3 4 0 5)) (board (regs [(3, 3)])) = true ∧ ((board (regs [(3, 3)])).reg 3).toNat < board.cur.vl.toNat) ∧
    (ready (.smb (F 3 3 4 0 5)) State.reset = true ∧ State.reset.reg 3 = 0 ∧ State.reset.cur.vl = 0) ∧
    (∀ n ∈ [4, 5], ready (.smb (F 3 3 4 0 (3 * 2 ^ 26 + 5))) (board (regs [(3, n)])) = true ∧ board.cur.vl ≠ 0 ∧
      board.cur.vl.toNat ≤ ((board (regs [(3, n)])).reg 3).toNat) ∧
    (∀ c < 3, ready (.bk (F 3 0 49 0 (c * 2 ^ 26 + 5))) board = true ∧ (F 3 0 49 0 (c * 2 ^ 26 + 5)).sub 26 2 = c ∧
      ((F 3 0 49 0 5).a.toNat - 48) % vgOf board.cur.vcfg = 0) ∧
    (ready (.bk (F 3 0 49 0 5)) (board { hart with vcfg := 0x112 }) = true ∧ ((F 3 0 49 0 5).a.toNat - 48) % vgOf 0x112 ≠ 0) ∧
    (∀ c < 2, ready (.bt (F 3 0 0 0 (9 * 2 ^ 22 + c * 2 ^ 21 + 5))) (board { hart with ctb := 512 }) = true ∧
      (F 3 0 0 0 (9 * 2 ^ 22 + c * 2 ^ 21 + 5)).sub 21 1 = c ∧ (board { hart with ctb := 512 }).cur.ctb.getLsbD 9 = true ∧
      board.cur.ctb.getLsbD 9 = false) := by decide +kernel

/-- Loads: CACHED and ROW memory at each width, a misaligned address, one without a mapping, a poisoned granule. -/
theorem witness_Loads :
    (∀ z < 4, ready (.ld (F 2 3 1 0 (z * 2 ^ 26))) board = true ∧ ready (.lda (F 2 3 1 0 (z * 2 ^ 26))) board = true) ∧
    (∀ x ∈ [(0x10000, 1), (0x10000, 2), (0x10000, 4), (0x10000, 8), (0x4001_0000, 1), (0x4001_0000, 2), (0x4001_0000, 4), (0x4001_0000, 8)],
      (BitVec.ofNat 64 x.1).toNat % x.2 = 0 ∧ ∃ leaf t u, PlainAccess board (BitVec.ofNat 64 x.1) x.2 .read leaf t u ∧
        poisoned u.poison leaf.pa x.2 = false ∧ u.Settled leaf) ∧
    (ready (.st (F 2 3 1 0 (2 ^ 26))) board = true ∧ ready (.stl (F 2 3 1 0 (2 ^ 26))) board = true ∧ (0x10001 : Word).toNat % 2 ≠ 0) ∧
    (∃ c d, board.translate 0x1_4000_0000 .read = .error c ∧ board.translate 0x1_4000_0000 .write = .error d) ∧
    (∃ leaf t u, PlainAccess ({ board with poison := [0x800] } : State) 0x10000 8 .read leaf t u ∧ poisoned u.poison leaf.pa 8 = true) := by
  refine ⟨by decide +kernel, ?_, by decide +kernel, ⟨0x60, 0x60, err_elim (by decide +kernel), err_elim (by decide +kernel)⟩,
    plain_witness (p := fun l _ u => poisoned u.poison l.pa 8) (by decide +kernel)⟩
  intro x hx
  have h : ∀ x ∈ [(0x10000, 1), (0x10000, 2), (0x10000, 4), (0x10000, 8), (0x4001_0000, 1), (0x4001_0000, 2), (0x4001_0000, 4), (0x4001_0000, 8)],
      (BitVec.ofNat 64 x.1).toNat % x.2 = 0 ∧ plainWith board (BitVec.ofNat 64 x.1) x.2 .read (fun l _ u => soundAt u l x.2) = true := by decide +kernel
  obtain ⟨l, t, u, hp, k⟩ := plain_witness (h x hx).2
  simp only [soundAt, Bool.and_eq_true, Bool.not_eq_true'] at k
  exact ⟨(h x hx).1, l, t, u, hp, k.1, k.2⟩

/-- StoresComplete: CACHED and ROW memory at each width. -/
theorem witness_StoresComplete :
    (∀ z < 4, ready (.st (F 2 3 1 0 (z * 2 ^ 26))) board = true ∧ ready (.stl (F 2 3 1 0 (z * 2 ^ 26))) board = true) ∧
    board.MemInv ∧ board.cur.pubs = [] ∧ board.cur.run = .running ∧
    (∀ x ∈ [(0x10000, 1), (0x10000, 2), (0x10000, 4), (0x10000, 8), (0x4001_0000, 1), (0x4001_0000, 2), (0x4001_0000, 4), (0x4001_0000, 8)],
      (BitVec.ofNat 64 x.1).toNat % x.2 = 0 ∧ ∃ leaf t u, PlainAccess board (BitVec.ofNat 64 x.1) x.2 .write leaf t u) := by
  refine ⟨by decide +kernel, by unfold State.MemInv; decide +kernel, rfl, rfl, ?_⟩
  intro x hx
  have h : ∀ x ∈ [(0x10000, 1), (0x10000, 2), (0x10000, 4), (0x10000, 8), (0x4001_0000, 1), (0x4001_0000, 2), (0x4001_0000, 4), (0x4001_0000, 8)],
      (BitVec.ofNat 64 x.1).toNat % x.2 = 0 ∧ plainWith board (BitVec.ofNat 64 x.1) x.2 .write (fun _ _ _ => true) = true := by decide +kernel
  obtain ⟨l, t, u, hp, _⟩ := plain_witness (h x hx).2
  exact ⟨(h x hx).1, l, t, u, hp⟩

/-- TranslationFrame: a hart whose leaf still lacks A and D, and Cairn. -/
theorem witness_TranslationFrame :
    (∃ leaf t, State.reset.translate (BitVec.ofNat 64 Config.residentBase) .write = .ok (leaf, t) ∧ t.mem ≠ State.reset.mem ∧ State.reset.MemInv) ∧
    (∃ leaf t, cairnBoard.translate 0x10000 .write = .ok (leaf, t) ∧ cairnBoard.cur.kind = .cairn) := by
  constructor
  · obtain ⟨⟨l, t⟩, h, k⟩ := ok_elim (o := State.reset.translate (BitVec.ofNat 64 Config.residentBase) .write)
      (p := fun x => decide (x.2.mem ≠ State.reset.mem)) (by decide +kernel)
    exact ⟨l, t, h, of_decide_eq_true k, by unfold State.MemInv; decide +kernel⟩
  · obtain ⟨⟨l, t⟩, h, _⟩ := ok_elim (o := cairnBoard.translate 0x10000 .write) (p := fun _ => true) (by decide +kernel)
    exact ⟨l, t, h, rfl⟩

end Sys2Proof.Tests
end

