-- ==== Sys2Proof/Tests/WitnessUnits.lean ====
section
/-! SUPPORT. For each statement of Obligations.lean with hypotheses, states and operands that meet them, clause by clause: the weight array,
moves, remote operations, ordering and synchronisation. -/

set_option maxRecDepth 100000

namespace Sys2Proof.Tests

set_option Elab.async false

open Sys2Proof.Machine

/-- TCFG of s8 weights, 128 rows and 64 columns, OWN 1, scale 1.0 (R174). -/
def fullCfg : Word := 0x3F80_0000_0110_2000

/-- A tile of one row of zeros in s8, one column. -/
def small : Tile := { wt := 0, loaded := true, fc := 0, rows := 1, cols := 1, scale := 0x3F80_0000, pcol := 0 }

/-- The machine with every group of the home bank open. -/
def openAll (c : Ctx := hart) : State := rows 16 (board c)

/-- A descriptor of one dimension of `n` elements of format s8 from `base` (R210). -/
def desc (base n : Nat) : List Byte :=
  leBytes base 8 ++ leBytes n 4 ++ leBytes 0 16 ++ leBytes 1 4 ++ leBytes 0 16 ++ leBytes 0x0100 2 ++ leBytes 0 6 ++ leBytes 0 4 ++ leBytes n 4

/-- A transfer of one kind of work under a tag. -/
def transferOf (tag : Nat) (w : Work) : Transfer :=
  { tag := tag, work := w, scope := 0, ptroot := 0x1000, serial := 0, chunks := 1, done := [], failed := false, expinc := none, flights := [],
    failing := none }

/-- A hart with a remote operation in flight under tag 4, for scalar 9. -/
def waiting : Ctx := { hart with transfers := [transferOf 4 (.remote 0 3 false 99 0 0 0 9)] }

/-- ArrayTiles: off partition 0; without MOWN; tcfg of a good value at its bounds and of bad ones; tld of a row and of an exposed run; unused and
unreadable tiles; aclr; tstat of a tile and of an accumulator. -/
theorem witness_ArrayTiles :
    (∀ c ∈ [{ hart with part := 1 }, { hart with mownEn := false }], ∀ i ∈ [Instr.tcfg (F 0 60 1 0), .tld (F 0 60 33 0), .tldExposed (F 3 60 0 0 7),
      .mvm (F 0 56 33 60), .mvmz (F 0 56 33 60), .mvmw (F 3 56 33 60), .acrd (F 3 33 56 0 4), .aclr (F 0 56 0 0), .ackx (F 0 0 56 0), .tstat (F 0 3 60 0)],
      ready i (openAll c) = true) ∧
    (openAll.OwnsArray ∧ openAll.NoReplay ∧ openAll.MemInv ∧ openAll.SeesMemory) ∧
    (ready (.tcfg (F 0 63 1 0)) openAll = true ∧ tcfgFault 3 fullCfg = none ∧ tcfgFault 3 0 = none ∧ (0x20_0000 : Word) &&& 0xFFFF_FFFF_031F_FFFF = 0 ∧ tcfgFault 3 0x3F80_0000_0110_0000 = some 2) ∧
    (let s := openAll { hart with tcfg := hart.tcfg.set 0 fullCfg }
     s.OwnsArray ∧ s.NoReplay ∧ s.MemInv ∧ s.SeesMemory ∧ ready (.tld (F 0 60 33 0)) s = true ∧ fld fullCfg.toNat 24 2 ≠ 0 ∧ fld fullCfg.toNat 24 2 ≠ 2 ∧
       fld fullCfg.toNat 6 8 ≤ tileRowClamp 3 ∧ s.RowReady 1 false) ∧
    (let e : Exposure := { etag := 7, owner := 1, acc := 1, rows := { tower := 0, bank := 0, group := 2, len := 1 } }
     let s := (openAll { hart with tcfg := hart.tcfg.set 0 fullCfg }).setTower 0 (fun w => { w with exposures := [e] })
     ready (.tldExposed (F 3 60 0 0 7)) s = true ∧ s.exposure s.cur.place 7 = some e ∧ bitAt e.acc 0 = true ∧
       s.usableAt (groupKey e.rows.tower e.rows.bank e.rows.group) ≤ s.clk) ∧
    (fld hart.tcfg[0].toNat 24 2 = 0 ∧ fld (0x3F80_0000_0210_2000 : Word).toNat 24 2 = 2) ∧
    (ready (.aclr (F 0 59 0 0)) openAll = true ∧ ready (.tstat (F 0 3 63 0)) openAll = true ∧ ready (.tstat (F 0 3 59 0)) openAll = true ∧
      small.fc < 64 ∧ small.rows < 256 ∧ small.cols < 128) := by
  exact ⟨by decide +kernel, ⟨⟨rfl, rfl⟩, noReplay_of (by decide +kernel), by unfold State.MemInv; decide +kernel, ⟨rfl, rfl⟩⟩, by decide +kernel,
    ⟨⟨rfl, rfl⟩, noReplay_of (by decide +kernel), by unfold State.MemInv; decide +kernel, ⟨rfl, rfl⟩, by decide +kernel, by decide +kernel, by decide +kernel,
      by decide +kernel, rowReady_of (by decide +kernel)⟩, by decide +kernel⟩

/-- An accumulator whose element 0 needs rounding in f32. -/
def wideAcc : Acc := { Acc.blank with elems := Acc.blank.elems.set 0 { v := 2 ^ 40 + 1, kind := .finite, poison := false }, empty := false, ts := 0x3F80_0000 }

/-- The accumulator that the witnesses of ackx use: NaN in element 3. -/
def nanAcc : Acc := { Acc.blank with elems := Acc.blank.elems.set 3 { v := 0, kind := .nan, poison := false } }

/-- ArrayMultiply, the numbers: a factor of a format with infinities and of one that is finite; elements of an accumulator of each kind. -/
theorem witness_ArrayMultiply_numbers :
    (∀ p ∈ [(0, 0x80), (52, 0x35), (52, 0x7F), (52, 0x80)], tileFormat p.1 = true ∧ p.2 < 2 ^ fcWidth p.1) ∧ (valueOf 0x80 52 8).isNan = true ∧
    valueOf 0x7F 52 8 = .inf false ∧ (valueOf 0x35 52 8).IsFinite ∧
    (∀ k ∈ [AccKind.nan, .posInf, .negInf, .finite], ({ v := 5, kind := k, poison := false } : AccElem).kind = k) ∧
    ({ Acc.blank with empty := false } : Acc).empty = false ∧ (5 : Int) ≠ 0 ∧ (valueOf (0x3F80_0000 : Word).toNat 10 32).IsFinite := by
  refine ⟨by decide +kernel, by decide +kernel, by decide +kernel, ?_, by decide +kernel, by decide, by decide, ?_⟩ <;> (show 0 < _; decide +kernel)

/-- ArrayMultiply: a product without a NaN; infinity by zero in f8, with NV stored and with NV trapped; a window of one element; acrd without and
with a trapped flag; ackx of finite elements and with a NaN. -/
theorem witness_ArrayMultiply :
    (let s := openAll (hart.setTile 0 small)
     let f := F 0 56 33 60 0
     s.OwnsArray ∧ s.NoReplay ∧ ready (.mvm f) s = true ∧ ready (.mvmz f) s = true ∧ tileFormat (f.sub 0 6) = true ∧
       f.sub 6 14 + (s.cur.tile 0).inputs ≤ 65536 / 8 ∧ s.RowReady 1 false ∧ (s.cur.tile 0).loaded = true ∧ Machine.formatsFit 0 0 = true ∧
       (s.cur.acc 0).matchesScale (arrayQ 0 + arrayQ 0) 0x3F80_0000 0 = true ∧ (Acc.blank.multiply small [{ kind := .finite, v := 1 }] false 0 0).2 = none) ∧
    (let f := F 0 56 33 60 52
     f.sub 0 6 = 52 ∧ factorOf 127 52 = { kind := .posInf, v := 0 } ∧ (Acc.blank.multiply small [factorOf 127 52] false 52 0).2 = some 0 ∧
       tileFormat 52 = true ∧ Machine.formatsFit 0 52 = true ∧ hart.frm.getLsbD 12 = false ∧ ({ hart with frm := 0x1000 } : Ctx).frm.getLsbD 12 = true) ∧
    (let rec_ : List Nat := [1, 0, 1, 0, 1, 0, 1, 1, 1, 1, 1, 1]
     let s := (openAll (regs [(4, 0x10000)] (hart.setTile 0 small))).poke 0x10000 (rec_.map (BitVec.ofNat 8))
     let f := F 3 56 33 60 (5 + 4 * 32)
     ready (.mvmw f) s = true ∧ f.sub 5 5 = 4 ∧ f.sub 0 5 = 5 ∧ (∃ leaf t u, PlainAccess s 0x10000 64 .read leaf t u ∧
       (soundAt u leaf 64 && (let v := u.afterRead leaf
         let r := leBytes (u.num leaf.pa 64) 64
         shapeFault r = none && ceilDiv (shapeBytes r) 8192 = 1 && decide (0 < (shapeOH r * shapeOW r).toNat) && noReplay v && rowReady v 1 false &&
           (v.cur.tile 0).loaded && Machine.formatsFit 0 (recNum r 17 1))) = true)) ∧
    (let s := openAll
     let f := F 3 33 56 0 (10 + 64 * 7)
     s.NoTransfers ∧ ready (.acrd f) s = true ∧ fcValid (f.sub 0 6) = true ∧ f.sub 10 14 + 64 ≤ 65536 / 32 ∧ s.RowReady 1 true ∧
       roundingMode (f.sub 6 3) s.cur.frm = some 0 ∧
       let es := fun (a : Acc) => (List.range 64).map (fun n => let r := readElement a (a.elems.toArray.getD n default) 10 32 0 false
         ({ e := n, v := r.1, flags := r.2, pois := false } : Elt))
       trapElt 0 (es Acc.blank) = none ∧ (trapElt 0x1F00 (es wideAcc)).isSome = true) ∧
    (ready (.ackx (F 0 0 56 0 4)) openAll = true ∧ (∀ n : Fin 64, (openAll.cur.acc 0).elems[n].kind = .finite) ∧
      nanAcc.elems[(3 : Fin 64)].kind ≠ .finite ∧ ∀ m : Fin 64, m < 3 → nanAcc.elems[m].kind = .finite) := by
  exact ⟨⟨⟨rfl, rfl⟩, noReplay_of (by decide +kernel), by decide +kernel, by decide +kernel, by decide +kernel, by decide +kernel, rowReady_of (by decide +kernel),
    by decide +kernel, by decide +kernel, by decide +kernel, by decide +kernel⟩, by decide +kernel, ⟨by decide +kernel, by decide +kernel, by decide +kernel,
      plain_witness (p := fun leaf _ u => soundAt u leaf 64 && (let v := u.afterRead leaf
         let r := leBytes (u.num leaf.pa 64) 64
         shapeFault r = none && ceilDiv (shapeBytes r) 8192 = 1 && decide (0 < (shapeOH r * shapeOW r).toNat) && noReplay v && rowReady v 1 false &&
           (v.cur.tile 0).loaded && Machine.formatsFit 0 (recNum r 17 1))) (by decide +kernel)⟩,
    ⟨noTransfers_of (by decide +kernel), by decide +kernel, by decide +kernel, by decide +kernel, rowReady_of (by decide +kernel), by decide +kernel,
      by decide +kernel⟩, by decide +kernel⟩

/-- ArraySums: an empty accumulator and one that is not; a column below and one at COLS; finite factors. -/
theorem witness_ArraySums : Acc.blank.empty = true ∧ ({ Acc.blank with empty := false } : Acc).empty = false ∧ (0 : Fin 64) < small.cols ∧
    small.cols ≤ (1 : Fin 64) ∧ Acc.blank.elems[(0 : Fin 64)].kind = .finite ∧
    (∀ p ∈ [({ kind := .finite, v := 5 } : Factor)].zipIdx, p.1.kind = .finite ∧ (small.weight p.2 0).kind = .finite) := by decide +kernel

/-- TraverseMoves: each instruction on a run of one row; xhide by its owner and by another; towers on and off the stack; xtrw and xtrc with and
without the tile. -/
theorem witness_TraverseMoves :
    let s := openAll (regs [(2, 63), (6, 64), (7, 512)])
    let e : Exposure := { etag := 7, owner := 0x60064, acc := 3, rows := { tower := 0, bank := 0, group := 2, len := 1 } }
    let held := s.setTower 0 (fun w => { w with tpHolder := some 0x60064, exposures := [e] })
    (s.NoReplay ∧ s.NoTransfers ∧ s.cur.transfers = [] ∧ held.NoReplay ∧ held.NoTransfers) ∧
    (ready (.xexp (F 3 0 47 0 (3 * 2 ^ 16 + 7))) s = true ∧ s.exposure s.cur.place 7 = none ∧ rowField (F 3 0 47 0).a % vgOf s.cur.vcfg = 0 ∧
      vgOf s.cur.vcfg ≤ vgMax s.cur.lclass ∧ (∀ i < 1, s.RowReady (15 + i) false) ∧
      ∀ i < 1, (s.homeGroup (15 + i)).writable = true ∧ (s.homeGroup (15 + i)).dset = true) ∧
    (ready (.xhide (F 3 0 0 0 7)) held = true ∧ held.exposure held.cur.place 7 = some e ∧ e.owner = held.cur.reqid ∧ s.exposure s.cur.place 7 = none) ∧
    (ready (.xput (F 3 0 47 2 (9 * 2 ^ 16 + 7))) s = true ∧ ready (.xget (F 3 47 0 2 (9 * 2 ^ 16 + 7))) s = true ∧ (s.reg 2).toNat < 512 ∧
      (s.reg 2).toNat / 64 = s.cur.place / 64) ∧
    (∀ v ∈ [6, 7], ready (.xput (F 3 0 47 v 7)) s = true ∧ ready (.xget (F 3 47 0 v 7)) s = true ∧
      (512 ≤ (s.reg (BitVec.ofNat 6 v)).toNat ∨ (s.reg (BitVec.ofNat 6 v)).toNat / 64 ≠ s.cur.place / 64)) ∧
    (ready (.xtrw (F 3 0 47 0 1)) s = true ∧ s.SeesMemory ∧ (s.tower s.cur.place).tpHolder = none ∧ ready (.xtrc (F 3 47 0 0 9)) held = true ∧ held.RowReady 15 true ∧
      (held.tower held.cur.place).tpHolder = some held.cur.reqid ∧ ready (.xtrc (F 3 47 0 0 9)) s = true ∧ s.RowReady 15 true ∧
      (s.tower s.cur.place).tpHolder ≠ some s.cur.reqid) := by
  refine ⟨⟨noReplay_of (by decide +kernel), noTransfers_of (by decide +kernel), rfl, noReplay_of (by decide +kernel), noTransfers_of (by decide +kernel)⟩,
    ⟨by decide +kernel, by decide +kernel, by decide +kernel, by decide +kernel, fun i h => ?_, by decide +kernel⟩, by decide +kernel, by decide +kernel,
    by decide +kernel, ⟨by decide +kernel, ⟨rfl, rfl⟩, by decide +kernel, by decide +kernel, rowReady_of (by decide +kernel), by decide +kernel,
      by decide +kernel, rowReady_of (by decide +kernel), by decide +kernel⟩⟩
  obtain rfl : i = 0 := by omega
  exact rowReady_of (by decide +kernel)

/-- The machine with two descriptors of 64 bytes at 0x10000 and 0x10040, and others that are bad. -/
def copyBoard (c : Ctx := hart) : State :=
  ((board (regs [(1, 0x10000), (2, 0x10040), (3, 0x10080)] c)).poke 0x10000 (desc 0x40000 64)).poke 0x10040 (desc 0x50000 64)

/-- Copies: ctwait of no tag, of dead tags, of complete ones and of a busy one; ctfind; copy accepted, of a busy tag, and with a bad descriptor on
either side. -/
theorem witness_Copies :
    (let s := board (regs [(2, 0x10), (5, 0x18)] { waiting with ctb := 8 })
     ready (.ctwait (F 3 3 1 0)) s = true ∧ s.reg 1 = 0 ∧ ready (.ctwait (F 3 3 4 0 1)) (board (regs [(4, 0x100)])) = true ∧
       (board (regs [(4, 0x100)])).cur.busyTag 8 = false ∧ (board (regs [(4, 0x100)])).cur.ctb.getLsbD 8 = false ∧
       ready (.ctwait (F 3 3 5 0 2)) s = true ∧ s.cur.ctb &&& s.reg 5 ≠ 0 ∧ s.cur.busyTag 4 = true ∧ s.cur.ctb.getLsbD 3 = true ∧
       ready (.ctwait (F 3 3 2 0 1)) s = true ∧ s.cur.ctb &&& s.reg 2 = 0 ∧
       ready (.ctfind (F 3 3 2 0)) s = true ∧ ready (.ctfind (F 3 3 5 0 2)) s = true ∧ (s.cur.ctb &&& s.reg 5).getLsbD 3 = true ∧
       ∀ j < 3, (s.cur.ctb &&& s.reg 5).getLsbD j = false) ∧
    (∀ c ∈ [hart, { hart with transfers := [transferOf 5 (.traverse true { tower := 0, bank := 0, group := 0, len := 1 } 1 0)] }],
      let s := copyBoard c
      let f := F 3 2 1 0 (5 + 2 ^ 9 + 2 ^ 10)
      ∃ dst u src v, s.ReadsRecord (s.reg 2) dst u ∧ u.ReadsRecord (s.reg 1) src v ∧ ready (.copy f) s = true ∧ s.reg f.b = 0 ∧ v.NoReplay ∧
        (v.cur.run = .running ∧ v.cur.busyTag 5 = !c.transfers.isEmpty ∧ descFault dst = none ∧ descFault src = none ∧ dEsize src = dEsize dst ∧
          dCount src = dCount dst ∧ chunkClamp v.cur.lclass = none ∧ chunkCount src = 1 ∧ boundsFault src = none ∧ boundsFault dst = none ∧
          overlapFault src dst true = false ∧ v.outstanding v.cur.place < 2048)) ∧
    (∃ dst u src v, copyBoard.ReadsRecord (copyBoard.reg 3) dst u ∧ u.ReadsRecord (copyBoard.reg 1) src v ∧ descFault dst = some 49 ∧ descFault src = none) ∧
    (∃ dst u src v, copyBoard.ReadsRecord (copyBoard.reg 1) dst u ∧ u.ReadsRecord (copyBoard.reg 3) src v ∧ descFault dst = none ∧ descFault src = some 49) := by
  have two : ∀ {s : State} {a b : Word} {p : List Byte → State → List Byte → State → Bool},
      has (readsRecord s a) (fun x => has (readsRecord x.2 b) (fun y => p x.1 x.2 y.1 y.2)) = true →
      ∃ dst u src v, s.ReadsRecord a dst u ∧ u.ReadsRecord b src v ∧ p dst u src v = true := by
    intro s a b p h
    obtain ⟨⟨dst, u⟩, hx, h⟩ := has_elim h
    obtain ⟨⟨src, v⟩, hy, h⟩ := has_elim h
    exact ⟨dst, u, src, v, readsRecord_of hx, readsRecord_of hy, h⟩
  refine ⟨by decide +kernel, fun c hc => ?_, ?_, ?_⟩
  · have h : ∀ c ∈ [hart, { hart with transfers := [transferOf 5 (.traverse true { tower := 0, bank := 0, group := 0, len := 1 } 1 0)] }],
        ready (.copy (F 3 2 1 0 (5 + 2 ^ 9 + 2 ^ 10))) (copyBoard c) = true ∧ (copyBoard c).reg 0 = 0 ∧
        has (readsRecord (copyBoard c) ((copyBoard c).reg 2)) (fun x => has (readsRecord x.2 ((copyBoard c).reg 1)) (fun y => noReplay y.2 &&
          decide (y.2.cur.run = .running ∧ y.2.cur.busyTag 5 = !c.transfers.isEmpty ∧ descFault x.1 = none ∧ descFault y.1 = none ∧ dEsize y.1 = dEsize x.1 ∧
            dCount y.1 = dCount x.1 ∧ chunkClamp y.2.cur.lclass = none ∧ chunkCount y.1 = 1 ∧ boundsFault y.1 = none ∧ boundsFault x.1 = none ∧
            overlapFault y.1 x.1 true = false ∧ y.2.outstanding y.2.cur.place < 2048))) = true := by decide +kernel
    obtain ⟨dst, u, src, v, h1, h2, h3⟩ := two (s := copyBoard c) (a := (copyBoard c).reg 2) (b := (copyBoard c).reg 1)
      (p := fun dst _ src v => noReplay v && decide (v.cur.run = .running ∧ v.cur.busyTag 5 = !c.transfers.isEmpty ∧ descFault dst = none ∧
        descFault src = none ∧ dEsize src = dEsize dst ∧ dCount src = dCount dst ∧ chunkClamp v.cur.lclass = none ∧ chunkCount src = 1 ∧
        boundsFault src = none ∧ boundsFault dst = none ∧ overlapFault src dst true = false ∧ v.outstanding v.cur.place < 2048)) (h c hc).2.2
    simp only [Bool.and_eq_true, decide_eq_true_eq] at h3
    exact ⟨dst, u, src, v, h1, h2, (h c hc).1, (h c hc).2.1, noReplay_of h3.1, h3.2⟩
  · obtain ⟨dst, u, src, v, h1, h2, h3⟩ := two (s := copyBoard) (a := copyBoard.reg 3) (b := copyBoard.reg 1)
      (p := fun dst _ src _ => decide (descFault dst = some 49 ∧ descFault src = none)) (by decide +kernel)
    exact ⟨dst, u, src, v, h1, h2, (of_decide_eq_true h3).1, (of_decide_eq_true h3).2⟩
  · obtain ⟨dst, u, src, v, h1, h2, h3⟩ := two (s := copyBoard) (a := copyBoard.reg 1) (b := copyBoard.reg 3)
      (p := fun dst _ src _ => decide (descFault dst = none ∧ descFault src = some 49)) (by decide +kernel)
    exact ⟨dst, u, src, v, h1, h2, (of_decide_eq_true h3).1, (of_decide_eq_true h3).2⟩

/-- GatherScatter: two elements at offsets 0x40 and 0x44 from sB, of which the second is masked; a misaligned first address. -/
theorem witness_GatherScatter :
    let s := fill32 1 [0x40, 0x44] (openAll (regs [(2, 0x10000), (6, 0x10001)] { hart with vl := 2 }))
    let u := s.readMaskRun [(0, 0)] 1
    (ready (.vgld (F 1 32 33 2 0)) s = true ∧ VecReady { packed := false, rows := [(32, 1, true), (33, 1, false)], masks := [(0, 0)] } s 0 ∧
      (F 1 32 33 2 0).sub 0 1 = 0 ∧ rowField 33 + 1 ≤ 16 ∧ ∃ vs t, GathersAll 4 u [0x10040, 0x10044] vs t ∧ t.NoTransfers ∧ (t.homeGroup 0).dset = true) ∧
    (ready (.vgst (F 1 32 33 2 0)) s = true ∧ VecReady { packed := false, rows := [(32, 1, false), (33, 1, false)], masks := [(0, 0)] } s 0 ∧
      ∃ pas t, ScattersAll 4 u [(0x10040, 7), (0x10044, 9)] pas t) ∧
    (ready (.vgld (F 1 32 33 6 0)) s = true ∧ ready (.vgst (F 1 32 33 6 0)) s = true ∧
      (s.reg 6 + BitVec.ofInt 64 (sextN (u.elem 1 0 32) 32)).toNat % 4 ≠ 0 ∧ s.reg 2 + BitVec.ofInt 64 (sextN (u.elem 1 0 32) 32) = 0x10040 ∧
      s.reg 2 + BitVec.ofInt 64 (sextN (u.elem 1 1 32) 32) = 0x10044) := by
  intro s u
  refine ⟨⟨by decide +kernel, vecReady_of (by decide +kernel), by decide +kernel, by decide +kernel, ?_⟩,
    ⟨by decide +kernel, vecReady_of (by decide +kernel), ?_⟩, by decide +kernel⟩
  · obtain ⟨⟨vs, t⟩, h, k⟩ := has_elim (o := gathersAll 4 u [0x10040, 0x10044]) (p := fun x => noTransfers x.2 && (x.2.homeGroup 0).dset) (by decide +kernel)
    simp only [Bool.and_eq_true] at k
    exact ⟨vs, t, gathersAll_of h, noTransfers_of k.1, k.2⟩
  · obtain ⟨⟨pas, t⟩, h, _⟩ := has_elim (o := scattersAll 4 u [(0x10040, 7), (0x10044, 9)]) (p := fun _ => true) (by decide +kernel)
    exact ⟨pas, t, scattersAll_of h⟩

/-- RemoteAccepted: every operation, misaligned, to a device out of reach and past the last device number, under a busy tag, and accepted: with the
owner's incarnation known, unknown, and unknown with a probe under way. -/
theorem witness_RemoteAccepted :
    let c := regs [(1, 0x100), (2, 5), (5, 99), (6, 0x2000), (7, 0x101)] hart
    let up := fun (s : State) => ({ s with efpo := { s.efpo with links := 1 } } : State)
    let ops := fun (a e : Nat) => [Instr.radd (F 3 3 a 2 (e + 4 * 32 + 3 * 2 ^ 11)), .rswap (F 3 3 a 2 (e + 4 * 32 + 3 * 2 ^ 11)),
      .rcas (F 3 3 a 2 (e + 4 * 32 + 3 * 2 ^ 11)), .rmax (F 3 3 a 2 (e + 4 * 32 + 3 * 2 ^ 11 + 2 ^ 13)), .rpush (F 3 3 a 2 (e + 4 * 32 + 3 * 2 ^ 11)),
      .rget (F 3 3 a 0 (e + 4 * 32 + 3 * 2 ^ 11)), .rput (F 3 0 a 2 (e + 4 * 32 + 3 * 2 ^ 11))]
    let s := board c
    (s.NoReplay ∧ s.cur.run = .running) ∧
    (∀ i ∈ ops 7 5, ready i s = true) ∧ (s.reg 7).toNat % 8 ≠ 0 ∧
    (∀ i ∈ ops 1 5 ++ ops 1 6, ready i s = true) ∧ (s.reg 1).toNat % 8 = 0 ∧ s.routed 99 = false ∧ 2 ^ 13 ≤ (s.reg 6).toNat ∧
    (let b := up (board (regs [(1, 0x100), (2, 5), (5, 99)] waiting))
     b.NoReplay ∧ b.routed 99 = true ∧ b.cur.busyTag 4 = true ∧ ∀ i ∈ ops 1 5, ready i b = true) ∧
    ((up s).NoReplay ∧ (up s).routed 99 = true ∧ (s.reg 5).toNat < 2 ^ 13 ∧ (up s).cur.busyTag 4 = false ∧ (up s).outstanding s.cur.place < 2048 ∧
      (∀ i ∈ ops 1 5, ready i (up s) = true) ∧ (up s).hub.incarnations.find 99 = none ∧ (up s).hub.probes.any (fun x => x.1 == 99) = false ∧
      (s.setHub (fun h => { h with incarnations := [(99, 4)] })).hub.incarnations.find 99 = some 4 ∧
      (s.setHub (fun h => { h with probes := [(99, 1, 0, 0, 7)] })).hub.probes.any (fun x => x.1 == 99) = true) ∧
    (s.routed s.devId = true ∧ s.devId < 2 ^ 13) := by
  exact ⟨⟨noReplay_of (by decide +kernel), rfl⟩, by decide +kernel, by decide +kernel, by decide +kernel, by decide +kernel, by decide +kernel,
    by decide +kernel, ⟨noReplay_of (by decide +kernel), by decide +kernel⟩, ⟨noReplay_of (by decide +kernel), by decide +kernel⟩, by decide +kernel⟩

/-- FencesAndRsync: each fence, at scope .s and .d; rsync with nothing and with an operation outstanding. -/
theorem witness_FencesAndRsync :
    (∀ i ∈ [Instr.fenceFull (F 3 0 0 0 0), .fenceFull (F 3 0 0 0 (3 * 8)), .fenceRel (F 3 0 0 0 (4 * 8 + 2)), .fenceAcq (F 3 0 0 0 1), .fenceSv (F 3 0 0 0 3),
      .fenceVs (F 3 0 0 0 4), .fenceRow (F 3 0 0 0 5), .rsync (F 3 0 0 0)], ready i board = true) ∧
    board.cur.transfers = [] ∧ board.cur.beacons = [] ∧ ready (.rsync (F 3 0 0 0)) (board waiting) = true ∧
    waiting.transfers.any (fun t => !t.failed && (match t.work with
      | .remote _ _ _ _ _ _ _ _ => true
      | _ => false)) = true := by decide +kernel

/-- Atomics: a misaligned address, device memory, a poisoned granule, sound memory, for each operation. -/
theorem witness_Atomics :
    (∀ op < 10, ready (.amo (F 3 3 1 2 (op * 2 ^ 23 + 3 * 2 ^ 21))) board = true ∧ (F 3 3 1 2 (op * 2 ^ 23 + 3 * 2 ^ 21)).sub 23 4 = op) ∧
    (0x10001 : Word).toNat % 8 ≠ 0 ∧ (∃ leaf t, board.translate 0xC000_0000 .readWrite = .ok (leaf, t) ∧ leaf.mt = mtDev) ∧
    (∃ leaf t u, PlainAccess ({ board with poison := [0x800] } : State) 0x10000 8 .readWrite leaf t u ∧ poisoned u.poison leaf.pa 8 = true) ∧
    board.MemInv ∧ (∃ leaf t u, PlainAccess board 0x10000 8 .readWrite leaf t u ∧ soundAt u leaf 8 = true) := by
  refine ⟨by decide +kernel, by decide +kernel, ?_, plain_witness (p := fun l _ u => poisoned u.poison l.pa 8) (by decide +kernel),
    by unfold State.MemInv; decide +kernel, plain_witness (p := fun l _ u => soundAt u l 8) (by decide +kernel)⟩
  obtain ⟨⟨l, t⟩, h, k⟩ := ok_elim (o := board.translate 0xC000_0000 .readWrite) (p := fun x => x.1.mt = mtDev) (by decide +kernel)
  exact ⟨l, t, h, of_decide_eq_true k⟩

/-- VersionedLines: misaligned; a full validation set; memory without versions; a load and a casv of the version region; valid with and without a
changed version. -/
theorem witness_VersionedLines :
    let full := ({ hart with vset := List.replicate 8 (0x100_0000, 0x8000_0000, 0) } : Ctx)
    (ready (.ldv (F 3 3 1 4 (2 ^ 27))) board = true ∧ ready (.casv (F 3 3 1 2)) (board (regs [(1, 0x8000_0000)])) = true ∧ (0x8000_0001 : Word).toNat % 8 ≠ 0) ∧
    (ready (.ldv (F 3 3 1 4 (2 ^ 27))) (board full) = true ∧ (F 3 3 1 4 (2 ^ 27)).sub 27 1 = 1 ∧ full.vset.length = 8) ∧
    (∃ leaf t, board.translate 0x10000 .read = .ok (leaf, t) ∧ leaf.ver = false) ∧
    (∃ leaf t u, board.translate 0x8000_0000 .read = .ok (leaf, t) ∧ leaf.mt = mtCached ∧ leaf.ver = true ∧ PlainAccess t 0x8000_0000 8 .read leaf u u ∧
      soundAt u leaf 8 = true) ∧
    (∃ leaf u, PlainAccess board 0x8000_0000 8 .readWrite leaf u u ∧ leaf.mt = mtCached ∧ leaf.ver = true ∧ poisoned u.poison leaf.pa 8 = false) ∧ board.MemInv ∧
    (ready (.valid (F 0 3 0 0)) (board full) = true ∧ versionOf ({ board full with versions := [(0x8000_0000, 7)] } : State).versions 0x8000_0000 ≠ 0 ∧
      versionOf (board full).versions 0x8000_0000 = 0) := by
  intro full
  refine ⟨by decide +kernel, by decide +kernel, ?_, ?_, ?_, by unfold State.MemInv; decide +kernel, by decide +kernel⟩
  · obtain ⟨⟨l, t⟩, h, k⟩ := ok_elim (o := board.translate 0x10000 .read) (p := fun x => !x.1.ver) (by decide +kernel)
    exact ⟨l, t, h, by simpa using k⟩
  · obtain ⟨⟨l, t⟩, h, k⟩ := ok_elim (o := board.translate 0x8000_0000 .read)
      (p := fun x => plainWith x.2 0x8000_0000 8 .read (fun l _ u => l = x.1 && decide (l.mt = mtCached) && l.ver && soundAt u l 8)) (by decide +kernel)
    obtain ⟨l', t', u, hp, k⟩ := plain_witness k
    simp only [Bool.and_eq_true, decide_eq_true_eq] at k
    obtain ⟨⟨⟨rfl, k2⟩, k3⟩, k5⟩ := k
    obtain rfl := plain_cached hp k2
    exact ⟨_, t, _, h, k2, k3, hp, k5⟩
  · obtain ⟨l, t, u, hp, k⟩ := plain_witness (s := board) (va := 0x8000_0000) (n := 8) (acc := .readWrite)
      (p := fun l _ u => decide (l.mt = mtCached) && l.ver && !poisoned u.poison l.pa 8) (by decide +kernel)
    simp only [Bool.and_eq_true, decide_eq_true_eq, Bool.not_eq_true'] at k
    obtain ⟨⟨k2, k3⟩, k5⟩ := k
    obtain rfl := plain_cached hp k2
    exact ⟨l, _, hp, k2, k3, k5⟩

/-- Semaphores: off a tower; a clear and a set bit with room and no cycle; a bit nobody waits for, and one with a waiter. -/
theorem witness_Semaphores :
    let waiter : Ctx := { hart with reqid := 0x60065, blocked := true,
                                    wait := some { kind := .semt, obj := semObj 0 63, tracked := true, since := 0, woken := false, gen := 0 } }
    let taken := board.setTower 0 (fun w => { w with sem := 1 <<< 63 })
    let s := { taken with others := [Ctx.cairn, waiter] }
    (∀ i ∈ [Instr.semt (F 2 0 0 0 63), .semc (F 2 0 0 0 63), .semq (F 2 3 0 0 63)], ready i State.reset = true ∧ ready i board = true ∧ ready i taken = true ∧
      ready i s = true) ∧ State.reset.cur.kind ≠ .tower ∧ board.cur.kind = .tower ∧ (board.cur.wait = none ∧ board.cur.handed = none) ∧ (board.tower 0).sem.getLsbD 63 = false ∧
    ((board.holders (semObj 0 63)).length < 8 ∧ board.objectRoom (semObj 0 63) = true) ∧
    ((taken.tower 0).sem.getLsbD 63 = true ∧ taken.cur.strict = false ∧ taken.cycleFrom taken.cur.reqid (semObj 0 63) 16 = none) ∧
    (∀ c ∈ board.live, c.waitsOn .semt (semObj 0 63) = false) ∧ ((s.tower 0).sem.getLsbD 63 = true ∧
      ∃ c ∈ s.live, c.waitsOn .semt (semObj 0 63) = true) := by
  refine ⟨?_, ?_, ?_, ?_, ?_, ?_, ?_, ?_, ?_, _, List.mem_cons_of_mem _ (List.mem_cons_of_mem _ (List.mem_singleton.2 rfl)), ?_⟩ <;> decide +kernel

/-- Barriers: barrier 7 of the tower, unused and in use by the same and by another count, with its last and with an earlier arrival; waits; a device
barrier. -/
theorem witness_Barriers :
    let f := F 2 3 0 0 (2 * 2 ^ 20 + 7)
    let used := fun (n a : Nat) => board.setTower 0 (fun w => { w with bars := w.bars.set 7 { count := n, arr := a, gen := 5 } })
    let d : DeviceBarrier := { id := 0x1000, scope := 3, stack := 0, count := 4, arr := 0, gen := 0, job := 0, creator := 0 }
    let s := board.setHub (fun h => { h with barriers := [d] })
    (f.sub 0 20 = 7 ∧ f.sub 20 5 = 2 ∧ ready (.bara f) board = true ∧ ready (.barad f) board = true ∧ ((board.tower 0).bar 7).count = 0 ∧
      (((used 2 1).tower 0).bar 7).count = 2 ∧ (((used 2 1).tower 0).bar 7).arr + 1 = 2 ∧ (((used 3 1).tower 0).bar 7).count ≠ 2 ∧
      (((used 3 1).tower 0).bar 7).count ≠ 0 ∧ board.cur.wait = none ∧ board.cur.barad = [] ∧ board.cur.strict = false ∧ board.cur.kind = .tower ∧
      board.cycleFrom board.cur.reqid { cls := 1, key := 7 } 16 = none) ∧
    (ready (.barw (F 2 0 0 1 7)) (used 2 1) = true ∧ (((used 2 1).tower 0).bar 7).gen ≠ ((used 2 1).reg 1).extractLsb' 0 32 ∧
      ((board.tower 0).bar 7).gen = (board.reg 1).extractLsb' 0 32) ∧
    (ready (.bara (F 2 3 0 0 (2 ^ 18 + 0x1000))) s = true ∧ (F 2 3 0 0 (2 ^ 18 + 0x1000)).sub 0 20 = 2 ^ 18 + 0x1000 ∧
      s.hub.barriers.find? (fun b => b.id == 0x1000) = some d ∧ d.job = jobOf s.cur.launch ∧ d.scope ≠ 2) := by decide +kernel

/-- LockAndQueueWaits: misaligned words; a free and a held lock; a queue with an entry and an empty one. -/
theorem witness_LockAndQueueWaits :
    let c := regs [(1, 0x10000)]
    let s := board c
    let held := s.poke 0x10000 (leBytes (2 ^ 63 + 5) 8)
    let queue := fun (tail : Nat) => s.poke 0x10000 (leBytes 0 8 ++ leBytes tail 8 ++ leBytes 4 1)
    (s.NoReplay ∧ held.NoReplay ∧ (queue 1).NoReplay ∧ s.cur.replay = [] ∧ s.MemInv ∧ s.cur.wait = none ∧ s.cur.strict = false ∧ s.cur.reqid < 2 ^ 29) ∧
    (ready (.lkw (F 3 0 1 0)) s = true ∧ ready (.qwait (F 3 3 1 0)) s = true ∧ ready (.qwait (F 3 3 1 0 (2 ^ 22))) s = true ∧
      (s.reg 1 + BitVec.ofInt 64 ((F 3 0 1 0 1).imm.extractLsb' 0 22).toInt).toNat % 8 ≠ 0 ∧
      (s.reg 1 + BitVec.ofInt 64 ((F 3 3 1 0 32).imm.extractLsb' 0 22).toInt).toNat % 64 ≠ 0) ∧
    (∃ leaf t, PlainAccess s 0x10000 8 .readWrite leaf t t ∧ (soundAt t leaf 8 && !leaf.chk && decide (leaf.mt = mtCached) &&
      !bitAt (t.num leaf.pa 8) 63 && decide ((t.holders { cls := 3, key := leaf.pa }).length < 8) && t.objectRoom { cls := 3, key := leaf.pa }) = true) ∧
    (∃ leaf t, PlainAccess held 0x10000 8 .readWrite leaf t t ∧ (soundAt t leaf 8 && !leaf.chk && bitAt (t.num leaf.pa 8) 63 &&
      ((((held.afterTest 0x10000).adoptHolder leaf.pa (t.num leaf.pa 8)).cycleFrom held.cur.reqid { cls := 3, key := leaf.pa } 16).isNone)) = true) ∧
    (∀ n ∈ [1, 0], ∃ leaf t u, PlainAccess (queue n) 0x10000 64 .read leaf t u ∧ (soundAt u leaf 64 && !leaf.chk && headerOk leaf.pa (u.bytes leaf.pa 64) &&
      decide (u.num (leaf.pa + 8) 8 = n) && (((u.noteUse leaf.pa leaf.mt).orderNear leaf 64).cycleFrom (queue n).cur.reqid { cls := 4, key := leaf.pa } 16).isNone) = true) := by
  intro c s held queue
  have same : ∀ {s : State} {va : Word} {n : Nat} {acc : AccKindT} {p : Leaf → State → Bool},
      plainWith s va n acc (fun l _ u => decide (l.mt = mtCached) && p l u) = true → ∃ leaf t, PlainAccess s va n acc leaf t t ∧ p leaf t = true := by
    intro s va n acc p h
    obtain ⟨l, t, u, hp, k⟩ := plain_witness h
    simp only [Bool.and_eq_true, decide_eq_true_eq] at k
    obtain rfl := plain_cached hp k.1
    exact ⟨l, _, hp, k.2⟩
  refine ⟨⟨noReplay_of (by decide +kernel), noReplay_of (by decide +kernel), noReplay_of (by decide +kernel), rfl, by unfold State.MemInv; decide +kernel, rfl, rfl,
    by decide +kernel⟩, by decide +kernel,
    same (p := fun leaf t => soundAt t leaf 8 && !leaf.chk && decide (leaf.mt = mtCached) && !bitAt (t.num leaf.pa 8) 63 &&
      decide ((t.holders { cls := 3, key := leaf.pa }).length < 8) && t.objectRoom { cls := 3, key := leaf.pa }) (by decide +kernel),
    same (p := fun leaf t => soundAt t leaf 8 && !leaf.chk && bitAt (t.num leaf.pa 8) 63 &&
      ((((held.afterTest 0x10000).adoptHolder leaf.pa (t.num leaf.pa 8)).cycleFrom held.cur.reqid { cls := 3, key := leaf.pa } 16).isNone)) (by decide +kernel), fun n hn => ?_⟩
  have h : ∀ n ∈ [1, 0], plainWith (queue n) 0x10000 64 .read (fun leaf _ u => soundAt u leaf 64 && !leaf.chk && headerOk leaf.pa (u.bytes leaf.pa 64) &&
      decide (u.num (leaf.pa + 8) 8 = n) && (((u.noteUse leaf.pa leaf.mt).orderNear leaf 64).cycleFrom (queue n).cur.reqid { cls := 4, key := leaf.pa } 16).isNone) = true := by decide +kernel
  exact plain_witness (h n hn)

/-- A hart that waits for semaphore 63 of tower 0 by wreg. -/
def waiter : Ctx := { hart with wait := some { kind := .wreg, obj := { cls := 0, key := 63 }, tracked := true, since := 0, woken := false, gen := 0 } }

/-- A board on which `n` other harts wait. -/
def crowd (n : Nat) : State := { board with others := List.replicate n waiter }

theorem crowd_entries (n : Nat) : (crowd n).waitEntries = n := by
  have live : (crowd n).live = hart :: List.replicate n waiter := by
    show (hart :: List.replicate n waiter).filter _ = _
    simp [hart, waiter]
  unfold State.waitEntries
  rw [live]
  simp [hart, Ctx.blank, waiter]

/-- A board on which 16,384 other harts wait. -/
def crowded : State := crowd 16384

theorem crowded_full : ¬crowded.waitEntries < 16384 := by
  rw [crowded, crowd_entries]
  decide

/-- DeclaredHolds: each way of naming an object and each bad value; held, free and without room; a wait that has an entry and one that has none;
wdone with and without one. -/
theorem witness_DeclaredHolds :
    let d : DeviceBarrier := { id := 0x1000, scope := 3, stack := 0, count := 4, arr := 0, gen := 0, job := 0, creator := 0 }
    let s := (board (regs [(1, 63), (2, 7), (3, 0x1000), (4, 0x10000), (5, 64), (6, 2 ^ 18)])).setHub (fun h => { h with barriers := [d] })
    let w : WaitEntry := { kind := .wreg, obj := { cls := 0, key := 63 }, tracked := true, since := 0, woken := false, gen := 0 }
    let busy := { s with cur := { s.cur with wait := some w } }
    let o : ObjKey := { cls := 0, key := 63 }
    (∀ p ∈ [(0, 1), (1, 2), (2, 3), (5, 0), (3, 4), (4, 4), (6, 4)], ∀ i ∈ [Instr.whold (F 3 0 p.2 0 p.1), .wrel (F 3 0 p.2 0 p.1), .wreg (F 3 0 p.2 0 p.1)],
      ready i s = true ∧ ready i busy = true) ∧
    ((s.reg 1).toNat < 64 ∧ (s.reg 2).toNat < 8 ∧ 0x1000 ≤ (s.reg 3).toNat ∧ (s.reg 3).toNat < 2 ^ 18 ∧
      s.hub.barriers.find? (fun b => b.id == (s.reg 3).toNat) = some d ∧ d.job = jobOf s.cur.launch ∧ d.scope ≠ 2 ∧ s.reg 0 = 0 ∧ (s.reg 4).toNat % 8 = 0 ∧
      ∃ leaf t, s.translate (s.reg 4) .read = .ok (leaf, t)) ∧
    (∀ p ∈ [(0, 5), (1, 5), (2, 6), (5, 1), (3, 1)], ∀ i ∈ [Instr.whold (F 3 0 p.2 0 p.1), .wrel (F 3 0 p.2 0 p.1), .wreg (F 3 0 p.2 0 p.1)], ready i s = true) ∧
    (64 ≤ (s.reg 5).toNat ∧ 8 ≤ (s.reg 5).toNat ∧ 2 ^ 18 ≤ (s.reg 6).toNat ∧ s.reg 1 ≠ 0 ∧ (s.reg 1).toNat % 8 ≠ 0) ∧
    ((s.holders o).contains s.cur.reqid = false ∧ ((s.addHold o s.cur.reqid).holders o).contains s.cur.reqid = true ∧ (s.holders o).length < 8 ∧
      s.objectRoom o = true ∧ s.cycleFrom s.cur.reqid o 16 = none ∧ s.cur.wait = none ∧ s.waitEntries < 16384 ∧ busy.cur.wait = some w ∧ w.tracked = true) ∧
    (let full := s.setHub (fun h => { h with holds := [{ obj := o, holders := [1, 2, 3, 4, 5, 6, 7, 8], declared := [] }] })
     ¬((full.holders o).length < 8 ∧ full.objectRoom o = true) ∧ (full.holders o).contains full.cur.reqid = false ∧ ready (.whold (F 3 0 1 0 0)) full = true) ∧
    (crowded.cur.wait = none ∧ ¬(crowded.waitEntries < 16384 ∧ crowded.objectRoom o = true) ∧ ready (.wreg (F 3 0 1 0 0)) crowded = true ∧
      ∀ x, ({ hart with wait := some { w with tracked := false } } : Ctx).wait = some x → x.tracked = false) ∧
    (ready (.wdone (F 3 0 0 0)) s = true ∧ ready (.wdone (F 3 0 0 0)) busy = true) := by
  intro d s w busy o
  have named : (s.reg 1).toNat < 64 ∧ (s.reg 2).toNat < 8 ∧ 0x1000 ≤ (s.reg 3).toNat ∧ (s.reg 3).toNat < 2 ^ 18 ∧
      s.hub.barriers.find? (fun b => b.id == (s.reg 3).toNat) = some d ∧ d.job = jobOf s.cur.launch ∧ d.scope ≠ 2 ∧ s.reg 0 = 0 ∧ (s.reg 4).toNat % 8 = 0 := by
    decide +kernel
  obtain ⟨n1, n2, n3, n4, n5, n6, n7, n8, n9⟩ := named
  refine ⟨by decide +kernel, ⟨n1, n2, n3, n4, n5, n6, n7, n8, n9, ?_⟩, by decide +kernel, by decide +kernel, by decide +kernel, by decide +kernel,
    ⟨rfl, fun h => crowded_full h.1, by decide +kernel, fun x hx => by cases hx; rfl⟩, by decide +kernel⟩
  obtain ⟨⟨l, t⟩, h, _⟩ := ok_elim (o := s.translate (s.reg 4) .read) (p := fun _ => true) (by decide +kernel)
  exact ⟨l, t, h⟩

/-- TrapsAndReturns: a hart at trap level 0 and 1 with a CACHED record; a record in a group that holds another row; a handler and return addresses that are
no multiple of 8; Cairn with ML 0 and 1; trap; rett in user mode, without a trap, and with one, on a hart and on Cairn. -/
theorem witness_TrapsAndReturns :
    let up := board { hart with tl := true }
    let inside := { cairnBoard with mgmt := { cairnBoard.mgmt with ml := true } }
    let rowed := openRow (groupOf 0xA000) 2 (board { hart with trec := 0x4000_A000 })
    let odd := board { hart with tvec := 0x9001 }
    (board.cur.kind ≠ .cairn ∧ board.NoReplay ∧ board.cur.ending = none ∧ board.recordWait = none ∧ board.cur.tvec.toNat % 8 = 0 ∧ up.cur.tl = true ∧
      up.NoReplay ∧ up.cur.ending = none ∧ up.recordWait = none ∧ board.MemInv ∧
      ∃ leaf u, ((board.noteFault 0x40 0x5000).setCur (fun c => { c with sup := true })).translate board.cur.trec .write = .ok (leaf, u) ∧ leaf.mt = mtCached ∧
        u.unpublished board.cur.reqid leaf 256 = false ∧ inSideTable leaf.pa 256 = false ∧ leaf.pa + 256 ≤ dramEnd) ∧
    (rowed.cur.kind ≠ .cairn ∧ rowed.NoReplay ∧ ∃ k, rowed.recordWait = some k) ∧
    (odd.cur.kind ≠ .cairn ∧ odd.NoReplay ∧ odd.cur.ending = none ∧ odd.recordWait = none ∧ odd.cur.tvec.toNat % 8 ≠ 0) ∧
    (cairnBoard.cur.kind = .cairn ∧ cairnBoard.mgmt.ml = false ∧ inside.mgmt.ml = true ∧ inside.mgmt.mepc.toNat % 8 = 0 ∧ up.cur.tpc.toNat % 8 = 0) ∧
    ready (.trap (F 2 0 5 0 15)) board = true ∧
    (∀ s ∈ [board { hart with sup := false }, board, up, cairnBoard, inside, board { hart with tl := true, tpc := 0x8001 }],
      ready (.rett (F 3 0 0 0)) s = true) := by
  intro up inside rowed odd
  have calm : board.cur.kind ≠ .cairn ∧ board.cur.ending = none ∧ board.recordWait = none ∧ board.cur.tvec.toNat % 8 = 0 ∧ up.recordWait = none := by
    decide +kernel
  refine ⟨⟨calm.1, noReplay_of (by decide +kernel), calm.2.1, calm.2.2.1, calm.2.2.2.1, rfl, noReplay_of (by decide +kernel), rfl, calm.2.2.2.2,
    by unfold State.MemInv; decide +kernel, ?_⟩, ⟨by decide +kernel, noReplay_of (by decide +kernel), ?_⟩,
    ⟨by decide +kernel, noReplay_of (by decide +kernel), by decide +kernel⟩, by decide +kernel⟩
  · obtain ⟨⟨l, t⟩, h, k⟩ := ok_elim (o := ((board.noteFault 0x40 0x5000).setCur (fun c => { c with sup := true })).translate board.cur.trec .write)
      (p := fun x => decide (x.1.mt = mtCached ∧ x.2.unpublished board.cur.reqid x.1 256 = false ∧ inSideTable x.1.pa 256 = false ∧
        x.1.pa + 256 ≤ dramEnd)) (by decide +kernel)
    exact ⟨l, t, h, of_decide_eq_true k⟩
  · obtain ⟨k, h, _⟩ := has_elim (o := rowed.recordWait) (p := fun _ => true) (by decide +kernel)
    exact ⟨k, h⟩

/-- A launch of one hart on tower 0, numbered as the hart's. -/
def launch77 : Launch :=
  { id := 0x77, record := List.replicate 64 0 ++ [1] ++ List.replicate 447 0, phase := 1, bits := 0, cause := 0, exit := 0, causeAt := 0, exitAt := 0, harts := 2, ended := 0, replays := 0,
    replaying := false, lostLog := false, logs := [], tvec := 0, tscratch := 0, strict := false, facc := Vector.replicate 4 0 }

/-- The machine with that launch admitted. -/
def launched (c : Ctx := hart) : State := (board c).setHub (fun h => { h with launches := h.launches ++ [launch77] })

/-- PreemptNotice: a write of PREQ by each instruction; a PREEMPT of entry 100, with a target its launch lists; a context that must yield. -/
theorem witness_PreemptNotice :
    (crNumber (F 2 3 1 0 0x31) = 0x31 ∧ (∀ i ∈ [Instr.crw (F 2 3 1 0 0x31), .crs (F 2 3 1 0 0x31), .crc (F 2 3 1 0 0x31)], ready i board = true) ∧
      board.cur.kind ≠ .cairn ∧ board.cur.sup = true ∧ board.cur.preq = false ∧ (F 2 3 1 0 0x31).a ≠ 0) ∧
    (let s := withInput (.write 100 0x5000) launched
     s.entryCtx (s.input.n1 % 32768) = some hart ∧ s.ctx? hart.reqid = some hart ∧ s.launchOf hart = some launch77 ∧
       launch77.hasTower ((s.input.word.extractLsb' 32 10).toNat) = true ∧ (s.input.word.extractLsb' 32 10).toNat < 512 ∧ hart.npr = none ∧
       launch77.hasTower (((withInput (.write 100 (9 * 2 ^ 32)) launched).input.word.extractLsb' 32 10).toNat) = false) ∧
    (let s := { withInput (.nums 0x60064 0 0) board with others := [Ctx.cairn, { hart with reqid := 0x60065, entry := 101, run := .ready, prio := 7 }] }
     s.ctx? s.input.n1 = some hart ∧ hart.run = .running ∧ hart.kind ≠ .cairn ∧ s.mustYield hart = true) := by
  exact ⟨by decide +kernel, ⟨rfl, rfl, rfl, by decide +kernel⟩, rfl, rfl, by decide +kernel⟩

/-- WaitsAndRegions: wfi on Cairn, with and without a trap due; yield, nprb and npre inside and outside a region; gpred and gjoin without a gang, with
room, full and empty; tlbi in both modes. -/
theorem witness_WaitsAndRegions :
    let due := board { hart with pend := [{ code := 0x14B, tval := 0, extra := 0 }] }
    let region := board { hart with npr := some 0 }
    let gang := fun (st : List Bool) => ({ index := 0, count := 1, active := true, stack := st, done := none, kept := none } : Gang)
    let inGang := fun (st : List Bool) => board { hart with gang := some (gang st) }
    (ready (.wfi (F 3 0 0 0)) cairnBoard = true ∧ ready (.wfi (F 3 0 0 0)) board = true ∧ ready (.wfi (F 3 0 0 0)) due = true ∧ due.cur.trapDue = true ∧
      board.cur.trapDue = false ∧ board.cur.cancelled = false ∧ board.cur.preq = false) ∧
    (ready (.tstamp (F 3 3 0 0)) board = true ∧ ready (.yield (F 3 0 0 0)) board = true ∧ (∀ r ∈ board.live, r.run = .running)) ∧
    (∀ i ∈ [Instr.nprb (F 3 0 0 0), .npre (F 3 0 0 0), .yield (F 3 0 0 0)], ready i board = true ∧ ready i region = true) ∧ region.cur.npr.isSome = true ∧
    ready (.npre (F 3 0 0 0)) (board { hart with blocked := true }) = true ∧ region.cur.preq = false ∧ board.cur.blocked = false ∧
    board.cur.npr = none ∧ (∀ i ∈ [Instr.gpred (F 3 0 1 0), .gjoin (F 3 0 0 0)], ready i board = true) ∧ board.cur.gang = none ∧
    (∀ st ∈ [[], [true], List.replicate 8 true], ready (.gpred (F 3 0 1 0)) (inGang st) = true ∧ ready (.gjoin (F 3 0 0 0)) (inGang st) = true ∧
      (inGang st).cur.gang = some (gang st)) ∧
    (∀ i ∈ [Instr.tlbiVa (F 3 0 1 2 0), .tlbiAsid (F 3 0 0 2 1), .tlbiAll (F 3 0 0 0 2)], ready i board = true ∧ ready i (board { hart with sup := false }) = true) := by
  decide +kernel

end Sys2Proof.Tests
end

