-- ==== Sys2Proof/Tests/WitnessWork.lean ====
section
/-! SUPPORT. For each statement of Obligations.lean with hypotheses, states and operands that meet them, clause by clause: the work
table, contexts and pair words. -/

set_option maxRecDepth 100000

namespace Sys2Proof.Tests

set_option Elab.async false

open Sys2Proof.Machine

/-- A launch record for job 5 on tower 1 (R305), entry 0x8000. -/
def record5 : List Byte := leBytes 0x8000 8 ++ leBytes 0 16 ++ leBytes (5 * 2 ^ 48 + 1) 8 ++ leBytes 0 32 ++ leBytes 2 8 ++ leBytes 0 56

/-- A launch of the work table. -/
def launchOf (id : Nat) (phase bits : Nat) (rec_ : List Byte) : Launch :=
  { id := BitVec.ofNat 64 id, record := rec_, phase := phase, bits := bits, cause := 0, exit := 0, causeAt := 0, exitAt := 0, harts := 2, ended := 0, replays := 0, replaying := false,
    lostLog := false, logs := [], tvec := 0, tscratch := 0, strict := false, facc := Vector.replicate 4 0 }

/-- The machine with launches added. -/
def withLaunches (ls : List Launch) (s : State) : State := s.setHub (fun h => { h with launches := h.launches ++ ls })

theorem all_of {vals : List (Nat × Bool)} (h : vals.all (fun v => !v.2) = true) : ∀ v ∈ vals, v.2 = false := by
  intro v hv
  simpa using List.all_eq_true.1 h v hv

/-- WorkTable, launch: user mode; a misaligned record; a record with a bad entry; a good record. -/
theorem witness_WorkTable_launch :
    let s := (board (regs [(1, 0x10000), (2, 0x10008)])).poke 0x10000 record5
    let bad := (board (regs [(1, 0x10000)])).poke 0x10000 (leBytes 1 8)
    (ready (.launch (F 0 3 1 0)) s = true ∧ ready (.launch (F 0 3 1 0)) bad = true ∧ ready (.launch (F 0 3 2 0)) s = true ∧ s.NoReplay ∧ bad.NoReplay ∧
      s.cur.run = .running ∧ (board { hart with sup := false }).mayLaunch = false ∧ s.mayLaunch = true ∧ (s.reg 2).toNat % 64 ≠ 0 ∧ (s.reg 1).toNat % 64 = 0) ∧
    (∃ vals t, ReadsAll 8 bad ((List.range 64).map (fun i => (0x10000 : Word) + BitVec.ofNat 64 (8 * i))) vals t ∧ (∀ v ∈ vals, v.2 = false) ∧
      recordFault (vals.flatMap (fun v => leBytes v.1 8)) true 3 = some 0) ∧
    (∃ vals t, ReadsAll 8 s ((List.range 64).map (fun i => (0x10000 : Word) + BitVec.ofNat 64 (8 * i))) vals t ∧ (∀ v ∈ vals, v.2 = false) ∧
      (let r := vals.flatMap (fun v => leBytes v.1 8)
       recordFault r true 3 = none ∧ towerSetFault r true = none ∧ recField r 24 8 = 5 * 2 ^ 48 + 1 ∧ recPreds r = []) ∧
      (let r := vals.flatMap (fun v => leBytes v.1 8)
       (∀ e ∈ t.hub.entities, e.closed = false) ∧ (t.launch 0x5_0000_0000_0001).isNone = true ∧ t.barClash r = none ∧
         t.tableFullAt 0x5_0000_0000_0001 = none)) := by
  intro s bad
  refine ⟨⟨by decide +kernel, by decide +kernel, by decide +kernel, noReplay_of (by decide +kernel), noReplay_of (by decide +kernel), rfl, by decide +kernel,
    by decide +kernel, by decide +kernel, by decide +kernel⟩, ?_, ?_⟩
  · obtain ⟨⟨vals, t⟩, h, k⟩ := has_elim (o := readsAll 8 bad ((List.range 64).map (fun i => (0x10000 : Word) + BitVec.ofNat 64 (8 * i))))
      (p := fun x => x.1.all (fun v => !v.2) && decide (recordFault (x.1.flatMap (fun v => leBytes v.1 8)) true 3 = some 0)) (by decide +kernel)
    simp only [Bool.and_eq_true, decide_eq_true_eq] at k
    exact ⟨vals, t, readsAll_of h, all_of k.1, k.2⟩
  · obtain ⟨⟨vals, t⟩, h, k⟩ := has_elim (o := readsAll 8 s ((List.range 64).map (fun i => (0x10000 : Word) + BitVec.ofNat 64 (8 * i))))
      (p := fun x => x.1.all (fun v => !v.2) && (let r := x.1.flatMap (fun v => leBytes v.1 8)
        decide (recordFault r true 3 = none ∧ towerSetFault r true = none ∧ recField r 24 8 = 5 * 2 ^ 48 + 1 ∧ recPreds r = [] ∧
          (∀ e ∈ x.2.hub.entities, e.closed = false) ∧ (x.2.launch 0x5_0000_0000_0001).isNone = true ∧ x.2.barClash r = none ∧
          x.2.tableFullAt 0x5_0000_0000_0001 = none))) (by decide +kernel)
    simp only [Bool.and_eq_true, decide_eq_true_eq] at k
    obtain ⟨k0, k1, k2, k3, k4, k5, k6, k7, k8⟩ := k
    exact ⟨vals, t, readsAll_of h, all_of k0, ⟨k1, k2, k3, k4⟩, k5, k6, k7, k8⟩

/-- WorkTable, the rest: an entity that is not there, another job's from user mode, a launch live and complete, one's own; hexit of a launch of two harts;
jrecv misaligned, with a message, and of an empty mailbox in both modes. -/
theorem witness_WorkTable :
    let l7 := launchOf 0x77 1 0 record5
    let l8 := launchOf 0x88 2 0 record5
    let l5 := launchOf 0x5_0000_0000_0001 1 0 record5
    let s := withLaunches [l7, l8, l5] (board (regs [(1, 0x77), (2, 0x88), (4, 0x5_0000_0000_0001), (5, 0x99), (6, 0x10000), (7, 0x10010)]))
    let user := { s with cur := { s.cur with sup := false } }
    let m : Message := { job := 0, seq := 0, arrival := 0, payload := List.replicate 240 7 }
    (s.NoReplay ∧ s.cur.run = .running ∧ s.NoTransfers ∧ s.cur.beacons = [] ∧ s.cur.ending = none ∧ s.MemInv) ∧
    (∀ r ∈ [1, 2, 4, 5], ready (.lwait (F 3 3 r 0)) s = true ∧ ready (.lcancel (F 3 3 r 0)) s = true ∧ ready (.lwait (F 3 3 r 0)) user = true ∧
      ready (.lcancel (F 3 3 r 0)) user = true) ∧
    (s.workStatus 0 (s.reg 5) = none ∧ (user.workStatus 0 (user.reg 4)).isSome = true ∧ user.cur.sup = false ∧ jobOf (user.reg 4) ≠ jobOf user.cur.launch) ∧
    s.launch (s.reg 2) = some l8 ∧
    ((s.workStatus 0 (s.reg 2)).map (fun x => x.1) = some true ∧ s.onOwn 0 (s.reg 2) = false ∧ (s.workStatus 0 (s.reg 4)).map (fun x => x.1) = some false ∧
      s.onOwn 0 (s.reg 4) = false ∧ (s.workStatus 0 (s.reg 1)).map (fun x => x.1) = some false ∧ s.onOwn 0 (s.reg 1) = true ∧ s.cur.kind ≠ .cairn ∧
      s.cur.npr = none) ∧
    (s.cur.lwait = none ∧ ({ s.cur with lwait := some (0, 0x88, some 5) }).lwaited 0 (s.reg 2) = some 5) ∧
    (ready (.hexit (F 3 0 1 0)) s = true ∧ s.launchOf s.cur = some l7 ∧ s.launch s.cur.launch = some l7 ∧ l7.ended + 1 < l7.harts ∧
      l7.exitAt ≤ s.hub.codes) ∧
    (ready (.jrecv (F 3 3 6 0)) s = true ∧ ready (.jrecv (F 3 3 6 0 1)) s = true ∧ ready (.jrecv (F 3 3 7 0)) s = true ∧ (s.reg 7).toNat % 256 ≠ 0 ∧
      (s.reg 6).toNat % 256 = 0 ∧ s.cur.replay = [] ∧ s.cur.wait = none ∧ s.cur.strict = false ∧ s.hub.mailbox = [] ∧ m.job = jobOf s.cur.launch ∧
      m.payload.length ≤ 240 ∧ (s.others.map (fun c => c.wait.isNone)).all id = true ∧
      ∃ leaf t, PlainAccess s 0x10000 256 .write leaf t t ∧ (soundAt t leaf 256 && decide (leaf.mt = mtCached) && !leaf.chk && !leaf.ver &&
        (t.cycleFrom s.cur.reqid mailboxObj 16).isNone) = true) := by
  intro l7 l8 l5 s user m
  refine ⟨⟨noReplay_of (by decide +kernel), rfl, noTransfers_of (by decide +kernel), rfl, rfl, by unfold State.MemInv; decide +kernel⟩, by decide +kernel,
    ⟨rfl, by decide +kernel, rfl, by decide +kernel⟩, rfl, by decide +kernel, ⟨rfl, by decide +kernel⟩, ⟨by decide +kernel, rfl, rfl, by decide +kernel⟩, ?_⟩
  refine ⟨by decide +kernel, by decide +kernel, by decide +kernel, by decide +kernel, by decide +kernel, rfl, rfl, rfl, rfl, by decide +kernel, by decide +kernel,
    by decide +kernel, ?_⟩
  obtain ⟨leaf, t, u, hp, k⟩ := plain_witness (s := s) (va := 0x10000) (n := 256) (acc := .write) (p := fun leaf _ u => soundAt u leaf 256 &&
    decide (leaf.mt = mtCached) && !leaf.chk && !leaf.ver && (u.cycleFrom s.cur.reqid mailboxObj 16).isNone) (by decide +kernel)
  have k' := k
  simp only [Bool.and_eq_true, decide_eq_true_eq] at k'
  obtain rfl := plain_cached hp k'.1.1.1.2
  exact ⟨leaf, _, hp, k⟩

/-- A half has run as its full-form equivalent (PairWords), and what a test asks of the state left. -/
def ran (s : State) (h : Half) (i : Instr) (u : State) (p : State → Bool) : Bool :=
  ready i u && gives (exec i u) (fun v => v.cur.tl == s.cur.tl && v.cur.ending.isNone && v.stopAt.isNone &&
    (v.cur.pc == s.cur.pc + 8 || (decide (h.hop = 15 ∨ h.hop = 28) && v.cur.pc != s.cur.pc)) && p v)

/-- A half traps on a state, and its record does not have to wait. -/
def trapsOn (i : Instr) (u : State) : Bool :=
  match halfBody i u with
  | .trap v code _ _ => !v.trapWaits code
  | _ => false

/-- A pair word. -/
def wordOfHalves (h0 h1 : Half) : Word := 1#1 ++ 0#1 ++ (h0.hop ++ h0.d ++ h0.a ++ h0.imm) ++ (h1.hop ++ h1.d ++ h1.a ++ h1.imm)

/-- What every clause of PairWords asks of a pair of two halves and a hart: the equivalents, given to `p`. -/
def pairWith (h0 h1 : Half) (s : State) (p : Instr → Instr → Bool) : Bool :=
  decide (Half.ofWord (wordOfHalves h0 h1) false = h0 ∧ Half.ofWord (wordOfHalves h0 h1) true = h1 ∧ pairFault h0 h1 s.cur.kind = none ∧ s.cur.transfers = [] ∧
    s.cur.kind ≠ .cairn ∧ s.cur.ending = none ∧ s.stopAt = none) &&
  has (halfEquiv h0 false) (fun i0 => has (halfEquiv h1 true) (fun i1 => p i0 i1))

/-- PairWords: a pair that fails decode; two computing halves; a memory half beside a nop; a load beside a branch; a vector half before a load, a
wb before a setvl, whose sD is written at issue; the trap of a vector half after a load, before one and before another; misaligned halves; a word resumed
after either half. -/
theorem witness_PairWords :
    let nop : Half := { hop := 0, d := 0, a := 0, imm := 0 }
    let bad : Half := { hop := 29, d := 0, a := 0, imm := 0 }
    let sum : Half := { hop := 1, d := 1, a := 2, imm := 0 }
    let move : Half := { hop := 12, d := 1, a := 2, imm := 0 }
    let load : Half := { hop := 13, d := 1, a := 2, imm := 3 }
    let jump : Half := { hop := 15, d := 3, a := 0, imm := 5 }
    let vec : Half := { hop := 19, d := 0, a := 1, imm := 0 }
    let commit : Half := { hop := 17, d := 0, a := 0, imm := 0 }
    let count : Half := { hop := 27, d := 1, a := 3, imm := 0 }
    let c := regs [(2, 0x10000), (18, 0x10000), (19, 1)]
    let s := openAll c
    let shut := board c
    let odd := board (regs [(2, 0x10001), (18, 0x10001)])
    let back := fun (u : State) => u.setCur (fun d => { d with pc := s.cur.pc })
    (Half.ofWord (wordOfHalves bad nop) false = bad ∧ Half.ofWord (wordOfHalves bad nop) true = nop ∧ pairFault bad nop board.cur.kind = some 11) ∧
    (pairWith sum move board (fun _ _ => true) = true ∧ board.cur.skip = 0) ∧
    pairWith nop load s (fun _ i => ran s load i s (fun t => t.cur.pc == s.cur.pc + 8)) = true ∧
    (s.cur.skip = 0 ∧ pairWith load jump s (fun i0 i1 => !halfQueued load && ran s load i0 s (fun u => ran s jump i1 (back u) (fun v => v.cur.pc != s.cur.pc + 8))) = true) ∧
    pairWith vec load s (fun i0 i1 => halfQueued vec && !halfQueued load && ran s load i1 s (fun u => ran s vec i0 (back u) (fun _ => true))) = true ∧
    pairWith commit count s (fun i0 i1 => halfQueued commit && halfQueued count && (s.issueSetvl [i0, i1]).reg 17 == 1 &&
      ran s commit i0 (s.issueSetvl [i0, i1]) (fun u => ran s count i1 (back u) (fun v => v.cur.vl == 1))) = true ∧
    pairWith load vec shut (fun i0 i1 => halfQueued vec && ran shut load i0 shut (fun u => trapsOn i1 (back u))) = true ∧
    pairWith vec load shut (fun i0 i1 => halfQueued vec && !halfQueued load && ran shut load i1 shut (fun u => trapsOn i0 (back u))) = true ∧
    pairWith vec vec shut (fun i0 _ => halfQueued vec && trapsOn i0 shut) = true ∧
    (∀ p ∈ [(load, nop), (nop, load)], pairWith p.1 p.2 odd (fun _ _ => true) = true) ∧
    ((odd.reg (halfScalar load.a false) + load.imm.signExtend 64 <<< 3).toNat % 8 ≠ 0 ∧
      (odd.reg (halfScalar load.a true) + load.imm.signExtend 64 <<< 3).toNat % 8 ≠ 0) ∧
    (let one := openAll { c with skip := 1 }
     let two := openAll { c with skip := 2 }
     pairWith load vec one (fun _ i1 => ran one vec i1 one (fun _ => true)) = true ∧
       pairWith vec load two (fun i0 _ => ran two vec i0 two (fun _ => true)) = true) := by decide +kernel

theorem wordSum_zeros (n : Nat) : wordSum (List.replicate (8 * n) 0) = 0 := by
  induction n with
  | zero => rfl
  | succ n ih =>
    rw [show 8 * (n + 1) = 8 * n + 1 + 1 + 1 + 1 + 1 + 1 + 1 + 1 from rfl]
    simp only [List.replicate_succ, wordSum, ih]
    rfl

theorem wordSum_append (k : Nat) (a b : List Byte) (h : a.length = 8 * k) : wordSum (a ++ b) = wordSum a + wordSum b := by
  induction k generalizing a with
  | zero =>
    obtain rfl := List.eq_nil_of_length_eq_zero h
    simp [wordSum]
  | succ k ih =>
    match a, h with
    | x0 :: x1 :: x2 :: x3 :: x4 :: x5 :: x6 :: x7 :: r, h =>
      simp only [List.length_cons] at h
      simp only [List.cons_append, wordSum, ih r (by omega), Nat.add_assoc]

/-- An image that is a header of 64 bytes, and zeros, is valid where its version and its sum are. -/
theorem imageValid_zeros (a : List Byte) (ha : a.length = 64) (n : Nat) (h : imgNum a 0 2 = 1 ∧ wordSum a % 2 ^ 64 = 0 ∧ ((a.drop 0x06).take 2).any (fun b => b != 0) = false ∧
      ((a.drop 0x21).take 7).any (fun b => b != 0) = false) :
    imageValid (a ++ List.replicate (8 * n) 0) = true := by
  have hd : ∀ lo k, 64 ≤ lo → ∀ b ∈ ((a ++ List.replicate (8 * n) (0 : Byte)).drop lo).take k, b = 0 := by
    intro lo k hl b hb
    rw [List.drop_append, List.drop_of_length_le (by omega), List.nil_append, List.drop_replicate] at hb
    exact List.eq_of_mem_replicate (List.mem_of_mem_take hb)
  have hs : ∀ lo k, 64 ≤ lo → (((a ++ List.replicate (8 * n) (0 : Byte)).drop lo).take k).any (fun b => b != 0) = false := by
    intro lo k hl
    simp only [List.any_eq_false, bne_iff_ne, ne_eq, Decidable.not_not]
    exact hd lo k hl
  have he : elemsReserved (((a ++ List.replicate (8 * n) (0 : Byte)).drop 0x1000).take 0x1000) = false := by
    unfold elemsReserved
    simp only [List.any_eq_false, Bool.and_eq_true, bne_iff_ne, ne_eq, not_and, Decidable.not_not]
    intro p hp _
    exact hd _ _ (by decide) _ (List.of_mem_zip hp).1
  have h2 : imgNum (a ++ List.replicate (8 * n) 0) 0 2 = imgNum a 0 2 := by
    unfold imgNum
    rw [List.drop_zero, List.drop_zero, List.take_append_of_le_length (by omega)]
  have h6 : ∀ lo k, lo + k ≤ 64 → ((a ++ List.replicate (8 * n) (0 : Byte)).drop lo).take k = (a.drop lo).take k := by
    intro lo k hl
    rw [List.drop_append_of_le_length (by omega), List.take_append_of_le_length (by rw [List.length_drop]; omega)]
  simp only [imageValid, imageReserved, h2, h.1, wordSum_append 8 a _ (by omega), wordSum_zeros, Nat.add_zero, h.2.1, he, h6 0x06 2 (by decide),
    h6 0x21 7 (by decide), h.2.2.1, h.2.2.2, hs 0x281 7 (by decide), hs 0x299 3 (by decide), hs 0x2A3 5 (by decide), hs 0x2A8 8 (by decide),
    hs 0x2F0 16 (by decide), hs 0x3A0 96 (by decide), hs 0x500 0x300 (by decide), hs 0x4C00 0x3400 (by decide), decide_true, Bool.or_self, Bool.not_false,
    Bool.and_self]

/-- Pages that follow each other read as one run. -/
theorem pages_read (m : Memory) (hm : Memory.wf m = true) (a k : Nat) :
    (List.range k).flatMap (fun i => Memory.readN m (a + 4096 * i) 4096) = (List.range (4096 * k)).map (fun i => Memory.read m (a + i)) := by
  induction k with
  | zero => rfl
  | succ k ih =>
    rw [List.range_succ, List.flatMap_append, ih, Nat.mul_succ, List.range_add, List.map_append]
    simp [Memory.readN_eq m _ _ hm, Nat.add_assoc]

/-- The image that a header of 64 bytes written over memory not written before makes. -/
theorem header_read (s : State) (hm : Memory.wf s.mem = true) (a : List Byte) (ha : a.length = 64) (base n : Nat) (hb : base + 64 + n ≤ Config.residentBase)
    (hs : ∀ c ∈ s.mem, c.1 < base) :
    (List.range (64 + n)).map (fun i => Memory.read (s.poke base a).mem (base + i)) = a ++ List.replicate n 0 := by
  rw [List.range_add, List.map_append]
  congr 1
  · refine List.ext_getElem (by simp [ha]) (fun i h1 h2 => ?_)
    simp only [List.getElem_map, List.getElem_range]
    exact State.byte_poke_inside s base a hm i h2
  · rw [List.eq_replicate_iff]
    refine ⟨by simp, fun b hb' => ?_⟩
    simp only [List.map_map, List.mem_map, List.mem_range, Function.comp] at hb'
    obtain ⟨i, hi, rfl⟩ := hb'
    have := State.byte_poke_outside s base a hm (base + (64 + i)) (Or.inr (by omega))
    unfold State.byte at this
    rw [this, Memory.read_of_forall_ne (fun c hc => by have := hs c hc; omega)]
    unfold background
    exact if_pos (Or.inl (by omega))

/-- Whether the image of the current context is served at once (ContextImages). -/
def servedNow (s : State) : Bool :=
  match s.unloaded.imageLeaves s.cur.ctxsave .write 16 with
  | some (ls, u) => okWith (u.serveImage true ls) (fun _ => true)
  | none => true

theorem served_of {s : State} (h : servedNow s = true) :
    ∀ ls u, s.unloaded.imageLeaves s.cur.ctxsave .write 16 = some (ls, u) → ∃ v, u.serveImage true ls = .ok v := by
  intro ls u e
  simp only [servedNow, e] at h
  obtain ⟨v, hv, _⟩ := ok_elim h
  exact ⟨v, hv⟩

/-- Pages outside ROW memory are served as they are. -/
theorem serve_other (w : Bool) (u : State) : ∀ ls : List Leaf, (∀ l ∈ ls, l.mt ≠ mtRow) → u.serveImage w ls = .ok u := by
  intro ls
  induction ls with
  | nil => intros; rfl
  | cons x xs ih =>
    intro h
    rw [State.serveImage, if_neg (h x (by simp))]
    exact ih (fun l hl => h l (by simp [hl]))

/-- A hart whose tile 0 is loaded, in a gang, with a validation entry and a pending trap. -/
def fullHart : Ctx :=
  { hart.setTile 0 small with
    tcfg := hart.tcfg.set 0 fullCfg, vset := [(0x100_0000, 0x8000_0000, 7)], pend := [{ code := 0x14B, tval := 5, extra := 0 }],
    gang := some { index := 1, count := 2, active := true, stack := [true], done := none, kept := none } }

/-- ContextImages, an image: its head, and the weights of the one loaded tile; the bounds that its registers keep. -/
theorem witness_ContextImages_image :
    let s := board fullHart
    (∃ weights, s.imageHead [] 0x8000 false false false ++ leBytes 0 64 = s.imageHead [] 0x8000 false false false ++ weights ∧
      ∀ n : Fin 4, s.cur.tiles[n].loaded = true → (weights.drop (8192 * n)).take (64 * s.cur.tiles[n].rows) =
        leBytes s.cur.tiles[n].wt.toNat (64 * s.cur.tiles[n].rows)) ∧
    (s.cur.lclass < 4 ∧ s.cur.vl.toNat ≤ vlMax (s.cur.vcfg &&& 0xFF7) s.cur.lclass ∧ s.cur.prio < 8 ∧ s.cur.home < 16 ∧ s.cur.pdeadln < 2 ^ 32) ∧
    (s.cur.tiles[(0 : Fin 4)].loaded = true ∧ fld s.cur.tcfg[(0 : Fin 4)].toNat 24 2 ≠ 0 ∧ small.fc < 64 ∧ small.rows ≤ 128 ∧ small.cols < 128 ∧
      small.wt.toNat < 2 ^ (512 * small.rows) ∧ s.cur.tiles[(1 : Fin 4)] = Tile.blank ∧ s.cur.accs[(0 : Fin 4)] = Acc.blank) ∧
    (∀ i : Fin 64, let x := { Acc.blank with empty := false, sx := -128, q := 127 }
      x.empty = false ∧ -128 ≤ x.q ∧ x.q < 128 ∧ -128 ≤ x.sx ∧ x.sx < 128 ∧ -2 ^ 95 ≤ x.elems[i].v ∧ x.elems[i].v < 2 ^ 95) ∧
    (∀ g, s.cur.gang = some g → g.index < 64 ∧ g.count < 128 ∧ g.stack.length ≤ 8) ∧
    ((∀ e ∈ s.cur.vset, e.1.toNat < 2 ^ 57 ∧ e.2.2 < 2 ^ 64) ∧ s.cur.vset.length ≤ 8) ∧
    ((∀ p ∈ s.cur.pend, p.code < 2 ^ 64) ∧ s.cur.pend.length ≤ 116 ∧ s.cur.pubLines.length ≤ 256) := by
  refine ⟨⟨_, rfl, by decide +kernel⟩, by decide +kernel, by decide +kernel, by decide +kernel, fun g hg => ?_, by decide +kernel⟩
  cases hg
  decide

/-- An image in CACHED memory with no group open is read as it stands, and only the use of its pages is noted. -/
theorem imageBytes_cached (ls : List Leaf) : ∀ t : State, t.conflict = [] → t.groups = [] →
    (∀ l ∈ ls, l.mt = mtCached ∧ inSideTable l.pa 4096 = false) →
    ∃ c, t.imageBytes ls = (ls.flatMap (fun l => t.bytes l.pa 4096), { t with cachedUse := c }) := by
  induction ls with
  | nil => exact fun t _ _ _ => ⟨t.cachedUse, rfl⟩
  | cons l ls ih =>
    intro t hc hg hl
    obtain ⟨h1, h2⟩ := hl l (List.mem_cons_self ..)
    have hn : ∃ c, t.noteUse l.pa l.mt = { t with cachedUse := c } := by
      have closed : ∀ (s : State) (k r : Nat), s.groups = [] → ¬(s.group k).row = some r := by
        intro s k r h
        rw [State.group, h]
        exact fun e => nomatch e
      unfold State.noteUse
      rw [if_pos h1]
      by_cases hu : t.cachedUse.contains (l.pa / 4096) = true
      · simp only [if_pos hu]
        exact ⟨t.cachedUse, if_neg (closed _ _ _ hg)⟩
      · simp only [if_neg hu]
        exact ⟨_, if_neg (closed _ _ _ hg)⟩
    obtain ⟨c, hn⟩ := hn
    obtain ⟨d, hd⟩ := ih { t with cachedUse := c } hc hg (fun x hx => hl x (List.mem_cons_of_mem _ hx))
    have hp : t.readPhys l 4096 = (t.bytes l.pa 4096, { t with cachedUse := c }) := by
      unfold State.readPhys
      rw [hn]
      simp only [hc, List.contains_nil, Bool.false_eq_true, if_false, State.dramBytes, h2]
      rfl
    exact ⟨d, by simp only [State.imageBytes, hp, hd, List.flatMap_cons]; rfl⟩

/-- ContextImages: ctxsave and ctxrst in both modes, inside a region, at an address that is not a page; an image that is not valid, and one that is, of
a held context; a yield asked for. -/
theorem witness_ContextImages :
    let held : Ctx := { hart with reqid := 0x60065, entry := 101, run := .held }
    let word0 := 1 + 12 * 2 ^ 32
    let image := leBytes word0 8 ++ leBytes 0x60065 8 ++ leBytes 0 40 ++ leBytes (2 ^ 64 - word0 - 0x60065) 8
    let s := { (board (regs [(1, 0x30000), (2, 0x30001)])).poke 0x30000 image with others := [Ctx.cairn, held] }
    let blankPage := board (regs [(1, 0x30000)])
    (∀ i ∈ [Instr.ctxsave (F 3 0 0 0), .ctxrst (F 0 3 1 0)], ready i board = true ∧ ready i (board { hart with sup := false }) = true ∧ ready i s = true) ∧
    (ready (.ctxsave (F 3 0 0 0)) (board { hart with npr := some 0 }) = true ∧ board.cur.gang = none ∧ board.cur.transfers = [] ∧ board.cur.ending = none ∧
      board.cur.npr = none ∧ board.cur.wantHeld = false ∧ ready (.yield (F 3 0 0 0)) (board { hart with preq := true }) = true) ∧
    ((∀ ls u, board.unloaded.imageLeaves board.cur.ctxsave .write 16 = some (ls, u) → ∃ v, u.serveImage true ls = .ok v) ∧
      (board.unloaded.imageLeaves board.cur.ctxsave .write 16).isSome = true) ∧
    (ready (.ctxrst (F 0 3 2 0)) s = true ∧ (s.reg 2).toNat % 4096 ≠ 0 ∧ (s.reg 1).toNat % 4096 = 0) ∧
    (∃ img t, blankPage.readImage 0x30000 = .ok img false t ∧ t.cur = blankPage.cur ∧ imageValid img = false) ∧
    (∃ img t, s.readImage 0x30000 = .ok img false t ∧ t.cur = s.cur ∧ imageValid img = true ∧ fld (imgNum img 0 8) 32 13 = s.devId ∧
      imgNum img 8 4 % 2 ^ 28 = 0x60065 ∧ s.ctx? 0x60065 = some held ∧ t.ctx? 0x60065 = some held ∧ held.run = .held ∧ 0x60065 ≠ s.cur.reqid ∧
      s.cur.run = .running ∧ (s.reg 0).toNat < 512 ∧ (∀ n, s.imgBound img = some n → n = (s.reg 0).toNat) ∧ s.slotsUsed .tower 0 < 16) := by
  intro held word0 image s blankPage
  have read : ∀ {s : State} {p : List Byte → State → Bool}, (match s.readImage 0x30000 with
      | .ok img bad t => !bad && p img t
      | _ => false) = true → ∃ img t, s.readImage 0x30000 = .ok img false t ∧ p img t = true := by
    intro s p h
    split at h
    · rename_i img bad t ht
      simp only [Bool.and_eq_true, Bool.not_eq_true'] at h
      obtain ⟨rfl, h⟩ := h
      exact ⟨img, t, ht, h⟩
    · cases h
  refine ⟨by decide +kernel, by decide +kernel, ⟨served_of (by decide +kernel), by decide +kernel⟩, by decide +kernel, ?_, ?_⟩
  · obtain ⟨img, t, h, k⟩ := read (s := blankPage) (p := fun img t => decide (t.cur = blankPage.cur) && !imageValid img) (by decide +kernel)
    simp only [Bool.and_eq_true, decide_eq_true_eq, Bool.not_eq_true'] at k
    exact ⟨img, t, h, k.1, k.2⟩
  · have pages : ∀ {p : List Leaf → State → Bool}, (match s.imageLeaves 0x30000 .read 16 with
        | some (ls, t) => p ls t
        | none => false) = true → ∃ ls t, s.imageLeaves 0x30000 .read 16 = some (ls, t) ∧ p ls t = true := by
      intro p h
      split at h
      · exact ⟨_, _, ‹_›, h⟩
      · cases h
    obtain ⟨ls, t, h, k⟩ := pages (p := fun ls t => decide (ls.map (fun l => l.pa) = (List.range 16).map (fun i => 0x30000 + 4096 * i) ∧
      (∀ l ∈ ls, l.mt = mtCached ∧ inSideTable l.pa 4096 = false) ∧ t.mem = s.mem ∧ t.poison = [] ∧ t.cur = s.cur ∧ t.ctx? 0x60065 = some held ∧
      t.conflict = [] ∧ t.groups = [])) (by decide +kernel)
    obtain ⟨k1, k2, k3, k4, k5, k6, k7, k8⟩ := of_decide_eq_true k
    obtain ⟨c, read_⟩ := imageBytes_cached ls t k7 k8 k2
    have rows : ∀ l ∈ ls, l.mt ≠ mtRow := fun l hl => by rw [(k2 l hl).1]; decide
    have bytes : ls.flatMap (fun l => t.bytes l.pa 4096) = image ++ List.replicate (8 * 8184) 0 := by
      have h1 : ls.flatMap (fun l => t.bytes l.pa 4096) = (ls.map (fun l => l.pa)).flatMap (fun a => Memory.readN s.mem a 4096) := by
        simp only [List.flatMap_map, State.bytes, k3]
      have h2 := header_read (board (regs [(1, 0x30000), (2, 0x30001)])) (by decide +kernel) image (by decide +kernel) 0x30000 (8 * 8184) (by decide)
        (by decide +kernel)
      rw [h1, k1, List.flatMap_map]
      exact (pages_read s.mem (by decide +kernel) 0x30000 16).trans h2
    have sound : ls.any (fun l => poisoned t.poison l.pa 4096) = false := by simp [poisoned, k4]
    have hr : s.readImage 0x30000 = .ok (image ++ List.replicate (8 * 8184) 0) false { t with cachedUse := c } := by
      simp only [State.readImage, h, serve_other false t ls rows, read_, bytes, sound]
    refine ⟨_, _, hr, k5, imageValid_zeros image (by decide +kernel) 8184 (by decide +kernel), by decide +kernel, by decide +kernel, rfl, k6, rfl, by decide, rfl,
      by decide +kernel, fun n hn => ?_, by decide +kernel⟩
    have hb : s.imgBound (image ++ List.replicate (8 * 8184) 0) = some 0 := by decide +kernel
    rw [hb] at hn
    cases hn
    rfl

end Sys2Proof.Tests
end

