-- ==== Sys2Proof/Tests/WitnessSteps.lean ====
section
/-! SUPPORT. For each statement of Obligations.lean with hypotheses, states and operands that meet them, clause by clause: the steps
that no program issues. -/

set_option maxRecDepth 100000

namespace Sys2Proof.Tests

set_option Elab.async false

open Sys2Proof.Machine

/-- A group's debt, its next increment far off. -/
def owing (k : Nat) (n : Int) (s : State) : State := s.setGroup k (fun g => { g with debt := n, nextInc := 1000000 })

/-- RowAndChannelSteps: due increments to 1, 6, 8 and 9 (open and closed), one the engine should have kept below 1, one not due; a forced
close that owes refreshes, one that owes none any more, with the intervals met and not, and none; a group the engine may pay and each that
it may not; a band that falls, at 0, with no sample and too soon. -/
theorem witness_RowAndChannelSteps_debt :
    let s := withInput (.nums 0 0 0) board
    let other := withInput (.nums 1 0 0) (owing 256 1 board)
    let late := { owing 256 3 (withInput (.nums 1 0 0) board) with clk := 40000000 }
    let late := late.setGroup 256 (fun g => { g with nextInc := 32000000 })
    let forcing := s.setGroup 0 (fun g => { g with debt := 9, forcing := true, forced := true })
    let ended := s.setGroup 0 (fun g => { g with debt := 0, forcing := true })
    let tooSoon := fun (s : State) => s.setGroup 0 (fun g => { g with free := 1000000, freeFor := 45000 })
    let band := fun (b : Band) (clk : Nat) => { s with clk := clk, bands := s.bands.put 0 b }
    (s.inputGroup = 0 ∧ (∀ n ∈ [0, 5, 7, 8], ((owing 0 n s).group 0).nextInc ≤ (owing 0 n s).clk ∧ (owing 0 n s).engineLate 0 ((owing 0 n s).group 0).nextInc = false ∧
      ((owing 0 n s).group 0).debt + 1 ∈ [1, 6, 8, 9]) ∧ s.clk < (s.group 0).nextInc) ∧
    ((owing 0 5 s).homeCtx 0 0 = some hart ∧ (owing 0 5 s).ctx? hart.reqid = some hart) ∧
    ((owing 0 8 (openRow 0 1 s)).NoTransfers ∧ ((owing 0 8 (openRow 0 1 s)).group 0).row.isSome = true ∧ (owing 0 8 s).NoTransfers) ∧
    (late.inputGroup = 256 ∧ (late.group 256).nextInc ≤ late.clk ∧ late.engineLate 256 (late.group 256).nextInc = true ∧ (late.group 256).rptr < 1024) ∧
    ((forcing.group 0).forcing = true ∧ 0 < (forcing.group 0).debt ∧ (forcing.group 0).row = none ∧ forcing.activationMet 0 = true ∧
      (tooSoon forcing).activationMet 0 = false ∧ (s.group 0).forcing = false) ∧
    ((ended.group 0).forcing = true ∧ (ended.group 0).debt ≤ 0 ∧ ended.freeAt 0 ≤ ended.clk ∧ (tooSoon ended).clk < (tooSoon ended).freeAt 0) ∧
    (other.inputGroup = 256 ∧ 0 < (other.group 256).debt ∧ (other.group 256).row = none ∧ (other.group 256).forcing = false ∧
      (other.homeCtx 1 0).isNone = true ∧ other.activationMet 256 = true) ∧
    ((s.group 0).debt ≤ 0 ∧ ((openRow 0 1 s).group 0).row.isSome = true ∧ (s.homeCtx 0 0).isSome = true) ∧
    ((band { band := 1, low := some 0 } 1000000000).bands.get 0 Band.blank = { band := 1, low := some 0 } ∧
      0 + 1000000000 ≤ (band { band := 1, low := some 0 } 1000000000).clk ∧ s.bands.get 0 Band.blank = Band.blank ∧ Band.blank.low = none ∧
      (band { band := 2, low := some 0 } 999999999).clk < 0 + 1000000000) := by
  unfold State.NoTransfers
  decide +kernel

/-- RowAndChannelSteps, the scoreboard and the memory controllers: a forced close first; a byte access that waits for a closed group; a hart whose
next word activates, alone and against a refresh of the engine in another tower; nothing to grant; a group the memory controller opened, with an
access to its row and with none, and no such group. -/
theorem witness_RowAndChannelSteps_grants :
    let s := withInput (.nums 0 0 0) board
    let met := fun (s : State) (k : Nat) => s.forcedAsks k && s.activationMet k
    let access := fun (s : State) (t : Nat) (e : RowWait) => s.accessAsks t e && s.activationMet e.group
    let waiter : RowWait := { group := 0, row := 0, who := 5, pc := 0 }
    let waits := fun (s : State) => { s with rowQueue := [waiter] }
    let engine := fun (s : State) (k : Nat) => s.engineDue k && s.activationMet k
    let forcing := s.setGroup 0 (fun g => { g with debt := 9, forcing := true })
    let asks := s.poke 0x8000 (leBytes (wordOf 2 1 (F 2 32 1 0)).toNat 8)
    let other := withInput (.nums 1 0 0) (owing 256 1 board)
    let held := s.setGroup 0 (fun g => { g with mc := some 0 })
    ((towerGroups 0).find? (met forcing) = some 0 ∧ (forcing.group 0).row = none) ∧
    ((towerGroups 0).find? (met (waits s)) = none ∧ (waits s).rowQueue.find? (access (waits s) 0) = some waiter) ∧
    ((towerGroups 0).find? (met asks) = none ∧ asks.rowQueue.find? (access asks 0) = none ∧ asks.grantHart 0 = some hart ∧
      decodeWord (wordOf 2 1 (F 2 32 1 0)) = .actn (F 2 32 1 0)) ∧
    ((towerGroups 1).find? (met other) = none ∧ other.rowQueue.find? (access other 1) = none ∧ other.grantHart 1 = none ∧
      (towerGroups 1).find? (engine other) = some 256) ∧
    ((towerGroups 0).find? (met s) = none ∧ s.rowQueue.find? (access s 0) = none ∧ s.grantHart 0 = none ∧ (towerGroups 0).find? (engine s) = none) ∧
    ((held.group 0).mc = some 0 ∧ held.mcWanted 0 = false ∧ (waits held).mcWanted 0 = true ∧ (s.group 0).mc = none) := by
  decide +kernel

/-- VBHEALTH with no spare used, with spare 0 for slice 3, and with spare 1 for slice 5 too. -/
def healths : List Word := [0, 0x1C00, 0xB1C00]

/-- A machine whose bus `bus` of tower 0 fails. -/
def badBus (bus : Nat) (v : Word) : State :=
  withInput (.nums 0 bus 0) (board.setTower 0 (fun w => { w with vbHealth := v, failing := [bus] }))

/-- The conditions of a bus's slice: a bus no spare stands for, and the bus of spare 0 where spare 1 is not used or stands for another. -/
def busFacts (v : Word) : Bool :=
  fld v.toNat 11 5 != 7 && fld v.toNat 17 5 != 7 && !v.getLsbD (32 + 7) && (!v.getLsbD 10 || !v.getLsbD (32 + fld v.toNat 11 5)) &&
    (!v.getLsbD 16 || fld v.toNat 17 5 != fld v.toNat 11 5)

/-- RowAndChannelSteps, slice buses: each clause of a bus's slice, and a retirement to spare 0, to spare 1 and by rerouting; a sound bus. -/
theorem witness_RowAndChannelSteps_buses :
    healths.all busFacts = true ∧ healths.map (fun v => (v.getLsbD 10, v.getLsbD 16)) = [(false, false), (true, false), (true, true)] ∧
    healths.all (fun v => ((badBus 7 v).tower 0).failing.contains 7 && sliceOf ((badBus 7 v).tower 0).vbHealth 7 == some 7 &&
      !((badBus 8 v).tower 0).failing.contains 7) = true ∧
    (((badBus 32 0x1C00).tower 0).failing.contains 32 && sliceOf ((badBus 32 0x1C00).tower 0).vbHealth 32 == some 3) = true := by
  decide +kernel

/-- A read by way of stack 0 or 1 of group 0, which holds row `row`, and a masked write. -/
def chanRead (stack row : Nat) : State := withInput (.nums stack 0x2000 0) (openRow 0 row board)
def chanWrite (mask : BitVec 64) (stack row : Nat) : State := withInput (.block stack 0x2000 0 mask 5) (openRow 0 row board)

/-- RowAndChannelSteps, the channels: reads and masked writes of another stack, of an open row, of a group that holds another row and of no
byte; a tag that has an answer already; a granule written whole and in part. -/
theorem witness_RowAndChannelSteps_channels :
    let taken := (chanRead 0 1).setHub (fun h => { h with
      channels := [{ stack := 0, channel := 0, tag := 0, read := true, status := 0, pois := 0, data := [] }] })
    (fld 0x2000 37 3 = 0 ∧ inSideTable 0x2000 64 = false ∧ taken.input = .nums 0 0x2000 0 ∧ taken.channelFree 0 0x2000 0 = false) ∧
    ((chanRead 0 1).input = .nums 0 0x2000 0 ∧ (chanRead 0 1).channelFree 0 0x2000 0 = true ∧ (chanRead 0 1).MemInv ∧
      ((chanRead 0 1).rowServeFor (channelWaiter 0 0x2000 0) 0x2000 false).isSome = true) ∧
    ((chanRead 1 1).input = .nums 1 0x2000 0 ∧ (chanRead 1 1).channelFree 1 0x2000 0 = true) ∧
    ((chanRead 0 2).channelFree 0 0x2000 0 = true ∧ ((chanRead 0 2).rowServeFor (channelWaiter 0 0x2000 0) 0x2000 false).isNone = true) ∧
    (([0, 1, 0xFFFFFFFF, 0xFFFFFFFFFFFFFFFF] : List (BitVec 64)).all (fun mask => (chanWrite mask 0 1).channelFree 0 0x2000 0 &&
      Memory.wf (chanWrite mask 0 1).mem && ((chanWrite mask 0 1).rowServeFor (channelWaiter 0 0x2000 0) 0x2000 true).isSome) = true) ∧
    ((chanWrite 1 1 1).input = .block 1 0x2000 0 1 5 ∧ (chanWrite 1 1 1).channelFree 1 0x2000 0 = true) ∧
    ((chanWrite 1 0 2).channelFree 0 0x2000 0 = true ∧ ((chanWrite 1 0 2).rowServeFor (channelWaiter 0 0x2000 0) 0x2000 true).isNone = true) := by
  unfold State.MemInv
  decide +kernel

/-- RegisterSteps: a page to flush and one under way; each counter of the list; a request for attestation, one outside DRAM and one inside;
LOCK clear and set; Cairn there; islands 32 and 0; a supervisor's writes, of valid and wide values, with and without a remote operation under way. -/
theorem witness_RegisterSteps :
    let s := board
    let flush := board.setHub (fun h => { h with pgflush := some 5 })
    let busy := fun (a : Word) => board.setHub (fun h => { h with attBusy := true, attReq := a })
    let open_ := { board with efpo := { board.efpo with lock := false } }
    let input := fun (o : Nat) => (withInput (.write (deviceBase + o) 0) board).input.n1
    let isl := fun (n : Nat) => { board with mgmt := { board.mgmt with islsel := n } }
    let remote := board { hart with transfers := [transferOf 4 (.remote 0 3 false 99 0 0 0 9)] }
    (flush.hub.pgflush = some 5 ∧ (flush.group (groupOf (5 * 4096))).row ≠ some (rowOf (5 * 4096))) ∧
    ([0x9_0018, 0x9_0020, 0x8_0000, 0x8_1FF0, 0x8_0008, 0x8_1FF8, 0x10_0100, 0x10_0148, 0x11_1000, 0x11_13F8, 0x10_0000].all
      (fun o => input o == deviceBase + o) = true) ∧
    ((0x3000 : Word).toNat % 4096 = 0 ∧ s.hub.attBusy = false) ∧
    ((busy 0x3000).hub.attBusy = true ∧ (busy 0x3000).hub.attReq.toNat + 32768 ≤ dramEnd ∧ (busy 0x3000).hub.attReq.toNat % 4096 = 0 ∧ (busy 0x3000).MemInv ∧
      dramEnd < (busy 0xFF_FFFF_F000).hub.attReq.toNat + 32768) ∧
    (s.efpo.lock = true ∧ open_.efpo.lock = false ∧ s.ctx? cairnId = some Ctx.cairn) ∧
    ((isl 32).mgmt.islsel = 32 ∧ (isl 0).mgmt.islsel = 0 ∧ (withInput (.write 3 0) board).input.n1 % 32 ≠ 0) ∧
    (s.cur.kind = .tower ∧ s.cur.sup = true ∧ s.cur.remoteBusy = false ∧ s.cur.transfers = [] ∧ remote.cur.remoteBusy = true ∧
      remote.cur.sup = true ∧ vcfgFault 0x102 = none ∧ tcfgFault 3 0 = none ∧
      (∀ d ∈ s.live, ∀ b < 64, d.waitsOn .semt (semObj s.cur.place b) = false)) := by
  unfold State.MemInv
  decide +kernel

/-- The module as delivered: slot A passes. -/
theorem shipped_passes (n : Nat) : (Slot.shipped n).passes = true := by
  simp only [Slot.passes, fusedDigest, Slot.shipped, Slot.verifies, Slot.header, beq_self_eq_true, Bool.true_or, Bool.true_and]
  rfl

/-- Two slots below the SVN floor. -/
def deadSlots : Slot × Slot :=
  ({ svn := 0, stages := [], key := 0, signature := 0 }, { svn := 0, stages := [], key := 0, signature := 0 })

theorem low_svn_fails {x : Slot} (h : x.svn = 0) : x.passes = false := by
  simp [Slot.passes, h, Config.svnFloor]

/-- LinkAndPaceSteps, start-up: slot A passes, B alone passes, neither passes; Cairn at ML; a slot that passes and one that does not. -/
theorem witness_LinkAndPaceSteps_startup :
    let slots := fun (x : Slot × Slot) => board.setHub (fun h => { h with slots := x })
    board.hub.bootSlot = some 0 ∧ (slots (deadSlots.1, Slot.shipped 1)).hub.bootSlot = some 1 ∧ (slots deadSlots).hub.bootSlot = none ∧
      (Slot.shipped 0).passes = true ∧ deadSlots.1.passes = false ∧ ({ board with mgmt := { board.mgmt with ml := true } } : State).mgmt.ml = true := by
  have h0 : deadSlots.1.passes = false := low_svn_fails rfl
  have h1 : deadSlots.2.passes = false := low_svn_fails rfl
  refine ⟨?_, ?_, ?_, shipped_passes 0, h0, rfl⟩
  · exact if_pos (shipped_passes 0)
  · simp [State.setHub, Hub.bootSlot, h0, shipped_passes]
  · simp [State.setHub, Hub.bootSlot, h0, h1]

/-- LinkAndPaceSteps, the links and time: frames with a bad CRC, of another type, destination and hop count, and a good one; a port up and one down,
LOCK clear; an exchange and answers at both sides of 1 us; TSYNC too old. -/
theorem witness_LinkAndPaceSteps_links :
    let s := board
    let efpo := fun (f : Efpo → Efpo) => { s with efpo := f s.efpo }
    let linkUp := efpo (fun e => { e with links := 8 })
    let unlocked := efpo (fun e => { e with lock := false })
    let asked := fun (t1 : Nat) => withInput (.answer 3 0 t1 t1) (efpo (fun e => { e with exchanges := [(3, 0, t1)] }))
    let late := { efpo (fun e => { e with tsync := true }) with clk := 10000000001 }
    let good : Frame := { dst := s.devId, src := 99, type := 12, hops := 3, len := 64, crcOk := true, dir := 0 }
    let bads := [{ good with type := 13 }, { good with dst := s.devId + 1 }, { good with hops := 4 }]
    ((withInput (.frame 3 good) s).input = .frame 3 good ∧ good.crcOk = true ∧ good.type ≤ 12 ∧ good.dst = s.devId ∧ good.hops ≤ 3 ∧
      ({ good with crcOk := false } : Frame).crcOk = false ∧ ∀ f ∈ bads, f.crcOk = true ∧ (12 < f.type ∨ f.dst ≠ s.devId ∨ 3 < f.hops)) ∧
    ((withInput (.nums 3 1 0) s).input.n2 = 1 ∧ s.efpo.lock = true ∧ unlocked.efpo.lock = false ∧ (withInput (.nums 3 0 0) linkUp).input.n2 ≠ 1 ∧
      (withInput (.nums 3 0 0) linkUp).input.n1 % 16 = 3 ∧ linkUp.efpo.links.getLsbD 3 = true) ∧
    ((asked 0).efpo.exchanges = [(3, 0, 0)] ∧ (asked 999).efpo.exchanges = [(3, 0, 999)] ∧ (asked 0).input = .answer 3 0 0 0 ∧
      ((asked 0).time.toNat : Int) - 0 - 0 ≤ 1000 ∧ 1000 < (({ asked 0 with clk := 2000000 } : State).time.toNat : Int) - 0 - 0) ∧
    (late.efpo.tsync = true ∧ late.efpo.lastSync + 10000000000 < late.clk) := by
  decide +kernel

/-- A member of a pace group of devices `32768 + d` and 12, and its machine. -/
def paceMember (d : Nat) (f : Pace → Pace) : State :=
  { board.setHub (fun h => { h with paceMem := [(0, BitVec.ofNat 64 (32768 + d)), (1, 32780)] }) with
    pace := f { board.pace with en := true, group := 9 }, clk := 3000000000, efpo := { board.efpo with links := 8 } }

/-- A pace packet of device 13. -/
def pacePacket13 : PacePacket := { src := 13, group := 9, level := 2, number := 1, stamp := 4000000, sent := 3000000 }

/-- LinkAndPaceSteps, the pace unit: a member and a coordinator with each packet, time and silence its rules name. -/
theorem witness_LinkAndPaceSteps_pace :
    let takes := fun (t : State) => decide (t.input = .pace pacePacket13 ∧ t.acceptsPace pacePacket13 = true ∧
      (t.received pacePacket13.src 1).paceStale pacePacket13 = false)
    let calm := withInput (.pace pacePacket13) (paceMember 13 id)
    let a : Agreement := { level := 2, number := 1, stamp := 0, missing := [13], sentAt := 0 }
    let due := paceMember 13 (fun p => { p with pending := true, stamp := 3000, number := 1, next := 2 })
    let agreement := withInput (.pace pacePacket13) (paceMember 13 (fun p => { p with agreements := [a] }))
    let led := paceMember 3 id
    let own := paceMember 13 (fun p => { p with level := 3 })
    let fall := paceMember 13 (fun p => { p with agreed := 3, belowSince := some 0 })
    let silent := withInput (.nums 13 0 0) (paceMember 13 id)
    (led.pace.en = true ∧ led.coordinator = some 3 ∧ 3 ≠ led.devId ∧ led.pace.sentAt = none ∧
      led.pace.degraded = false ∧ led.pace.coordHeard + 1000000000 ≤ led.clk) ∧
    (own.pace.en = true ∧ own.coordinator = some own.devId ∧ own.pace.sentAt = none ∧ own.pace.agreed < own.paceDemand ∧ own.pace.requests = []) ∧
    (takes calm = true ∧ calm.coordinator = some calm.devId ∧ calm.pace.agreed < pacePacket13.level % 8 ∧ calm.pace.requests = [] ∧ calm.pace.applied = 0 ∧
      calm.pace.pending = false ∧ calm.pace.later = [] ∧ 1 ≤ pacePacket13.number.toNat ∧ pacePacket13.number.toNat < 2 ^ 31 ∧
      calm.time.toNat ≤ pacePacket13.stamp.toNat) ∧
    (fall.coordinator = some fall.devId ∧ fall.pace.belowSince = some 0 ∧ 0 < fall.pace.agreed ∧ 0 + 2000000000 ≤ fall.clk ∧
      fall.pace.lastAgreement + 2000000000 ≤ fall.clk) ∧
    (due.pace.pending = true ∧ due.pace.degraded = false ∧ due.pace.stamp.toNat ≤ due.time.toNat ∧ due.pace.later = []) ∧
    (takes agreement = true ∧ agreement.pace.agreements = [a] ∧ a.number = pacePacket13.number ∧ a.missing = [pacePacket13.src] ∧
      agreement.coordinator = some agreement.devId ∧ a.sentAt + 10000000 ≤ agreement.clk ∧ 13 ∈ agreement.paceMembers) ∧
    (silent.coordinator = some silent.devId ∧ silent.input.n1 ≠ silent.devId ∧ silent.input.n1 ∈ silent.paceMembers ∧
      silent.pace.heard.get 13 silent.pace.joined + 1000000000 ≤ silent.clk ∧ silent.pace.agreed < 7 ∧ silent.pace.requests = []) := by
  decide +kernel

/-- A sample of a sensor that stands at `x`. -/
def sampled (n : Nat) (raw : Int) (x : Sensor) (s : State := board) : State :=
  { withInput (.sample n raw) s with sensors := s.sensors.put n x }

/-- Whether a sample of a sensor is sound. -/
def soundSample (n : Nat) (raw : Int) (s : State) : Bool :=
  s.input == .sample n raw && n < 648 && !(s.sensor n).failed && decide (-320 ≤ raw ∧ raw ≤ 2400) && !s.disagrees n raw &&
    (!(s.sensor n).seen || raw != (s.sensor n).raw)

/-- Whether a tower of island 0 reads above a value. -/
def island0Above (t : State) (v : Int) : Bool := (List.range 16).any (fun i => decide (v < (t.sensor i).value))

/-- PowerSteps, sensors: neighbours on a diagonal; sound samples of a hub, a tower and a layer; one that raises an alarm; a layer that rises
and one that counts toward a fall or not; towers above HOLD7, at the critical point armed and not, and below it; samples out of range, far
from a neighbour and stuck; a failed sensor; HOLD7 raised, ended and kept; the fourth failed sensor of an island. -/
theorem witness_PowerSteps_sensors :
    let b := Sensor.blank
    let layer := fun (n : Nat) (raw : Int) => { sampled 512 raw b with bands := SMap.put [] 0 { band := n, low := none } }
    let far := sampled 0 1400 b (sampled 9 0 { b with seen := true, raw := 1000 })
    let stuck := sampled 5 1000 { b with seen := true, raw := 1000, same := 255, moved := true }
    let three := [1, 2, 4].foldl (fun s n => sampled n 0 { b with failed := true } s) board
    let fourth := sampled 3 3000 b three
    (9 ∈ neighbours 0 ∧ 8 ∉ neighbours 63) ∧
    ([(640, 1000), (5, 1000), (512, 1400), (5, 1700), (5, 1620), (5, 1590)].all (fun p => soundSample p.1 p.2 (sampled p.1 p.2 b)) = true) ∧
    (b.tracking = true ∧ b.alert < 1400 ∧ b.armed = true ∧ b.critArmed = true ∧
      soundSample 5 1620 (sampled 5 1620 { b with critArmed := false }) = true) ∧
    ((layer 0 1400).bands.get 0 Band.blank = Band.blank ∧ 0 < bandOfReading 1400 ∧ bandOfReading 1344 ≤ 1 ∧ 1344 ≤ fallBound 1 ∧
      soundSample 512 1344 (layer 1 1344) = true ∧ soundSample 512 1350 (layer 1 1350) = true ∧ ¬(1350 ≤ fallBound 1)) ∧
    ((sampled 640 3000 b).input = .sample 640 3000 ∧ ((sampled 640 3000 b).sensor 640).failed = false ∧ (far.sensor 0).failed = false ∧
      far.disagrees 0 1400 = true ∧ far.input = .sample 0 1400) ∧
    ((stuck.sensor 5).failed = false ∧ (stuck.sensor 5).seen = true ∧ (stuck.sensor 5).raw = 1000 ∧ 255 ≤ (stuck.sensor 5).same ∧
      (stuck.sensor 5).moved = true ∧ ((sampled 5 1000 { b with failed := true }).sensor 5).failed = true) ∧
    (gives (exec .sensorSample (sampled 5 1700 b)) (fun t => island0Above t 1680) = true ∧
      gives (exec .sensorSample (sampled 5 1000 b)) (fun t => !island0Above t 1664 && !t.islandBand3 0) = true ∧
      gives (exec .sensorSample (sampled 5 1670 b)) (fun t => island0Above t 1664 && !island0Above t 1680 && !t.islandBand3 0) = true) ∧
    (gives (exec .sensorSample fourth) (fun t => 4 ≤ t.failedOf 0) = true ∧ (fourth.island 0).cap = false ∧ fourth.pace.en = false) := by
  decide +kernel

/-- PowerSteps, power: ticks, estimates below and above 2,300 W, a clamp that stands and one that does not; the governor
both ways; the three boundaries and one already served; a monitor. -/
theorem witness_PowerSteps_power :
    let s := { board with clk := 1000000000 }
    let power := fun (f : Power → Power) => { s with power := f s.power }
    let rising := power (fun p => { p with estimates := [2000] })
    let falling := power (fun p => { p with estimates := [1000], gov := 1 })
    let mon := { withInput (.sample 5 9) s with monitors := SMap.put [] 5 { Monitor.blank with en := true, source := 4, thresh := 3 } }
    (s.power.ticked < s.clk / 1000000000 ∧ (withInput (.estimate 2000 []) s).input = .estimate 2000 [] ∧
      (withInput (.estimate 2400 [1]) s).input = .estimate 2400 [1] ∧ s.peak = false ∧ (power (fun p => { p with peakUntil := some 2000000000 })).peak = true) ∧
    (1950 * rising.power.estimates.length < rising.power.estimates.sum ∧ rising.power.gov < 7 ∧ rising.power.govMoved + 100000000 ≤ rising.clk ∧
      1850 * rising.power.estimates.length ≤ rising.power.estimates.sum ∧ s.power.estimates.sum ≤ 1950 * s.power.estimates.length) ∧
    (falling.power.estimates.sum < 1850 * falling.power.estimates.length ∧ 0 < falling.power.gov ∧ falling.power.govMoved + 1000000000 ≤ falling.clk) ∧
    (s.power.boundary < s.clk / 10000000 ∧ (power (fun p => { p with dropPending := true })).power.dropPending = true ∧
      (power (fun p => { p with pool := 0 })).power.pool = 0 ∧ s.power.dropPending = false ∧ 64 ≤ s.power.pool ∧ (∀ i < 32, (s.island i).claim ≤ 2) ∧
      (power (fun p => { p with boostEn := true })).power.boostEn = true ∧ s.eff 0 = 0 ∧ (s.island 0).cap = false ∧
      board.clk / 10000000 ≤ board.power.boundary) ∧
    (mon.input = .sample 5 9 ∧ (mon.monitor 5).en = true ∧ (mon.monitor 5).source ≠ 0) := by
  decide +kernel

/-- SchedulingSteps, traps and launches: a pending trap, an enabled interrupt of Cairn, a launch that fits and one whose predecessor failed, a
cancelled hart, the last hart of a replaying launch. -/
theorem witness_SchedulingSteps_launches :
    let pend := board { hart with pend := [{ code := 0xA1, tval := 1, extra := 0 }, { code := 0xA0, tval := 2, extra := 0 }] }
    let irq := { cairnBoard with mgmt := { cairnBoard.mgmt with ie := true, mie := 8, mip := 8 } }
    let l5 := launchOf 0x5_0000_0000_0001 0 0 record5
    let new := withInput (.write 0 0x5_0000_0000_0001) (withLaunches [l5] board)
    let follower := { l5 with record := leBytes 0x8000 8 ++ leBytes 0 8 ++ leBytes 0x20000 8 ++ leBytes (5 * 2 ^ 48 + 1) 8 ++ leBytes 2 32 ++ leBytes 2 64 }
    let failed := launchOf 0x5_0000_0000_0002 2 4 record5
    let chain := withInput (.write 0 0x5_0000_0000_0001) (withLaunches [failed, follower] board)
    let stopped := withInput (.nums hart.reqid 0 0) (board { hart with cancelled := true })
    let l7 : Launch := { launchOf 0x77 1 0 record5 with replaying := true, harts := 1 }
    let e : Ending := { cause := 0, exit := 0, failed := false, cancel := false, replay := true }
    let replay := withInput (.nums hart.reqid 0 0) (withLaunches [l7] (board { hart with ending := some e }))
    let mine := fun (s : State) => decide (s.cur.reqid = s.input.n1 ∧ s.cur.run = .running ∧ (∀ c ∈ s.others, c.reqid ≠ s.cur.reqid) ∧
      s.cur.beacons = []) && noTransfers s
    (pend.cur.run = .running ∧ pend.cur.ending = none ∧ pend.cur.trapDue = true ∧ noReplay pend = true ∧ pend.recordWait = none ∧
      pend.cur.tvec.toNat % 8 = 0 ∧ firstPending pend.cur.pend = some { code := 0xA1, tval := 1, extra := 0 }) ∧
    (irq.cur.kind = .cairn ∧ irq.cur.reqid = cairnId ∧ irq.cur.run = .running ∧ irq.dueInterrupt = some 3) ∧
    (new.launch new.input.word = some l5 ∧ new.launchReady l5 = true ∧ new.mayPass l5 = true ∧ new.launchFits l5 = true) ∧
    (chain.launch chain.input.word = some follower ∧ follower.phase = 0 ∧ recPreds follower.record = [0x5_0000_0000_0002] ∧
      chain.launch 0x5_0000_0000_0002 = some failed ∧ failed.phase = 2 ∧ failed.bits &&& 6 ≠ 0 ∧ (∀ e ∈ chain.hub.entities, e.closed = false) ∧
      follower.causeAt ≤ chain.hub.codes) ∧
    (mine stopped = true ∧ stopped.cur.stops = true) ∧
    (mine replay = true ∧ replay.cur.kind ≠ .cairn ∧ replay.launchOf replay.cur = some l7 ∧ replay.launch l7.id = some l7 ∧ l7.replaying = true ∧
      replay.cur.ending = some e ∧ (∀ c ∈ replay.others, c.launch ≠ l7.id) ∧ l7.harts ≤ l7.ended + 1 ∧ l7.replays < 2) := by
  decide +kernel

/-- SchedulingSteps, contexts: a ready context of another tower, a forced save that is due, a region too long, the barrier of a launch that is
complete and of one that is cancelled, a context. -/
theorem witness_SchedulingSteps_contexts :
    let waiting : Ctx := { hart with reqid := 0x60065, place := 1, run := .ready }
    let two := withInput (.nums 1 0 0) { board with others := [Ctx.cairn, waiting] }
    let forced := withInput (.nums hart.reqid 0 0) (board { hart with preq := true })
    let long := withInput (.nums hart.reqid 0 0) { board { hart with npr := some 0 } with clk := 200000000 }
    let b : DeviceBarrier := { id := 7, scope := 4, stack := 0, count := 2, arr := 0, gen := 0, job := 0, creator := 0x88 }
    let done := fun (phase bits : Nat) =>
      withInput (.nums 7 0 0) ((withLaunches [launchOf 0x88 phase bits record5] board).setHub (fun h => { h with barriers := [b] }))
    let one := withInput (.nums hart.reqid 0 0) board
    (two.input.n1 < 512 ∧ two.input.n2 ≠ 1 ∧ two.cur.run = .running ∧ two.cur.reqid ≠ waiting.reqid ∧ two.ctx? waiting.reqid = some waiting ∧
      waiting.gang = none ∧ waiting.run = .ready ∧ waiting.reopen = [] ∧
      (∀ g < 16, two.engineLate (groupKey two.input.n1 waiting.home g) two.clk = false) ∧ two.placement waiting = some 0 ∧
      two.bestReady (two.live.filter (fun d => d.kind = .tower && d.target = two.input.n1 && two.canDispatch d)) = some waiting) ∧
    ((forced.cur.reqid = forced.input.n1 ∧ forced.cur.run = .running ∧ (∀ c ∈ forced.others, c.reqid ≠ forced.cur.reqid) ∧ forced.forcedDueNow = true ∧
      forced.cur.gang = none ∧ forced.cur.transfers = [] ∧ forced.cur.wantHeld = false) ∧
      ∀ ls u, forced.unloaded.imageLeaves forced.cur.ctxsave .write 16 = some (ls, u) → ∃ v, u.serveImage true ls = .ok v) ∧
    (long.ctx? long.input.n1 = some long.cur ∧ long.cur.npr = some 0 ∧ 0 + regionAllowance long.cur.lclass < long.clk) ∧
    (∀ p ∈ [(2, 0), (1, 2)], (done p.1 p.2).hub.barriers.find? (fun b => b.id == (done p.1 p.2).input.n1) = some b ∧
      ∀ l ∈ (done p.1 p.2).hub.launches, l.id = b.creator → l.phase = 2 ∨ l.bits &&& 2 ≠ 0) ∧
    (one.ctx? one.input.n1 = some hart ∧ hart.kind ≠ .cairn) := by
  intro waiting two forced long b done one
  exact ⟨by decide +kernel, ⟨by decide +kernel, served_of (by decide +kernel)⟩, by decide +kernel, by decide +kernel, rfl, by decide⟩

/-- Runs a chunk for a witness. -/
def chunkWith (r : ChunkRes) (p : State → Bool) : Bool :=
  match r with
  | .ok t => p t
  | _ => false

theorem chunk_elim {r : ChunkRes} {p : State → Bool} (h : chunkWith r p = true) : ∃ t, r = .ok t ∧ p t = true := by
  cases r with
  | ok t => exact ⟨t, rfl, h⟩
  | fault c => cases h
  | wait s => cases h

/-- What serves another agent's access to DRAM at once. -/
def servesAgent (s : State) (id who : Nat) (leaf : Leaf) (n : Nat) (write : Bool) : Option State :=
  if (leaf.mt = mtRow || leaf.mt = mtCached) && !s.unpublished id leaf n then
    (if leaf.mt = mtRow then s.rowServeFor who leaf.pa write else some s)
  else none

theorem servesAgent_of {s t : State} {id who n : Nat} {leaf : Leaf} {write : Bool} (h : servesAgent s id who leaf n write = some t) :
    s.ServesAgent id who leaf n write t := by
  unfold servesAgent at h
  split at h
  · rename_i hc
    simp only [Bool.and_eq_true, Bool.or_eq_true, decide_eq_true_eq, Bool.not_eq_true'] at hc
    exact ⟨hc.1, hc.2, h⟩
  · cases h

/-- One read by a copy engine that succeeds. -/
def engineGets (units : List Nat) (root : Word) (id who n : Nat) (s : State) (va : Word) : Option ((List Byte × List Bool) × State) :=
  match s.translateAt units root va .read with
  | .error _ => none
  | .ok (leaf, s1) =>
    if leaf.mt = mtDev && !s1.replayingLaunch id then
      match s1.devLoad leaf.pa n with
      | .error _ => none
      | .ok (w, s2) => some ((leBytes w.toNat n, List.replicate n false), s2)
    else (servesAgent s1 id who leaf n false).bind (fun s2 =>
      if !inSideTable leaf.pa n && !((s2.noteUse leaf.pa leaf.mt).conflict.contains (leaf.pa / 4096)) then
        some ((s2.bytes leaf.pa n, (List.range n).map (fun i => s2.poison.contains ((leaf.pa + i) / 32))), s2.noteUse leaf.pa leaf.mt)
      else none)

/-- Reads by a copy engine, as far as they all succeed. -/
def engineReads (units : List Nat) (root : Word) (id who n : Nat) : State → List Word → Option (List (List Byte × List Bool) × State)
  | s, [] => some ([], s)
  | s, va :: rest => (engineGets units root id who n s va).bind (fun g => (engineReads units root id who n g.2 rest).map (fun x => (g.1 :: x.1, x.2)))

theorem engineGets_of {units : List Nat} {root va : Word} {id who n : Nat} {s s3 t : State} {g : List Byte × List Bool}
    {rest : List Word} {more : List (List Byte × List Bool)} (h : engineGets units root id who n s va = some (g, s3))
    (ih : EngineReads units root id who n s3 rest more t) : EngineReads units root id who n s (va :: rest) (g :: more) t := by
  unfold engineGets at h
  split at h
  · cases h
  · rename_i leaf s1 hl
    split at h
    · rename_i hd
      rw [Bool.and_eq_true, decide_eq_true_eq, Bool.not_eq_true'] at hd
      split at h
      · cases h
      · rename_i w s2 hw
        cases h
        exact ⟨leaf, s1, s3, more, hl, .inr ⟨hd.1, hd.2, ⟨w, hw, rfl⟩, ih⟩⟩
    · obtain ⟨s2, hs, h⟩ := Option.bind_eq_some_iff.1 h
      split at h
      · rename_i hc
        rw [Bool.and_eq_true, Bool.not_eq_true', Bool.not_eq_true'] at hc
        cases h
        exact ⟨leaf, s1, s2, more, hl, .inl ⟨servesAgent_of hs, hc.2, hc.1, rfl, ih⟩⟩
      · cases h

theorem engineReads_of {units : List Nat} {root : Word} {id who n : Nat} {vas : List Word} :
    ∀ {s t : State} {out : List (List Byte × List Bool)}, engineReads units root id who n s vas = some (out, t) →
      EngineReads units root id who n s vas out t := by
  induction vas with
  | nil =>
    intro s t out h
    cases h
    exact ⟨rfl, rfl⟩
  | cons va rest ih =>
    intro s t out h
    obtain ⟨⟨g, s3⟩, hg, h⟩ := Option.bind_eq_some_iff.1 h
    obtain ⟨⟨more, u⟩, hx, e⟩ := Option.map_eq_some_iff.1 h
    cases e
    exact engineGets_of hg (ih hx)

/-- One write by a copy engine that succeeds. -/
def enginePuts (units : List Nat) (root : Word) (id who code : Nat) (s : State) (x : Word × List Byte) : Option (Option Nat × State) :=
  match s.translateAt units root x.1 .write with
  | .error _ => none
  | .ok (leaf, s1) =>
    if leaf.mt = mtDev && !s1.replayingLaunch id then
      match s1.devStore leaf.pa x.2.length (BitVec.ofNat 64 (leValue x.2)) with
      | .ok s2 => some (none, s2)
      | _ => none
    else (servesAgent s1 id who leaf x.2.length true).map (fun s2 => (some leaf.pa, s2.afterEngineWrite id code leaf x.2))

/-- Writes by a copy engine, as far as they all succeed. -/
def engineWrites (units : List Nat) (root : Word) (id who code : Nat) : State → List (Word × List Byte) → Option (List (Option Nat) × State)
  | s, [] => some ([], s)
  | s, x :: rest => (enginePuts units root id who code s x).bind (fun g =>
      (engineWrites units root id who code g.2 rest).map (fun y => (g.1 :: y.1, y.2)))

theorem enginePuts_of {units : List Nat} {root : Word} {id who code : Nat} {x : Word × List Byte} {s s3 t : State} {g : Option Nat}
    {rest : List (Word × List Byte)} {more : List (Option Nat)} (h : enginePuts units root id who code s x = some (g, s3))
    (ih : EngineWrites units root id who code s3 rest more t) : EngineWrites units root id who code s (x :: rest) (g :: more) t := by
  unfold enginePuts at h
  split at h
  · cases h
  · rename_i leaf s1 hl
    split at h
    · rename_i hd
      rw [Bool.and_eq_true, decide_eq_true_eq, Bool.not_eq_true'] at hd
      split at h
      · rename_i s2 hw
        cases h
        exact ⟨leaf, s1, s3, more, hl, .inr ⟨hd.1, hd.2, rfl, hw, ih⟩⟩
      · cases h
    · obtain ⟨s2, hs, e⟩ := Option.map_eq_some_iff.1 h
      cases e
      exact ⟨leaf, s1, s2, more, hl, .inl ⟨servesAgent_of hs, rfl, ih⟩⟩

theorem engineWrites_of {units : List Nat} {root : Word} {id who code : Nat} {xs : List (Word × List Byte)} :
    ∀ {s t : State} {out : List (Option Nat)}, engineWrites units root id who code s xs = some (out, t) →
      EngineWrites units root id who code s xs out t := by
  induction xs with
  | nil =>
    intro s t out h
    cases h
    exact ⟨rfl, rfl⟩
  | cons x rest ih =>
    intro s t out h
    obtain ⟨⟨g, s3⟩, hg, h⟩ := Option.bind_eq_some_iff.1 h
    obtain ⟨⟨more, u⟩, hx, e⟩ := Option.map_eq_some_iff.1 h
    cases e
    exact enginePuts_of hg (ih hx)

/-- A descriptor of `n` elements of eight bytes from `base`. -/
def desc64 (base n : Nat) : List Byte :=
  leBytes base 8 ++ leBytes n 4 ++ leBytes 0 16 ++ leBytes 8 4 ++ leBytes 0 16 ++ leBytes 0x0106 2 ++ leBytes 0 6 ++ leBytes 0 4 ++ leBytes (8 * n) 4

/-- RequesterSteps, chunks: reads of CACHED memory and of a device window by the engine of the hart's stack, and writes of them; a chunk read
and written within the device, and one read before its turn. -/
theorem witness_RequesterSteps_chunks :
    let x := transferOf 5 (.copy (desc 0x10000 8) (desc 0x18000 8) 0 0 none)
    let w := chunkWaiter (hart.reqid * 128 + 5) 0
    (dEsize (desc 0x10000 8) = 1 ∧ dEsize (desc64 0x10000 2) = 8 ∧ board.MemInv) ∧
    (∀ src ∈ [desc 0x10000 8, desc64 0xC300_0000 1], ∃ got u, EngineReads [512] 0x1000 hart.reqid w (dEsize src) board (chunkVas src 0) got u) ∧
    (∀ dst ∈ [desc 0x18000 8, desc64 0xC200_0000 1], ∃ pas u, EngineWrites [512] 0x1000 hart.reqid w 5 board
      (((chunkVas dst 0).zip (List.range (chunkVas dst 0).length)).map (fun a => (a.1, (List.replicate 8 (3 : Byte)).drop (a.2 * dEsize dst) |>.take (dEsize dst)))) pas u) ∧
    board.ownWaiter x.tag 0 = w ∧ board.heldChunk x.tag 0 = none ∧
    (let fl := readFlight 0 (List.replicate 8 5) (List.replicate 8 false)
     let held := board { hart with transfers := [{ x with flights := [fl] }] }
     held.heldChunk x.tag 0 = some fl ∧ ∃ u, writeChunk (engineUnits held.cur) x.ptroot held.cur.reqid (held.ownWaiter x.tag 0) (pubCode x.tag 0 0)
       (desc 0x18000 8) 0 fl.bytes ((List.range fl.bytes.length).map (fun i => fl.pois.contains i)) held = .ok ((), u)) ∧
    (∃ bs bad v u, readChunk (engineUnits board.cur) x.ptroot board.cur.reqid w (desc 0x10000 8) 0 board = .ok ((bs, bad), v) ∧
      writeChunk (engineUnits board.cur) x.ptroot board.cur.reqid w (pubCode x.tag 0 0) (desc 0x18000 8) 0 bs bad v = .ok ((), u)) := by
  intro x w
  refine ⟨by unfold State.MemInv; decide +kernel, fun src hs => ?_, fun dst hd => ?_, rfl, rfl, ⟨rfl, ?_⟩, ?_⟩
  · have h : has (engineReads [512] 0x1000 hart.reqid w (dEsize src) board (chunkVas src 0)) (fun _ => true) = true := by
      simp only [List.mem_cons, List.not_mem_nil, or_false] at hs
      rcases hs with rfl | rfl <;> decide +kernel
    obtain ⟨⟨got, u⟩, e, _⟩ := has_elim h
    exact ⟨got, u, engineReads_of e⟩
  · have h : has (engineWrites [512] 0x1000 hart.reqid w 5 board (((chunkVas dst 0).zip (List.range (chunkVas dst 0).length)).map (fun a =>
        (a.1, (List.replicate 8 (3 : Byte)).drop (a.2 * dEsize dst) |>.take (dEsize dst))))) (fun _ => true) = true := by
      simp only [List.mem_cons, List.not_mem_nil, or_false] at hd
      rcases hd with rfl | rfl <;> decide +kernel
    obtain ⟨⟨pas, u⟩, e, _⟩ := has_elim h
    exact ⟨pas, u, engineWrites_of e⟩
  · obtain ⟨⟨_, u⟩, e, _⟩ := ok_elim (o := writeChunk (engineUnits hart) x.ptroot hart.reqid w (pubCode x.tag 0 0) (desc 0x18000 8) 0
      (List.replicate 8 5) (List.replicate 8 false) (board { hart with transfers := [{ x with
        flights := [readFlight 0 (List.replicate 8 5) (List.replicate 8 false)] }] })) (p := fun _ => true) (by decide +kernel)
    exact ⟨u, e⟩
  · obtain ⟨⟨⟨bs, bad⟩, v⟩, h, k⟩ := ok_elim (o := readChunk (engineUnits board.cur) x.ptroot board.cur.reqid w (desc 0x10000 8) 0 board)
      (p := fun r => okWith (writeChunk (engineUnits board.cur) x.ptroot board.cur.reqid w (pubCode x.tag 0 0) (desc 0x18000 8) 0 r.1.1 r.1.2 r.2) (fun _ => true))
      (by decide +kernel)
    obtain ⟨⟨_, u⟩, e, _⟩ := ok_elim k
    exact ⟨bs, bad, v, u, h, e⟩

/-- RequesterSteps, a Traverse move each way: a run exposed by the other tower, none, one that the kind of move may not use, and one of another
length. -/
theorem witness_RequesterSteps_moves :
    let own : RowRun := { tower := 0, bank := 0, group := 0, len := 1 }
    let e : Exposure := { etag := 9, owner := 0x60065, acc := 3, rows := { tower := 1, bank := 0, group := 0, len := 1 } }
    let x := fun (put : Bool) => transferOf 5 (.traverse put own 1 9)
    let s := fun (put : Bool) => withInput (.nums hart.reqid 5 0) (openRow 256 1 (openRow 0 1 (board { hart with transfers := [x put] })))
    let shown := fun (put : Bool) (e : Exposure) => (s put).setTower 1 (fun t => { t with exposures := [e] })
    (∀ put ∈ [true, false], (s put).cur.reqid = (s put).input.n1 ∧ (s put).cur.run = .running ∧ (s put).cur.transfer (s put).input.n2 = some (x put) ∧
      (s put).traverses.all (fun m => m == (hart.reqid, 5, put, own, 1, 9)) = true ∧ (s put).cur.unfenced = [] ∧ (s put).MemInv ∧ (s put).conflict = [] ∧ (s put).exposure 1 9 = none) ∧
    (∀ put ∈ [true, false], (shown put e).exposure 1 9 = some e ∧ bitAt e.acc (if put then 1 else 0) = true ∧ e.rows.len = own.len ∧
      (shown put e).cur.transfer 5 = some (x put) ∧ ((shown put e).group 0).row.getD 0 < 1024 ∧ ((shown put e).group 256).row.getD 0 < 1024) ∧
    (∀ put ∈ [true, false], (shown put { e with acc := 0 }).exposure 1 9 = some { e with acc := 0 } ∧ bitAt 0 (if put then 1 else 0) = false) ∧
    (∀ put ∈ [true, false], (shown put { e with rows := { e.rows with len := 2 } }).exposure 1 9 = some { e with rows := { e.rows with len := 2 } } ∧
      2 ≠ own.len) := by
  unfold State.MemInv
  decide +kernel

/-- A copy within the device of `n` chunks under way. -/
def localCopy (n : Nat) (km : Option Nat) : Transfer := { transferOf 5 (.copy (desc 0x10000 8) (desc 0x18000 8) 0 0 km) with chunks := n }
def localBoard (n : Nat) (km : Option Nat) : State := withInput (.nums hart.reqid 5 0) (board { hart with transfers := [localCopy n km] })

/-- RequesterSteps, copies within the device: of one chunk, and the first of two with a chunk mask. -/
theorem witness_RequesterSteps_copies :
    ∀ p ∈ [(1, none), (2, some 1)], (localBoard p.1 p.2).cur.transfer 5 = some (localCopy p.1 p.2) ∧ (localCopy p.1 p.2).done = [] ∧
      (localBoard p.1 p.2).chunkReady (localCopy p.1 p.2) (desc 0x10000 8) (desc 0x18000 8) 0 = true ∧
      (localBoard p.1 p.2).chunkAhead (localCopy p.1 p.2) (desc 0x10000 8) (desc 0x18000 8) 0 = [] ∧
      ∃ u, (localBoard p.1 p.2).localChunk (localCopy p.1 p.2) (desc 0x10000 8) (desc 0x18000 8) p.2 0 = .ok u ∧ u.cur.reqid = hart.reqid ∧
        u.cur.run = .running ∧ u.cur.transfers = (localBoard p.1 p.2).cur.transfers := by
  have step : ∀ n km, chunkWith ((localBoard n km).localChunk (localCopy n km) (desc 0x10000 8) (desc 0x18000 8) km 0) (fun u =>
      decide (u.cur.reqid = hart.reqid ∧ u.cur.run = .running ∧ u.cur.transfers = (localBoard n km).cur.transfers)) = true →
      ∃ u, (localBoard n km).localChunk (localCopy n km) (desc 0x10000 8) (desc 0x18000 8) km 0 = .ok u ∧ u.cur.reqid = hart.reqid ∧
        u.cur.run = .running ∧ u.cur.transfers = (localBoard n km).cur.transfers := by
    intro n km h
    obtain ⟨u, e, k⟩ := chunk_elim h
    exact ⟨u, e, of_decide_eq_true k⟩
  intro p hp
  simp only [List.mem_cons, List.not_mem_nil, or_false] at hp
  rcases hp with rfl | rfl <;> exact ⟨rfl, rfl, by decide +kernel, by decide +kernel, step _ _ (by decide +kernel)⟩

/-- A remote addition of the hart under tag 4, sent `n` times, and a remote copy under tag 5, sent once. -/
def flightOf (n : Nat) : Flight := { chunk := 0, sends := n, next := 0, interval := 4000000, status := 0, bytes := [], pois := [] }
def remoteOp (n : Nat) : Transfer := { transferOf 4 (.remote 0 3 false 99 0 0 0 9) with flights := [flightOf n], expinc := some 1 }
def remoteCopy (side : Nat) (dst : List Byte) : Transfer :=
  { transferOf 5 (.copy (desc 0x10000 8) dst side 99 none) with flights := [flightOf 1], expinc := some 1 }
def known99 (s : State) : State := s.setHub (fun h => { h with incarnations := SMap.put [] 99 1 })
def answerOf (st : Nat) : RemoteResponse :=
  { src := 99, reqid := hart.reqid, serial := 0, incarn := 1, status := st, floorseen := 0, cause := 0, result := 7 }
def answered (n st : Nat) : State := withInput (.response (answerOf st)) (known99 (board { hart with transfers := [remoteOp n] }))

/-- RequesterSteps, responses: one of each status to an addition; a due request sent once, and 16 times. -/
theorem witness_RequesterSteps_responses :
    (∀ st ∈ [0, 2, 3, 4, 5, 6, 8], (answered 1 st).input = .response (answerOf st) ∧ (answered 1 st).cur.reqid = (answerOf st).reqid ∧
      (answered 1 st).cur.run = .running ∧ (answered 1 st).findSerial (answerOf st).reqid (answerOf st).serial = some (remoteOp 1) ∧
      (answered 1 st).incarnationChanged (answerOf st).src (answerOf st).incarn (answerOf st).status = false ∧ (answered 1 st).cur.beacons = []) ∧
    (∀ n ∈ [1, 16], let due := withInput (.nums hart.reqid 0 0) (answered n 0)
      due.input = .nums due.cur.reqid (remoteOp n).serial.toNat 0 ∧ due.findSerial due.cur.reqid (remoteOp n).serial = some (remoteOp n) ∧
      (remoteOp n).flights = [flightOf n] ∧ (flightOf n).chunk = 0 ∧ (flightOf n).next ≤ due.clk ∧ due.cur.run = .running ∧
      (∀ y ∈ due.cur.transfers, y.tag = (remoteOp n).tag → y = remoteOp n)) := by
  decide +kernel

/-- RequesterSteps, beacons and probes: a due probe; a beacon tick due and not; an acknowledgement and a probe answer. -/
theorem witness_RequesterSteps_beacons :
    let probe := withInput (.nums 99 0 1) (board.setHub (fun h => { h with probes := [(99, 1, 0, 4000000, 7)] }))
    let fp : FloorPacket := { src := 99, reqid := hart.reqid, floor := 1, incarn := 2, sent := 0, reply := 0 }
    let heard := withInput (.floor fp) probe
    let tick := { board { hart with beacons := [(99, 0)] } with clk := 100000000 }
    (probe.input = .nums 99 0 1 ∧ probe.hub.probes.find? (fun y => y.1 == 99) = some (99, 1, 0, 4000000, 7) ∧ 0 ≤ probe.clk) ∧
    (tick.hub.beaconed < tick.clk / 100000000 ∧ (99, 0) ∈ tick.cur.beacons ∧ board.clk / 100000000 ≤ board.hub.beaconed) ∧
    (heard.input = .floor fp ∧ heard.ctx? fp.reqid = some hart ∧ noTransfers heard = true ∧ heard.hub.probes.any (fun y => y.1 == fp.src) = true) := by
  decide +kernel

/-- Data for the last chunk of a remote copy, at the requester. -/
def copyAnswerPacket (chunk : Nat) : CopyPacket := ⟨99, hart.reqid, 0, chunk, 1, 0, 0, 0, List.replicate 64 0, 0, 0, [], [1, 2, 3, 4, 5, 6, 7, 8]⟩
def copyArrives (x : Transfer) (chunk : Nat) : State :=
  withInput (.copy (copyAnswerPacket chunk)) (known99 (board { hart with transfers := [x] }))

/-- RequesterSteps, remote copies: the last chunk as data and as an acknowledgement; data of a device register whose turn it is not; a chunk to be
sent again. -/
theorem witness_RequesterSteps_remote :
    let x := remoteCopy 1 (desc 0x18000 8)
    let dev := { remoteCopy 1 (desc64 0xC200_0000 1024) with chunks := 2 }
    let s := copyArrives x 0
    let again := withInput (.nums hart.reqid 5 0) s
    (∀ side ∈ [1, 2], let y := remoteCopy side (desc 0x18000 8)
      let t := copyArrives y 0
      t.input = .copy (copyAnswerPacket 0) ∧ t.cur.reqid = hart.reqid ∧ t.cur.run = .running ∧
      t.findSerial hart.reqid 0 = some y ∧ 0 < y.chunks ∧ y.done.contains 0 = false ∧ t.incarnationChanged 99 1 0 = false ∧ y.done.length + 1 = y.chunks ∧ y.failing = none) ∧
    (s.received 99 (copyFlits (copyAnswerPacket 0))).devTurn x 0 = true ∧
    (∃ u, writeChunk (engineUnits s.cur) x.ptroot hart.reqid ((s.received 99 (copyFlits (copyAnswerPacket 0))).ownWaiter x.tag 0) (pubCode x.tag 0 0) (desc 0x18000 8) 0 [1, 2, 3, 4, 5, 6, 7, 8]
      (piecesBad 8 []) (s.received 99 (copyFlits (copyAnswerPacket 0))) = .ok ((), u) ∧ u.cur.reqid = hart.reqid ∧ u.cur.run = .running ∧
        u.cur.transfers = s.cur.transfers ∧ u.cur.beacons = s.cur.beacons) ∧
    ((copyArrives dev 1).findSerial hart.reqid 0 = some dev ∧ 1 < dev.chunks ∧ dev.done.contains 1 = false ∧
      ((copyArrives dev 1).received 99 (copyFlits (copyAnswerPacket 1))).devTurn dev 1 = false) ∧
    (again.cur.transfer 5 = some x ∧ x.expinc.isSome = true ∧ x.flights = [flightOf 1] ∧ (flightOf 1).chunk = 0 ∧ (flightOf 1).next ≤ again.clk ∧
      (flightOf 1).sends < 16 ∧ (∀ z ∈ again.cur.transfers, z.tag = 5 → z = x) ∧ ∀ n < x.chunks, n ∈ x.done ∨ n = 0) := by
  intro x dev s again
  refine ⟨by decide +kernel, by simp [State.devTurn], ?_, by decide +kernel, by decide +kernel⟩
  obtain ⟨⟨_, u⟩, h, k⟩ := ok_elim (o := writeChunk (engineUnits s.cur) x.ptroot hart.reqid
    ((s.received 99 (copyFlits (copyAnswerPacket 0))).ownWaiter x.tag 0) (pubCode x.tag 0 0)
    (desc 0x18000 8) 0 [1, 2, 3, 4, 5, 6, 7, 8] (piecesBad 8 []) (s.received 99 (copyFlits (copyAnswerPacket 0)))) (p := fun r =>
      decide (r.2.cur.reqid = hart.reqid ∧ r.2.cur.run = .running ∧ r.2.cur.transfers = s.cur.transfers ∧ r.2.cur.beacons = s.cur.beacons)) (by decide +kernel)
  exact ⟨u, h, of_decide_eq_true k⟩

/-- An owner: job 5 with the tables of the tests, a record of requester 7, `bs` at 0x10000. -/
def ownerWith (bs : List Byte) : State :=
  ((board (regs [])).setHub (fun h => { h with
    entities := h.entities ++ [{ Entity.resident 3 with key := 0x5_0000_0000_0000, ptroot := 0x1000 }],
    records := [{ reqid := 7, floor := 0, last := 0 }] })).poke 0x10000 bs

/-- A request of each kind by requester 7 of device 99, at `addr`. -/
def requestAt (kind : Nat) (addr : BitVec 57) : RemoteRequest :=
  ⟨99, kind, 3, true, 7, 99, 4, 0, 1, 0, 5, addr, 6, 0⟩

/-- The owner after a request has raised its floor. -/
def raisedBy (s : State) (p : RemoteRequest) : State := (s.received p.src (Config.packetFlits 0)).raiseFloor p.reqid p.floor

def doneWith (o : Executed) (q : RemoteResult → State → Bool) : Bool :=
  match o with
  | .done r t => q r t
  | .waits _ => false

theorem done_elim {o : Executed} {q : RemoteResult → State → Bool} (h : doneWith o q = true) : ∃ r t, o = .done r t ∧ q r t = true := by
  cases o with
  | done r t => exact ⟨r, t, rfl, h⟩
  | waits t => cases h

def waitsOn (o : Executed) : Bool :=
  match o with
  | .done _ _ => false
  | .waits _ => true

theorem waits_elim {o : Executed} (h : waitsOn o = true) : ∃ t, o = .waits t := by
  cases o with
  | done r t => cases h
  | waits t => exact ⟨t, rfl⟩

/-- The conditions of a request that the owner knows. -/
def knownRequest (s : State) (p : RemoteRequest) : Bool :=
  s.input == .request p && !decide (2000000 < s.time.toNat - p.sent.toNat) && s.talusRecord p.reqid == some { reqid := 7, floor := 0, last := 0 } &&
    !below p.serial (if below 0 p.floor then p.floor else 0)

theorem received_hub (s : State) (src n : Nat) : (s.received src n).hub = s.hub := by
  unfold State.received
  split <;> rfl

/-- A result of another requester. -/
def otherResult : TalusResult := { reqid := 8, serial := 0, status := 0, cause := 0, result := 0 }

/-- An owner whose result table is full. -/
def fullOwner : State :=
  withInput (.request (requestAt 0 0x10000)) ((ownerWith []).setHub (fun h => { h with results := List.replicate 65536 otherResult }))

theorem fullOwner_use : 65536 ≤ (raisedBy fullOwner (requestAt 0 0x10000)).talusUse ∧
    (raisedBy fullOwner (requestAt 0 0x10000)).hub.results.find? (fun e => e.reqid == 7 && e.serial == 4) = none := by
  have hr : (fullOwner.received 99 (Config.packetFlits 0)).talusRecord 7 = some { reqid := 7, floor := 0, last := 0 } := by
    rw [State.talusRecord, received_hub]
    rfl
  have hs : (raisedBy fullOwner (requestAt 0 0x10000)).hub.results = List.replicate 65536 otherResult := by
    simp only [raisedBy, requestAt, State.raiseFloor, hr, State.setHub, received_hub]
    simp only [fullOwner, withInput, State.setHub, List.filter_eq_self]
    intro e he
    rw [List.eq_of_mem_replicate he]
    rfl
  constructor
  · rw [State.talusUse, hs, List.length_replicate]
    omega
  · rw [hs, List.find?_eq_none]
    intro e he
    rw [List.eq_of_mem_replicate he]
    decide

/-- OwnerSteps, requests: late; repeated; new of each kind; one that meets a busy row group; of another incarnation; to a full table; of no job. -/
theorem witness_OwnerSteps_requests :
    let s := fun (p : RemoteRequest) => withInput (.request p) (ownerWith [])
    let late := { s (requestAt 0 0x10000) with clk := 2000001000 }
    let busy := openRow 0 2 (s (requestAt 0 0x4001_0000))
    let e : TalusResult := { reqid := 7, serial := 4, status := 0, cause := 0, result := 9 }
    let again := (s (requestAt 0 0x10000)).setHub (fun h => { h with results := [e] })
    let same := fun (e : TalusResult) => e.reqid == 7 && e.serial == 4
    let old := { requestAt 0 0x10000 with expinc := 9 }
    (late.input = .request (requestAt 0 0x10000) ∧ 2000000 < late.time.toNat - (requestAt 0 0x10000).sent.toNat) ∧
    (∀ kind ∈ [0, 1, 2, 3, 4, 5, 6], let p := requestAt kind 0x10000
      knownRequest (s p) p = true ∧ (raisedBy (s p) p).hub.results.find? same = none ∧ p.expinc = (s p).hub.incarnation ∧
        (raisedBy (s p) p).talusUse < 65536 ∧ ∃ r u, (raisedBy (s p) p).executeRemote p = .done r u) ∧
    (knownRequest again (requestAt 0 0x10000) = true ∧ (raisedBy again (requestAt 0 0x10000)).hub.results.find? same = some e) ∧
    (knownRequest busy (requestAt 0 0x4001_0000) = true ∧ (raisedBy busy (requestAt 0 0x4001_0000)).hub.results.find? same = none ∧
      (raisedBy busy (requestAt 0 0x4001_0000)).talusUse < 65536 ∧
      ∃ u, (raisedBy busy (requestAt 0 0x4001_0000)).executeRemote (requestAt 0 0x4001_0000) = .waits u) ∧
    (knownRequest (s old) old = true ∧ (raisedBy (s old) old).hub.results.find? same = none ∧ old.expinc ≠ (s old).hub.incarnation) ∧
    (65536 ≤ (raisedBy fullOwner (requestAt 0 0x10000)).talusUse ∧ (raisedBy fullOwner (requestAt 0 0x10000)).hub.results.find? same = none ∧
      knownRequest fullOwner (requestAt 0 0x10000) = true ∧ (requestAt 0 0x10000).expinc = fullOwner.hub.incarnation) ∧ board.jobRoot 5 = none := by
  intro s late busy e again same old
  refine ⟨by decide +kernel, fun kind hk => ?_, by decide +kernel, ?_, by decide +kernel, ⟨fullOwner_use.1, fullOwner_use.2, by decide +kernel⟩, by decide +kernel⟩
  · have h : ∀ kind ∈ [0, 1, 2, 3, 4, 5, 6], let p := requestAt kind 0x10000
      (knownRequest (s p) p && ((raisedBy (s p) p).hub.results.find? same).isNone && decide (p.expinc = (s p).hub.incarnation) &&
        decide ((raisedBy (s p) p).talusUse < 65536)) = true ∧ doneWith ((raisedBy (s p) p).executeRemote p) (fun _ _ => true) = true := by decide +kernel
    obtain ⟨h1, h2⟩ := h kind hk
    simp only [Bool.and_eq_true, decide_eq_true_eq, Option.isNone_iff_eq_none] at h1
    obtain ⟨r, u, hu, _⟩ := done_elim h2
    exact ⟨h1.1.1.1, h1.1.1.2, h1.1.2, h1.2, r, u, hu⟩
  · exact ⟨by decide +kernel, by decide +kernel, by decide +kernel, waits_elim (by decide +kernel)⟩

/-- The leaf and the state of a translation by the remote-operation logic that serves its access at once. -/
def remoteServed (s : State) (p : RemoteRequest) (acc : AccKindT) (n : Nat) (write : Bool) : Option (Leaf × State × State) :=
  match s.translateAt [536] 0x1000 (requestVa p) acc with
  | .error _ => none
  | .ok (leaf, t) => (servesAgent t p.reqid (talusWaiter p.reqid p.serial) leaf n write).map (fun u => (leaf, t, u))

/-- OwnerSteps, what a request does: a word in CACHED and in ROW memory for each kind; a queue header that is not aligned, bad, of a full queue and of
one with room. -/
theorem witness_OwnerSteps_memory :
    let queue := fun (tail cap : Nat) => ownerWith (leBytes 0 8 ++ leBytes tail 8 ++ leBytes cap 1)
    (∀ p ∈ [requestAt 0 0x10000, requestAt 1 0x10000, requestAt 2 0x10000, requestAt 3 0x10000, { requestAt 3 0x10000 with u := false },
        requestAt 5 0x10000, requestAt 6 0x4001_0000],
      p.kind ≠ 4 ∧ (ownerWith []).jobRoot p.job = some 0x1000 ∧ (ownerWith []).MemInv ∧ ∃ leaf t u,
        (ownerWith []).translateAt [536] 0x1000 (requestVa p) (if p.kind = 5 then .read else if p.kind = 6 then .write else .readWrite) = .ok (leaf, t) ∧
        t.ServesAgent p.reqid (talusWaiter p.reqid p.serial) leaf 8 (p.kind != 5) u ∧ u.Settled leaf ∧ inSideTable leaf.pa 8 = false ∧
        poisoned t.poison leaf.pa 8 = false ∧ ∀ m ∈ u.traverses, m.1 = p.reqid → m.2.2.1 = false) ∧
    (requestVa (requestAt 4 0x10008)).toNat % 64 ≠ 0 ∧ (requestVa (requestAt 4 0x10000)).toNat % 64 = 0 ∧
    (∀ x ∈ [(0, 30), (1, 0), (0, 0)], ∃ leaf t, (queue x.1 x.2).translateAt [536] 0x1000 0x10000 .readWrite = .ok (leaf, t) ∧ leaf.mt = mtCached ∧
      t.unpublished 7 leaf 64 = false ∧ poisoned t.poison leaf.pa 64 = false ∧ t.num leaf.pa 8 = 0 ∧ t.num (leaf.pa + 8) 8 = x.1 ∧
      (t.noteUse leaf.pa leaf.mt).conflict.contains (leaf.pa / 4096) = false ∧ inSideTable leaf.pa 64 = false ∧
      headerOk leaf.pa (t.bytes leaf.pa 64) = decide (x.2 = 0) ∧ (x.2 = 0 → 2 ^ t.num (leaf.pa + 16) 1 = 1)) ∧
    (∃ leaf t slot u, (queue 0 0).translateAt [536] 0x1000 0x10000 .readWrite = .ok (leaf, t) ∧
      (t.noteUse leaf.pa leaf.mt).translateAt [536] 0x1000 (0x10000 + BitVec.ofNat 64 (64 + 8 * (0 % 1))) .readWrite = .ok (slot, u) ∧
      slot.mt = mtCached ∧ u.unpublished 7 slot 8 = false ∧ inSideTable slot.pa 8 = false ∧ leaf.pa + 16 ≤ slot.pa) := by
  intro queue
  have word : ∀ p : RemoteRequest, has (remoteServed (ownerWith []) p (if p.kind = 5 then .read else if p.kind = 6 then .write else .readWrite) 8 (p.kind != 5))
      (fun x => soundAt x.2.2 x.1 8 && !inSideTable x.1.pa 8 && !poisoned x.2.1.poison x.1.pa 8 && x.2.2.traverses.isEmpty) = true → ∃ leaf t u,
        (ownerWith []).translateAt [536] 0x1000 (requestVa p) (if p.kind = 5 then .read else if p.kind = 6 then .write else .readWrite) = .ok (leaf, t) ∧
        t.ServesAgent p.reqid (talusWaiter p.reqid p.serial) leaf 8 (p.kind != 5) u ∧ u.Settled leaf ∧ inSideTable leaf.pa 8 = false ∧
        poisoned t.poison leaf.pa 8 = false ∧ ∀ m ∈ u.traverses, m.1 = p.reqid → m.2.2.1 = false := by
    intro p h
    obtain ⟨⟨leaf, t, u⟩, e, k⟩ := has_elim h
    simp only [Bool.and_eq_true, Bool.not_eq_true', List.isEmpty_iff] at k
    unfold remoteServed at e
    split at e
    · cases e
    · rename_i l t' hl
      obtain ⟨v, hv, e⟩ := Option.map_eq_some_iff.1 e
      cases e
      exact ⟨leaf, t, u, hl, servesAgent_of hv, (sound_of k.1.1.1).2, k.1.1.2, k.1.2, by simp [k.2]⟩
  refine ⟨fun p hp => ?_, by decide +kernel, by decide +kernel, fun x hx => ?_, ?_⟩
  · have h : ∀ p ∈ [requestAt 0 0x10000, requestAt 1 0x10000, requestAt 2 0x10000, requestAt 3 0x10000, { requestAt 3 0x10000 with u := false },
        requestAt 5 0x10000, requestAt 6 0x4001_0000], p.kind ≠ 4 ∧ (ownerWith []).jobRoot p.job = some 0x1000 ∧ Memory.wf (ownerWith []).mem = true ∧
        has (remoteServed (ownerWith []) p (if p.kind = 5 then .read else if p.kind = 6 then .write else .readWrite) 8 (p.kind != 5))
          (fun x => soundAt x.2.2 x.1 8 && !inSideTable x.1.pa 8 && !poisoned x.2.1.poison x.1.pa 8 && x.2.2.traverses.isEmpty) = true := by decide +kernel
    obtain ⟨h1, h2, h3, h4⟩ := h p hp
    exact ⟨h1, h2, h3, word p h4⟩
  · have h : ∀ x ∈ [(0, 30), (1, 0), (0, 0)], okWith ((queue x.1 x.2).translateAt [536] 0x1000 0x10000 .readWrite) (fun r => decide (r.1.mt = mtCached ∧
      r.2.unpublished 7 r.1 64 = false ∧ poisoned r.2.poison r.1.pa 64 = false ∧ r.2.num r.1.pa 8 = 0 ∧ r.2.num (r.1.pa + 8) 8 = x.1 ∧
      (r.2.noteUse r.1.pa r.1.mt).conflict.contains (r.1.pa / 4096) = false ∧ inSideTable r.1.pa 64 = false ∧
      headerOk r.1.pa (r.2.bytes r.1.pa 64) = decide (x.2 = 0) ∧ (x.2 = 0 → 2 ^ r.2.num (r.1.pa + 16) 1 = 1))) = true := by decide +kernel
    obtain ⟨⟨leaf, t⟩, e, k⟩ := ok_elim (h x hx)
    exact ⟨leaf, t, e, of_decide_eq_true k⟩
  · obtain ⟨⟨leaf, t⟩, e, k⟩ := ok_elim (o := (queue 0 0).translateAt [536] 0x1000 0x10000 .readWrite) (p := fun r =>
      okWith ((r.2.noteUse r.1.pa r.1.mt).translateAt [536] 0x1000 (0x10000 + BitVec.ofNat 64 (64 + 8 * (0 % 1))) .readWrite) (fun q => decide (q.1.mt = mtCached ∧
        q.2.unpublished 7 q.1 8 = false ∧ inSideTable q.1.pa 8 = false ∧ r.1.pa + 16 ≤ q.1.pa))) (by decide +kernel)
    obtain ⟨⟨slot, u⟩, e2, k2⟩ := ok_elim k
    exact ⟨leaf, t, slot, u, e, e2, of_decide_eq_true k2⟩

/-- OwnerSteps, the rest: a floor beacon and a probe; a record idle for 2 ms; the first chunk of a remote copy, read and written, and one taken
already. -/
theorem witness_OwnerSteps_copies :
    let s0 := ownerWith []
    let z : TalusRecord := { reqid := 7, floor := 0, last := 0 }
    let fp : FloorPacket := { src := 99, reqid := 7, floor := 2, incarn := 0, sent := 0, reply := 99 }
    let heard := withInput (.floor fp) s0
    let idle := withInput (.nums 7 0 0) { s0 with clk := 2000000000 }
    let q : CopyPacket := ⟨99, 7, 4, 0, 1, 0, 0, 0, desc 0x10000 8, 5, 0, [], [1, 2, 3, 4, 5, 6, 7, 8]⟩
    let copy := withInput (.copy q) s0
    let taken := copy.setHub (fun h => { h with windows := [{ reqid := 7, serial := 4, low := 1, map := 0, buffer := none }] })
    let opened := ((copy.received q.src (copyFlits q)).raiseFloor q.reqid q.floor).setHub (fun h => { h with
      windows := h.windows ++ [{ reqid := 7, serial := 4, low := 0, map := 0, buffer := none }] })
    let hears := fun (t : State) => decide (t.input = .copy q ∧ ¬2000000 < (t.time.extractLsb' 0 32 - q.sent).toNat ∧ t.talusRecord 7 = some z ∧
      below 4 0 = false ∧ q.incarn = t.hub.incarnation ∧ t.jobRoot q.job = some 0x1000)
    (heard.input = .floor fp ∧ heard.time.toNat - fp.sent.toNat ≤ 2000000 ∧ heard.talusRecord 7 = some z ∧ heard.hub.records = [z]) ∧
    (idle.talusRecord idle.input.n1 = some z ∧ (∀ e ∈ idle.hub.results, e.reqid ≠ 7) ∧ (∀ e ∈ idle.hub.windows, e.reqid ≠ 7) ∧ z.last + 2000000000 ≤ idle.clk) ∧
    (hears copy = true ∧ copy.hub.windows = [] ∧ copy.hub.results.length < 65536 ∧ q.chunk < 64 ∧
      opened.chunkDev 0x1000 q.desc 0 .read = false ∧ opened.chunkDev 0x1000 q.desc 0 .write = false) ∧
    (∃ bs bad u, readChunk [536] 0x1000 7 (copyWaiter q) q.desc 0 opened = .ok ((bs, bad), u)) ∧
    (∃ u, writeChunk [536] 0x1000 7 (copyWaiter q) (opened.serialTag 7 4 0) q.desc 0 q.data (piecesBad 8 q.poison) opened = .ok ((), u)) ∧
    (hears taken = true ∧ has (((taken.received 99 (copyFlits q)).raiseFloor 7 0).window q) (fun w => q.chunk < w.low + 64 && w.taken q.chunk) = true) := by
  intro s0 z fp heard idle q copy taken opened hears
  refine ⟨by decide +kernel, by decide +kernel, by decide +kernel, ?_, ?_, by decide +kernel⟩
  · obtain ⟨⟨⟨bs, bad⟩, u⟩, h, _⟩ := ok_elim (o := readChunk [536] 0x1000 7 (copyWaiter q) q.desc 0 opened) (p := fun _ => true) (by decide +kernel)
    exact ⟨bs, bad, u, h⟩
  · obtain ⟨⟨_, u⟩, h, _⟩ := ok_elim (o := writeChunk [536] 0x1000 7 (copyWaiter q) (opened.serialTag 7 4 0) q.desc 0 q.data (piecesBad 8 q.poison) opened)
      (p := fun _ => true) (by decide +kernel)
    exact ⟨u, h⟩

/-- A queue-pair entry of job `job` whose remote end is 10.0.0.2 (R403). -/
def qpEntry (job state naked : Nat) : List Byte :=
  leBytes job 2 ++ leBytes state 1 ++ leBytes 0 1 ++ leBytes 7 4 ++ leBytes 0 8 ++ leBytes 0x0A00_0002 16 ++ leBytes 0 3 ++ leBytes naked 1 ++ leBytes 0 28

/-- A machine whose host port runs: queue pairs ready, in error, unused, of a dead job and ready with a NAK out, regions 77 in CACHED and 78 in ROW
memory of job 5. -/
def hostBoard : State :=
  (((board.setHost (fun h => { h with link := true, en := true, ip4 := 0x0A00_0001, qptBase := 0x50000, rgtBase := 0x60000 })).setHub (fun h => { h with
    entities := h.entities ++ [{ Entity.resident 3 with key := 0x5_0000_0000_0000, ptroot := 0x1000 }] })).poke 0x50000
      (qpEntry 5 1 0 ++ qpEntry 5 2 0 ++ qpEntry 5 0 0 ++ qpEntry 9 1 0 ++ qpEntry 5 1 1)).poke 0x60000
      (leBytes (0x10000 + 0x1000 * 2 ^ 64 + 77 * 2 ^ 128 + 5 * 2 ^ 160 + 7 * 2 ^ 176) 32 ++
        leBytes (0x4001_0000 + 0x1000 * 2 ^ 64 + 78 * 2 ^ 128 + 5 * 2 ^ 160 + 7 * 2 ^ 176) 32)

/-- A packet from 10.0.0.2 to 10.0.0.1 for queue pair 0. -/
def rocePkt (rkey va : Nat) (bs : List Byte) : RocePacket :=
  { frame := 1000, v6 := false, src := 0x0A00_0002, dst := 0x0A00_0001, qp := 0, psn := 0, first := true, last := true, va := BitVec.ofNat 64 va,
    rkey := BitVec.ofNat 32 rkey, len := bs.length, payload := bs, ecn := false }

/-- The machine when a packet arrives. -/
def roceAt (p : RocePacket) (s : State := hostBoard) : State := withInput (.roce p) s

/-- The conditions that HostPortSteps calls `fits` and `fromPeer`. -/
def roceFits (s : State) (p : RocePacket) : Bool := decide (p.frame ≤ 9216) && s.addressed p
def roceFromPeer (s : State) (p : RocePacket) : Bool := (s.qpPeer p.qp).v6 == p.v6 && (s.qpPeer p.qp).ip == p.src

/-- Those that it calls `takes`, and `request`. -/
def roceTakes (s : State) (p : RocePacket) : Bool :=
  s.input == .roce p && s.host.link && s.host.en && roceFits s p && roceFromPeer s p && s.qpState p.qp == 1 && s.jobRoot (s.qpJob p.qp) == some 0x1000
def hostFree (s : State) : Bool := s.host.waiting.isEmpty && decide (s.host.pausedUntil ≤ s.clk)
def roceRequested (s : State) (p : RocePacket) : Bool :=
  roceTakes s p && hostFree s && !p.ecn && decide (p.payload.length ≤ 4096) && !(s.waitingIn.any (fun e => isRoceOf e.2 p.qp))

/-- HostPortSteps, frames: the link both ways; a queue pair whose rate may rise; packets while EN = 0, too long, for another address, from another
sender, of an unused queue pair, of a dead job and of a queue pair in error. -/
theorem witness_HostPortSteps_frames :
    let p := rocePkt 77 0x10010 [1, 2, 3, 4]
    let s := roceAt p
    let slow := { hostBoard with host := { hostBoard.host with qps := SMap.put [] 1 { QueuePair.blank with rate := 2 ^ 31 } }, clk := 55000000 }
    let off := s.setHost (fun h => { h with en := false })
    let foreign : RocePacket := { p with src := 9 }
    (board.host.link = false ∧ s.host.link = true ∧ hostFree s = true ∧ s.host.en = true ∧ s.input = .roce p ∧ roceFits s p = true) ∧
    ((slow.qp 1).rate < 2 ^ 32 ∧ (slow.qp 1).rateAt + 55000000 ≤ slow.clk) ∧
    (off.host.en = false ∧ hostFree off = true) ∧
    (∀ x ∈ [{ p with frame := 9217 }, { p with dst := 9 }], roceFits (roceAt x) x = false) ∧
    (roceFromPeer (roceAt foreign) foreign = false ∧ (roceAt foreign).qpState 0 = 1 ∧ (roceAt foreign).jobRoot ((roceAt foreign).qpJob 0) = some 0x1000) ∧
    (s.qpState 0 = 1 ∧ s.jobRoot (s.qpJob 0) = some 0x1000 ∧ s.qpState 2 = 0 ∧ s.jobRoot (s.qpJob 3) = none ∧ s.qpState 1 = 2 ∧ s.jobRoot (s.qpJob 1) = some 0x1000 ∧
      roceFits s { p with qp := 1 } = true) := by
  decide +kernel

/-- A hub whose mailbox is full. -/
def fullMailbox : State :=
  roceAt (rocePkt 77 0x10010 [1, 2, 3, 4]) (hostBoard.setHub (fun h => { h with mailbox := List.replicate 4096 { job := 5, seq := 0, arrival := 0, payload := [] } }))

theorem fullMailbox_length : 4096 ≤ fullMailbox.hub.mailbox.length := by
  rw [show fullMailbox.hub.mailbox = List.replicate 4096 { job := 5, seq := 0, arrival := 0, payload := [] } from rfl, List.length_replicate]

/-- HostPortSteps, requests: unsupported ones, with an ECN mark and under a pause; a payload past the path MTU; packets ahead of EPSN, with a NAK out
and none, and behind it; whole messages, parts of one, a full mailbox and 241 bytes; accesses that a region allows and that none does. -/
theorem witness_HostPortSteps_requests :
    let p := rocePkt 77 0x10010 [1, 2, 3, 4]
    let marked : RocePacket := { p with ecn := true }
    let paused := (roceAt p).setHost (fun h => { h with pausedUntil := 2000000 })
    let long : RocePacket := rocePkt 77 0x10010 (List.replicate 4097 1)
    let ahead : RocePacket := { p with psn := 1 }
    let nakedAhead : RocePacket := { ahead with qp := 4 }
    let behind : RocePacket := { p with psn := 0xFFFFFF }
    let begun := (roceAt { p with first := false }).setQp 0 (fun x => { x with send := [9] })
    let refused : RocePacket := rocePkt 79 0x10010 [1, 2, 3, 4]
    let k := fun (s : State) => (s.hpCount 0).setNaked 0 false
    (roceTakes (roceAt p) p = true ∧ hostFree (roceAt p) = true ∧ (roceAt p).MemInv ∧ roceRequested (roceAt p) p = true ∧ (roceAt p).qpEpsn 0 = 0) ∧
    (roceTakes (roceAt marked) marked = true ∧ marked.ecn = true ∧ ((roceAt marked).qp 0).lastCnp = none) ∧
    (roceTakes paused p = true ∧ paused.clk < paused.host.pausedUntil) ∧
    (roceTakes (roceAt long) long = true ∧ 4096 < long.payload.length) ∧
    (roceRequested (roceAt ahead) ahead = true ∧ (ahead.psn - (roceAt ahead).qpEpsn 0).toNat = 1 ∧ (roceAt ahead).naked 0 = false) ∧
    (roceRequested (roceAt nakedAhead) nakedAhead = true ∧ (nakedAhead.psn - (roceAt nakedAhead).qpEpsn 4).toNat = 1 ∧ (roceAt nakedAhead).naked 4 = true) ∧
    (roceRequested (roceAt behind) behind = true ∧ 2 ^ 23 ≤ (behind.psn - (roceAt behind).qpEpsn 0).toNat ∧
      ((roceAt behind).hpCount 0).regionAllows 5 behind.rkey behind.va behind.len false = true) ∧
    (p.payload.length ≤ 240 ∧ (roceAt p).hub.mailbox.length < 4096 ∧ roceRequested (roceAt { p with last := false }) { p with last := false } = true ∧
      roceRequested begun { p with first := false } = true ∧ (begun.qp 0).send.length + p.payload.length ≤ 240 ∧ begun.qpEpsn 0 = 0) ∧
    (roceRequested fullMailbox p = true ∧ fullMailbox.qpEpsn 0 = 0 ∧ 240 < (rocePkt 77 0x10010 (List.replicate 241 1)).payload.length ∧
      roceRequested (roceAt (rocePkt 77 0x10010 (List.replicate 241 1))) (rocePkt 77 0x10010 (List.replicate 241 1)) = true) ∧
    (∀ w ∈ [true, false], (k (roceAt p)).regionAllows 5 p.rkey p.va p.len w = true) ∧
    (∀ w ∈ [true, false], (k (roceAt refused)).regionAllows 5 refused.rkey refused.va refused.len w = false) ∧
    p.payload.length = p.len := by
  unfold State.MemInv
  decide +kernel

/-- Whether a body waits for a group. -/
def holdsWith {α : Type} (o : Except Stop α) : Bool :=
  match o with
  | .error (.arrive _) => true
  | _ => false

theorem holds_elim {α : Type} {o : Except Stop α} (h : holdsWith o = true) : ∃ u, o = .error (.arrive u) := by
  unfold holdsWith at h
  split at h
  · exact ⟨_, rfl⟩
  · cases h

/-- HostPortSteps, accesses: a WRITE and a READ that complete, one that waits for a group with another row open, and a duplicate READ. -/
theorem witness_HostPortSteps_accesses :
    let p := rocePkt 77 0x10010 [1, 2, 3, 4]
    let row := rocePkt 78 0x4001_0000 [1, 2, 3, 4]
    let k := fun (s : State) => (s.hpCount 0).setNaked 0 false
    let busy := openRow 0 2 (roceAt row)
    (∃ u, rdmaWrite 0 0x1000 0x10010 p.payload (k (roceAt p)) = .ok ((), u) ∧ u.host = ((roceAt p).hpCount 0).host ∧ u.clk = (roceAt p).clk) ∧
    (∃ bs u, rdmaRead 0 5 0x1000 0x10010 4 (k (roceAt p)) = .ok (bs, u) ∧ u.host = ((roceAt p).hpCount 0).host ∧ u.clk = (roceAt p).clk) ∧
    (∃ bs u, rdmaRead 0 5 0x1000 0x10010 4 ((roceAt p).hpCount 0) = .ok (bs, u) ∧ u.host = ((roceAt p).hpCount 0).host ∧ u.clk = (roceAt p).clk) ∧
    (roceRequested busy row = true ∧ busy.qpEpsn 0 = 0 ∧ (∀ w ∈ [true, false], (k busy).regionAllows 5 row.rkey row.va row.len w = true) ∧
      (∃ u, rdmaWrite 0 0x1000 0x4001_0000 row.payload (k busy) = .error (.arrive u)) ∧
      ∃ u, rdmaRead 0 5 0x1000 0x4001_0000 4 (k busy) = .error (.arrive u)) := by
  intro p row k busy
  have read : ∀ s : State, okWith (rdmaRead 0 5 0x1000 0x10010 4 s) (fun x => decide (x.2.host = ((roceAt p).hpCount 0).host ∧ x.2.clk = (roceAt p).clk)) = true →
      ∃ bs u, rdmaRead 0 5 0x1000 0x10010 4 s = .ok (bs, u) ∧ u.host = ((roceAt p).hpCount 0).host ∧ u.clk = (roceAt p).clk := by
    intro s h
    obtain ⟨⟨bs, u⟩, e, c⟩ := ok_elim h
    exact ⟨bs, u, e, of_decide_eq_true c⟩
  refine ⟨?_, read _ (by decide +kernel), read _ (by decide +kernel), by decide +kernel, by decide +kernel, by decide +kernel,
    holds_elim (by decide +kernel), holds_elim (by decide +kernel)⟩
  obtain ⟨⟨_, u⟩, e, c⟩ := ok_elim (o := rdmaWrite 0 0x1000 0x10010 p.payload (k (roceAt p)))
    (p := fun x => decide (x.2.host = ((roceAt p).hpCount 0).host ∧ x.2.clk = (roceAt p).clk)) (by decide +kernel)
  exact ⟨u, e, of_decide_eq_true c⟩

/-- Pages whose pieces do not meet, in plain memory. -/
def apart (leaves : List (Leaf × Nat × Nat)) : Bool :=
  match leaves with
  | [x, y] => decide (x.1.pa + x.2.2 ≤ y.1.pa) && decide (x.1.mt = y.1.mt) && decide (x.1.mt ≠ mtDev) && !inSideTable x.1.pa x.2.2 && !inSideTable y.1.pa y.2.2
  | _ => false

/-- HostPortSteps, bytes: a WRITE and a READ over a page boundary, found, served and apart, of sound pages not in conflict. -/
theorem witness_HostPortSteps_bytes :
    ∀ w ∈ [true, false], ∃ leaves u u1, rdmaLeaves 0x1000 0x10FFE 4 w hostBoard = .ok (leaves, u) ∧
      leaves.forM (fun x => rowAccessFor (hostWaiter 0) x.1 w) u = .ok ((), u1) ∧ u1.MemInv ∧
      (leaves.all (fun x => soundAt u1 x.1 x.2.2) && apart leaves) = true := by
  intro w hw
  have h : ∀ w ∈ [true, false], okWith (rdmaLeaves 0x1000 0x10FFE 4 w hostBoard) (fun r =>
      okWith (r.1.forM (fun x => rowAccessFor (hostWaiter 0) x.1 w) r.2) (fun q =>
        Memory.wf q.2.mem && (r.1.all (fun x => soundAt q.2 x.1 x.2.2) && apart r.1))) = true := by decide +kernel
  obtain ⟨⟨leaves, u⟩, e, k⟩ := ok_elim (h w hw)
  obtain ⟨⟨_, u1⟩, e1, k1⟩ := ok_elim k
  rw [Bool.and_eq_true] at k1
  exact ⟨leaves, u, u1, e, e1, k1.1, k1.2⟩

end Sys2Proof.Tests
end

