-- ==== Sys2Proof/Tests/WitnessVector.lean ====
section
/-! SUPPORT. For each statement of Obligations.lean with hypotheses, states and operands that meet them, clause by clause: rows and vectors. -/

set_option maxRecDepth 100000

namespace Sys2Proof.Tests

set_option Elab.async false

open Sys2Proof.Machine

/-- The machine with every group of the home bank open. -/
def opened (c : Ctx := hart) : State := rows 16 (board c)

/-- The same under a configuration. -/
def openedAs (vcfg : Word) (vl : Nat := 4) (frm : Word := 0) : State := opened { hart with vcfg := vcfg, vl := BitVec.ofNat 64 vl, frm := frm }

/-- A machine in which an access waits for the row that the memory controller holds open in group 1 of the home bank. -/
def wanted : State :=
  { (board (regs [(1, 0x4080_2000)])).setGroup 1 (fun g => { g with mc := some 5 }) with rowQueue := [{ group := 1, row := 5, who := 9, pc := 0 }] }

/-- RowCommands: an open of group 1 that every check passes, for reading and for writing; runs of one row at group 15 and of eight at group 8, open
and closed; the same while an access waits for another row of group 1. -/
theorem witness_RowCommands :
    (let f := F 2 33 1 0 0
     wanted.MemInv ∧ wanted.NoReplay ∧ wanted.NoTransfers ∧ ¬(∀ i < 1, wanted.mcWanted (wanted.homeKey (rowField f.d + i)) = false) ∧
       (∀ i ∈ [Instr.act f, .actn f, .ref (F 0 33 0 0), .refa (F 0 0 0 0)], ready i wanted = true) ∧ (wanted.homeGroup 1).row = none ∧
       (wanted.homeGroup 1).forcing = false ∧ vgOf wanted.cur.vcfg = 1) ∧
    (let s := board (regs [(1, 0x4080_2000)])
     s.MemInv ∧ s.NoReplay ∧ rowField (F 2 33 1 0 0).d % vgOf s.cur.vcfg = 0 ∧ vgOf s.cur.vcfg ≤ vgMax s.cur.lclass ∧
       (s.reg 1 + BitVec.ofInt 64 ((F 2 33 1 0 0).imm.toInt * 8192)).toNat % 8192 = 0 ∧
       (∃ ts u, rowTargets 1 (s.reg 1 + BitVec.ofInt 64 ((F 2 33 1 0 0).imm.toInt * 8192)) .read 1 0 s = .ok (ts, u) ∧ ts ≠ []) ∧
       (∃ ts u, rowTargets 1 (s.reg 1 + BitVec.ofInt 64 ((F 2 33 1 0 0).imm.toInt * 8192)) .write 1 0 s = .ok (ts, u) ∧ ts ≠ []) ∧
       (∀ i < 1, s.mcWanted (s.homeKey (1 + i)) = false) ∧ ready (.act (F 2 33 1 0 0)) s = true ∧ ready (.actn (F 2 33 1 0 0)) s = true) ∧
    (∀ p ∈ [(0x102, 47, 1), (0x132, 40, 8)], let s := openedAs (BitVec.ofNat 64 p.1)
     let f := F 0 p.2.1 0 0
     s.MemInv ∧ s.NoTransfers ∧ s.cur.home < 16 ∧ vgOf s.cur.vcfg = p.2.2 ∧ rowField f.d % p.2.2 = 0 ∧ rowField f.d + p.2.2 ≤ 16 ∧
       p.2.2 ≤ vgMax s.cur.lclass ∧ (∀ i < p.2.2, (s.group (s.homeKey (rowField f.d + i))).forced = false ∧
         (s.group (s.homeKey (rowField f.d + i))).forcing = false ∧ (s.group (s.homeKey (rowField f.d + i))).row.isSome = true) ∧
       ready (.wb f) s = true ∧ ready (.pre f) s = true ∧ ready (.prex f) s = true ∧ ready (.refa (F 0 0 0 0)) s = true ∧
       ∀ g < 16, s.mcWanted (s.homeKey g) = false) ∧
    (∀ p ∈ [(0x102, 47, 1), (0x132, 40, 8)], let s := board { hart with vcfg := BitVec.ofNat 64 p.1 }
     let f := F 0 p.2.1 0 0
     (∀ i < p.2.2, (s.group (s.homeKey (rowField f.d + i))).row = none ∧ (s.group (s.homeKey (rowField f.d + i))).forcing = false ∧
         s.mcWanted (s.homeKey (rowField f.d + i)) = false) ∧
       ready (.ref f) s = true ∧ s.NoTransfers) := by
  refine ⟨⟨by unfold State.MemInv; decide +kernel, noReplay_of (by decide +kernel), noTransfers_of (by decide +kernel), by decide +kernel⟩,
    ⟨by unfold State.MemInv; decide +kernel, noReplay_of (by decide +kernel), by decide +kernel, by decide +kernel, by decide +kernel, ?_, ?_,
      by decide +kernel, by decide +kernel, by decide +kernel⟩, ?_, ?_⟩
  · obtain ⟨⟨ts, u⟩, h, k⟩ := ok_elim (o := rowTargets 1 ((board (regs [(1, 0x4080_2000)])).reg 1 +
      BitVec.ofInt 64 ((F 2 33 1 0 0).imm.toInt * 8192)) .read 1 0 (board (regs [(1, 0x4080_2000)])))
      (p := fun x => !x.1.isEmpty) (by decide +kernel)
    exact ⟨ts, u, h, by intro e; simp [e] at k⟩
  · obtain ⟨⟨ts, u⟩, h, k⟩ := ok_elim (o := rowTargets 1 ((board (regs [(1, 0x4080_2000)])).reg 1 +
      BitVec.ofInt 64 ((F 2 33 1 0 0).imm.toInt * 8192)) .write 1 0 (board (regs [(1, 0x4080_2000)])))
      (p := fun x => !x.1.isEmpty) (by decide +kernel)
    exact ⟨ts, u, h, by intro e; simp [e] at k⟩
  · intro p hp
    simp only [List.mem_cons, List.not_mem_nil, or_false] at hp
    rcases hp with rfl | rfl <;>
      exact ⟨by unfold State.MemInv; decide +kernel, noTransfers_of (by decide +kernel), by decide +kernel⟩
  · intro p hp
    simp only [List.mem_cons, List.not_mem_nil, or_false] at hp
    rcases hp with rfl | rfl <;> exact ⟨by decide +kernel, by decide +kernel, noTransfers_of (by decide +kernel)⟩

/-- RowReports: an open and a closed group. -/
theorem witness_RowReports : ∀ s ∈ [opened, board], (s.group (s.homeKey (rowField (F 0 3 47 0).a))).forcing = false ∧
    ready (.rstat (F 0 3 47 0)) s = true ∧ ready (.rplace (F 0 3 47 0)) s = true := by decide +kernel

/-- VectorConfiguration: setvl; a valid configuration; a width code above 4; an unassigned format; a format of another width. -/
theorem witness_VectorConfiguration :
    ready (.setvl (F 0 3 1 0)) board = true ∧ ready (.setvl (F 2 3 0 0 0xFFF_FFFF)) board = true ∧
    (ready (.setcfg (F 2 3 0 0 0x282)) board = true ∧ vcfgFault 0x282 = none) ∧
    (∀ n ∈ [0x005, 0x007], ready (.setcfg (F 2 3 0 0 n)) board = true ∧ 4 < fld n 0 3) ∧
    (ready (.setcfg (F 2 3 0 0 0x302)) board = true ∧ fld 0x302 0 3 ≤ 4 ∧ fcValid (fld 0x302 6 6) = false) ∧
    (ready (.setcfg (F 2 3 0 0 0x002)) board = true ∧ fld 0x002 0 3 ≤ 4 ∧ fcValid (fld 0x002 6 6) = true ∧ fcWidth (fld 0x002 6 6) ≠ ewOf 0x002) := by
  decide +kernel

/-- WritesReadBack: first and last element of a run, at the narrowest and the widest element; a mask run. -/
theorem witness_WritesReadBack :
    (∀ p ∈ [(4, 16383, 15, 1), (64, 8191, 8, 8)], opened.MemInv ∧ opened.SeesMemory ∧ p.1 ∈ [4, 8, 16, 32, 64] ∧ p.2.2.1 + p.2.2.2 ≤ 16 ∧ opened.cur.home < 16 ∧
      (∀ i < p.2.2.2, ∃ r < 1024, (opened.homeGroup (p.2.2.1 + i)).row = some r) ∧
      let es : List Elt := [{ e := 0, v := 3 }, { e := p.2.1, v := 1 }]
      (es.map (fun x => x.e)).Nodup ∧ ∀ x ∈ es, x.e * p.1 < p.2.2.2 * 65536) ∧
    (let es : List Elt := [{ e := 0, v := 1 }, { e := 8191, v := 1, pois := true }]
     (8 ∈ [8, 16, 32, 64] ∧ 7 < 8 ∧ (es.map (fun x => x.e)).Nodup ∧ ∀ x ∈ es, 1 ≤ 7 + x.e * (8 / 8) / 8192 ∧ 7 + x.e * (8 / 8) / 8192 < 8)) := by
  refine ⟨?_, by decide +kernel⟩
  intro p hp
  simp only [List.mem_cons, List.not_mem_nil, or_false] at hp
  rcases hp with rfl | rfl <;>
    exact ⟨by unfold State.MemInv; decide +kernel, ⟨rfl, rfl⟩, by decide +kernel, by decide +kernel, by decide +kernel,
      fun i hi => ⟨1, by decide, by revert i; decide +kernel⟩, by decide +kernel⟩

/-- IntegerElements: the three forms, masked and unmasked. -/
theorem witness_IntegerElements : opened.NoTransfers ∧
    (∀ f ∈ [F 0 32 33 34, F 1 47 33 2 0 7 true, F 2 32 32 0 0xFFF_FFFF 1], 
      (let brow := if f.form = 0 then [(f.b, 1, false)] else []
       VecReady { rows := [(f.d, 1, true), (f.a, 1, false)] ++ brow, masks := [(f.m.toNat, f.m.toNat)] } opened 0) ∧ vgOf opened.cur.vcfg = 1 ∧
      fcOf opened.cur.vcfg % 32 ≤ 7 ∧
      ∀ i ∈ [Instr.vadd f, .vsub f, .vrsub f, .vmul f, .vadds f, .vaddsz f, .vsubs f, .vsubsz f, .vmin f, .vmax f, .vminz f, .vmaxz f, .vand f, .vor f,
        .vxor f, .vsll f, .vsrl f, .vsra f, .vmacc f, .vmulh f, .vavg f, .vabsd f], ready i opened = true) := by
  refine ⟨noTransfers_of (by decide +kernel), fun f hf => ?_⟩
  simp only [List.mem_cons, List.not_mem_nil, or_false] at hf
  rcases hf with rfl | rfl | rfl <;> exact ⟨vecReady_of (by decide +kernel), by decide +kernel, by decide +kernel, by decide +kernel⟩

/-- FormatChanges, the numbers: a floating format of each kind, with codes of a NaN, an infinity and a finite value; a magnitude that rounds; integers of
each format, and a conversion from a floating and from an integer one. -/
theorem witness_FormatChanges_numbers :
    (∀ fc ∈ [8, 10, 11, 16, 24, 62], fcValid fc = true ∧ ∃ f, floatFmt fc = some f) ∧
    (∀ p ∈ [(8, 0x7C01, 0x7C00, 0x8001), (48, 0x80, 0x7F, 0x81)], ∃ f, floatFmt p.1 = some f ∧ p.2.1 < 2 ^ f.width ∧ p.2.2.1 < 2 ^ f.width ∧
      p.2.2.2 < 2 ^ f.width ∧ (f.decode p.2.1).isNan = true ∧ f.decode p.2.2.1 = .inf false ∧ (f.decode p.2.2.2).IsFinite) ∧
    ((0 : ℚ) < 3 ∧ (Num.fin true 3 0).StandsFor 3 ∧ (4 : RoundMode) ≤ 4) ∧
    (∀ fc ∈ [0, 7], fc < 8 ∧ fcValid fc = true ∧ (fc : Nat) < 8) ∧ (fcValid 10 = true ∧ 8 ≤ 10 ∧ (0 : Nat) < 1) := by
  refine ⟨fun fc h => ?_, fun p h => ?_, ⟨by norm_num, ⟨true, 3, 0, rfl, by decide, Or.inl (by norm_num)⟩, by decide⟩, by decide +kernel, by decide +kernel⟩
  · simp only [List.mem_cons, List.not_mem_nil, or_false] at h
    rcases h with rfl | rfl | rfl | rfl | rfl | rfl <;> exact ⟨by decide +kernel, _, rfl⟩
  · simp only [List.mem_cons, List.not_mem_nil, or_false] at h
    rcases h with rfl | rfl <;> exact ⟨_, rfl, by decide +kernel, by decide +kernel, by decide +kernel, by decide +kernel, by decide +kernel,
      by show 0 < _; decide +kernel⟩

/-- FormatChanges: vnsra, vwadd, vwmul and vdot4; vcvt of equal and of other widths, without and with an enabled flag, and of a bad format; vcvtq. -/
theorem witness_FormatChanges :
    (let s := openedAs 0x102
     s.NoTransfers ∧ vgOf s.cur.vcfg = 1 ∧ ewOf s.cur.vcfg = 32 ∧ ready (.vnsra (F 0 32 34 36)) s = true ∧
       VecReady { packed := false, widthOk := true, rows := [(32, 1, true), (34, 2, false), (36, 2, false)], masks := [(0, 0)] } s 0 ∧
       ready (.vwadd (F 0 32 34 35)) s = true ∧ ready (.vwmul (F 0 32 34 35)) s = true ∧ fcOf s.cur.vcfg % 32 ≤ 7 ∧
       VecReady { packed := false, rows := [(32, 2, true), (34, 1, false), (35, 1, false)], masks := [(0, 0)] } s 0) ∧
    (let s := openedAs 0x000
     ready (.vdot4 (F 0 32 34 35)) s = true ∧ ewOf s.cur.vcfg = 8 ∧ s.cur.vl.toNat % 4 = 0 ∧
       VecReady { packed := false, rows := [(32, 1, true), (34, 1, false), (35, 1, false)], masks := [(0, 0)] } s 0) ∧
    (∀ p ∈ [(0x102, 10 + 4 * 64, 1, 1), (0x282, 10 + 4 * 64, 1, 1), (0x201, 8 + 10 * 64, 2, 1), (0x201, 10 + 8 * 64, 1, 2)],
      let s := openedAs (BitVec.ofNat 64 p.1)
      let f := F 3 32 34 0 p.2.1
      s.NoTransfers ∧ ready (.vcvt f) s = true ∧ (fcValid (f.sub 0 6) && fcValid (f.sub 6 6)) = true ∧
        ewOf s.cur.vcfg = min (fcWidth (f.sub 0 6)) (fcWidth (f.sub 6 6)) ∧
        VecReady { rows := [(f.d, p.2.2.1, true), (f.a, p.2.2.2, false)], masks := [(0, 0)], rm := some (f.sub 12 3) } s 0) ∧
    (let s := fill32 2 [0x7FC0_0000] (openedAs 0x102 4 0x1000)
     let f := F 3 32 34 0 (10 + 4 * 64)
     let es := eltsOf f s.cur 0 (fun e => convert (valueOf (s.elem 2 e 32) 10 32) 10 4 32 0 false) (fun e => s.elemPoisoned 2 e 32)
     trapElt s.cur.frm es = some ({ e := 0, v := 0, flags := 16 }, 4) ∧ ready (.vcvt f) s = true ∧ trapElt 0 es = none ∧
       ((s.readMaskRun [(0, 0)] 1).elementsBelow 0 1 32 es 0).recordWait = none) ∧
    (ready (.vcvt (F 3 32 34 0 (12 + 4 * 64))) opened = true ∧ fcValid 12 = false) ∧
    (let s := openedAs 0x000
     let f := F 1 32 36 2 (16 * 64)
     s.NoTransfers ∧ ready (.vcvtq f) s = true ∧ fcValid 16 = true ∧ ewOf s.cur.vcfg = fcWidth 16 ∧ f.sub 6 6 = 16 ∧
       VecReady { rows := [(f.d, 1, true), (f.a, 4, false)], masks := [(0, 0)], rm := some (f.sub 12 3) } s 0) := by
  refine ⟨⟨noTransfers_of (by decide +kernel), by decide +kernel, by decide +kernel, by decide +kernel, vecReady_of (by decide +kernel), by decide +kernel,
    by decide +kernel, by decide +kernel, vecReady_of (by decide +kernel)⟩,
    ⟨by decide +kernel, by decide +kernel, by decide +kernel, vecReady_of (by decide +kernel)⟩, ?_, by decide +kernel, by decide +kernel,
    ⟨noTransfers_of (by decide +kernel), by decide +kernel, by decide +kernel, by decide +kernel, by decide +kernel, vecReady_of (by decide +kernel)⟩⟩
  intro p hp
  simp only [List.mem_cons, List.not_mem_nil, or_false] at hp
  rcases hp with rfl | rfl | rfl | rfl <;>
    exact ⟨noTransfers_of (by decide +kernel), by decide +kernel, by decide +kernel, by decide +kernel, vecReady_of (by decide +kernel)⟩

/-- Compares: integer compares; f32 compares, and one that NV stops at a signaling NaN. -/
theorem witness_Compares :
    (let f := F 0 49 33 34 0 7 true
     VecReady { rows := [(f.a, 1, false), (f.b, 1, false)], masks := [(1, 49), (7, 7)] } opened 0 ∧
       ∀ i ∈ [Instr.vcmpeq f, .vcmpne f, .vcmplt f, .vcmple f, .vcmpltz f, .vcmplez f], ready i opened = true) ∧
    (let f := F 0 49 33 34
     let s := fill32 1 [0x7F80_0001] (openedAs 0x282 4 0x1000)
     VecReady { packed := false, fcOk := 8 ≤ fcOf s.cur.vcfg && fcOf s.cur.vcfg ≤ 10, rows := [(f.a, 1, false), (f.b, 1, false)],
                masks := [(1, 49), (0, 0)] } s 0 ∧ (∀ i ∈ [Instr.vfcmpeq f, .vfcmplt f, .vfcmple f], ready i s = true) ∧
       let es := eltsOf f s.cur 0 (fun e =>
         let r := compareNum 0 ((fmtOf s.cur.vcfg).decode (s.elem 1 e 32)) ((fmtOf s.cur.vcfg).decode (s.elem 2 e 32))
         (if r.1 then 1 else 0, r.2)) (fun _ => false)
       (trapElt s.cur.frm es).isSome = true ∧ trapElt 0 es = none ∧
         (((s.readMaskRun [(0, 0)] 1).writeMaskElts 1 32 (es.filter (fun y => y.e < 0))).setCur (fun c => { c with estart := 0 })).recordWait = none) := by
  exact ⟨⟨vecReady_of (by decide +kernel), by decide +kernel⟩, ⟨vecReady_of (by decide +kernel), by decide +kernel, by decide +kernel⟩⟩

/-- FloatElements, the numbers: NaNs, finite values and zeros, infinities, formats and codes of each kind. -/
theorem witness_FloatElements_numbers :
    ((Machine.Num.nan true).isNan = true ∧ (Machine.Num.fin true 3 0).IsFinite ∧ (Machine.Num.zero true).IsFinite ∧ (Machine.Num.zero true).rat = 0 ∧ (Machine.Num.fin true 3 0).rat ≠ 0 ∧
      (Machine.Num.fin false 5 (-1)).rat ≠ 0) ∧ (0 < 5 ∧ ∃ k : Int, (Machine.Num.fin false 5 0).rat = k ∧ -4096 < k ∧ k < 4096) ∧
    (∃ k : Int, (k : ℚ) < (Machine.Num.fin false 5 (-1)).rat ∧ (Machine.Num.fin false 5 (-1)).rat < k + 1 ∧ -4096 < k ∧ k < 4095) ∧
    (∀ p ∈ [(8, 0x7C01, 0x3C00), (9, 0x7F81, 0x3F80), (10, 0x7F80_0001, 0x3F80_0000)], ∃ f, floatFmt p.1 = some f ∧ p.2.1 < 2 ^ f.width ∧
      p.2.2 < 2 ^ f.width ∧ (f.decode p.2.1).isNan = true ∧ (f.decode p.2.2).isNan = false) ∧
    (Machine.Num.zero true).Below (.fin false 1 0) := by
  refine ⟨⟨rfl, by show 0 < 3; decide, trivial, rfl, by norm_num [Machine.Num.rat], by norm_num [Machine.Num.rat]⟩, ⟨by decide, 5, by norm_num [Machine.Num.rat], by decide, by decide⟩,
    ⟨2, by norm_num [Machine.Num.rat], by norm_num [Machine.Num.rat], by decide, by decide⟩, fun p h => ?_, by norm_num [Machine.Num.Below, Machine.Num.rat]⟩
  simp only [List.mem_cons, List.not_mem_nil, or_false] at h
  rcases h with rfl | rfl | rfl <;> exact ⟨_, rfl, by decide +kernel, by decide +kernel, by decide +kernel, by decide +kernel⟩

/-- FloatElements: two operands, one operand, and a division by zero with and without its trap. -/
theorem witness_FloatElements :
    (openedAs 0x282).NoTransfers ∧ (openedAs 0x282).cur.vcfg = 0x282 ∧
    (let f := F 0 32 33 34 0 1
     (∀ i ∈ [Instr.vfadd f, .vfsub f, .vfmul f, .vfma f, .vfnma f, .vfmin f, .vfmax f, .vfdiv f], ready i (openedAs 0x282) = true) ∧
       VecReady { packed := false, fcOk := true, rows := [(f.d, 1, true), (f.a, 1, false), (f.b, 1, false)], masks := [(1, 1)], rm := some (f.sub 0 3) }
         (openedAs 0x282) 0 ∧
       VecReady { packed := false, fcOk := true, rows := [(f.d, 1, true), (f.a, 1, false), (f.b, 1, false)], masks := [(1, 1)], rm := none }
         (openedAs 0x282) 0) ∧
    (let f := F 0 32 33 0
     (∀ i ∈ [Instr.vfsqrt f, .vfrcp f, .vfrsq f, .vfexp2 f, .vfclass f], ready i (openedAs 0x282) = true) ∧
       VecReady { packed := false, fcOk := true, rows := [(f.d, 1, true), (f.a, 1, false)], masks := [(0, 0)], rm := some (f.sub 0 3) } (openedAs 0x282) 0) ∧
    (let s := fill32 1 [0x3F80_0000] (openedAs 0x282)
     let fmt := fmtOf s.cur.vcfg
     let es := eltsOf (F 0 32 33 34) s.cur 0 (fun e => let r := divNum (fmt.decode (s.elem 1 e 32)) (fmt.decode (s.elem 2 e 32))
       ((fmt.round r.1 0 true).1, r.2 ||| (fmt.round r.1 0 true).2)) (fun _ => false)
     trapElt 0 es = none ∧ (trapElt 0x0800 es).isSome = true ∧ ((s.readMaskRun [(0, 0)] 1).elementsBelow 0 1 32 es 0).recordWait = none) := by
  exact ⟨noTransfers_of (by decide +kernel), by decide +kernel, ⟨by decide +kernel, vecReady_of (by decide +kernel), vecReady_of (by decide +kernel)⟩,
    ⟨by decide +kernel, vecReady_of (by decide +kernel)⟩, by decide +kernel⟩

/-- ElementMoves: each instruction in a form it accepts; a poisoned element for vext. -/
theorem witness_ElementMoves :
    opened.NoTransfers ∧
    (ready (.vmerge (F 0 32 33 34 0 1)) opened = true ∧
      VecReady { rows := [(32, 1, true), (33, 1, false), (34, 1, false)], masks := [(1, 1)] } opened 0) ∧
    (ready (.vmov (F 0 32 33 0)) opened = true ∧ VecReady { rows := [(32, 1, true), (33, 1, false)], masks := [(0, 0)] } opened 0) ∧
    (ready (.vext (F 2 3 33 0 3)) opened = true ∧ VecReady { packed := false, rows := [(33, 1, false)], index := some 3 } opened 0 ∧
      opened.elemPoisoned 1 3 32 = false ∧ ({ opened with poison := [0x4_0100] } : State).elemPoisoned 1 3 32 = true ∧
      VecReady { packed := false, rows := [(33, 1, false)], index := some 3 } ({ opened with poison := [0x4_0100] } : State) 0) ∧
    (ready (.vins (F 2 33 3 0 3)) opened = true ∧ VecReady { packed := false, rows := [(33, 1, true)], index := some 3 } opened 0) ∧
    (let sh : VecShape := { packed := false, rows := [(32, 1, true), (33, 1, false)], masks := [(1, 1)] }
     VecReady sh opened 0 ∧ (∀ i ∈ [Instr.vslide (F 2 32 33 0 0xFFF_FFFF 1), .vrot (F 2 32 33 0 1 1), .vcompress (F 0 32 33 0 0 1), .vexpand (F 0 32 33 0 0 1)],
       ready i opened = true)) ∧
    (ready (.vperm (F 0 32 33 34)) opened = true ∧
      VecReady { packed := false, rows := [(32, 1, true), (33, 1, false), (34, 1, false)], masks := [(0, 0)] } opened 0) ∧
    (ready (.viota (F 0 32 49 0)) opened = true ∧ VecReady { packed := false, rows := [(32, 1, true)], masks := [(1, 49), (0, 0)] } opened 0) := by
  exact ⟨noTransfers_of (by decide +kernel), ⟨by decide +kernel, vecReady_of (by decide +kernel)⟩, ⟨by decide +kernel, vecReady_of (by decide +kernel)⟩,
    ⟨by decide +kernel, vecReady_of (by decide +kernel), by decide +kernel, by decide +kernel, vecReady_of (by decide +kernel)⟩,
    ⟨by decide +kernel, vecReady_of (by decide +kernel)⟩, ⟨vecReady_of (by decide +kernel), by decide +kernel⟩,
    ⟨by decide +kernel, vecReady_of (by decide +kernel)⟩, ⟨by decide +kernel, vecReady_of (by decide +kernel)⟩⟩

/-- Reductions: integer and f32. -/
theorem witness_Reductions :
    (opened.NoTransfers ∧ VecReady { packed := false, rows := [(32, 1, true), (33, 1, false), (34, 1, false)], masks := [(1, 1)] } opened 0 ∧
      fcOf opened.cur.vcfg % 32 ≤ 7 ∧ ∀ i ∈ [Instr.vredsum (F 0 32 33 34 0 1), .vredmin (F 0 32 33 34 0 1), .vredmax (F 0 32 33 34 0 1),
        .vredand (F 0 32 33 34 0 1), .vredor (F 0 32 33 34 0 1)], ready i opened = true) ∧
    (let s := openedAs 0x282
     s.NoTransfers ∧ fcOf s.cur.vcfg = 10 ∧ (∀ rm ∈ [some 0, none],
        VecReady { packed := false, rows := [(32, 1, true), (33, 1, false), (34, 1, false)], masks := [(0, 0)], rm := rm } s 0) ∧
      ready (.vfredsum (F 0 32 33 34)) s = true ∧ ready (.vfredmax (F 0 32 33 34)) s = true) := by
  refine ⟨⟨noTransfers_of (by decide +kernel), vecReady_of (by decide +kernel), by decide +kernel, by decide +kernel⟩,
    ⟨noTransfers_of (by decide +kernel), by decide +kernel, fun rm h => ?_, by decide +kernel, by decide +kernel⟩⟩
  simp only [List.mem_cons, List.not_mem_nil, or_false] at h
  rcases h with rfl | rfl <;> exact vecReady_of (by decide +kernel)

/-- MaskInstructions: runs of one and of four mask registers; kmov in its four forms. -/
theorem witness_MaskInstructions :
    (∀ p ∈ [(0x102, 55, 1), (0x122, 52, 4)], let s := openedAs (BitVec.ofNat 64 p.1)
     p.2.1 - 48 + p.2.2 ≤ 8 ∧ vgOf s.cur.vcfg = p.2.2 ∧ VecReady { masks := [(p.2.1 - 48, p.2.1), (0, 48), (4, 52)] } s 0 ∧
       VecReady { masks := [(p.2.1 - 48, p.2.1), (0, 48)] } s 0 ∧ VecReady { masks := [(4, 52)] } s 0 ∧
       ∀ i ∈ [Instr.kand (F 0 p.2.1 48 52), .kor (F 0 p.2.1 48 52), .kxor (F 0 p.2.1 48 52), .knot (F 0 p.2.1 48 0), .kpop (F 0 3 52 0), .kfirst (F 0 3 52 0)],
         ready i s = true) ∧
    (opened.NoReplay ∧ opened.NoTransfers ∧ opened.SeesMemory ∧ opened.MemInv ∧ opened.RowReady 15 false ∧ opened.RowReady 15 true ∧
      ∀ i ∈ [Instr.kmov (F 0 55 48 0), .kmovPm (F 3 49 0 0 0), .kmovRowToMask (F 3 55 47 0 1), .kmovMaskToRow (F 3 47 55 0 2)], ready i opened = true) := by
  refine ⟨fun p hp => ?_, noReplay_of (by decide +kernel), noTransfers_of (by decide +kernel), ⟨rfl, rfl⟩, by unfold State.MemInv; decide +kernel,
    rowReady_of (by decide +kernel), rowReady_of (by decide +kernel), by decide +kernel⟩
  simp only [List.mem_cons, List.not_mem_nil, or_false] at hp
  rcases hp with rfl | rfl <;> exact ⟨by decide +kernel, by decide +kernel, vecReady_of (by decide +kernel), vecReady_of (by decide +kernel),
    vecReady_of (by decide +kernel), by decide +kernel⟩

/-- Integrity: vcka; ckchk of equal and of different checksums, with and without T, and where the record has to wait for a row; pmclr. -/
theorem witness_Integrity :
    let rowed := openRow (groupOf 0xA000) 2 (board ({ hart with trec := 0x4000_A000 }.setCk 1 5))
    (ready (.vcka (F 0 0 33 0 7 1)) opened = true ∧ VecReady { rows := [(33, 1, false)], masks := [(1, 1)] } opened 0) ∧
    (ready (.ckchk (F 3 3 0 0 0x24)) board = true ∧ board.cur.ckN 0 = board.cur.ckN 1) ∧
    (∀ n ∈ [0x04, 0x14], ready (.ckchk (F 3 3 0 0 n)) (board (hart.setCk 1 5)) = true ∧ (hart.setCk 1 5).ckN 0 ≠ (hart.setCk 1 5).ckN 1) ∧
    ((board (hart.setCk 1 5)).setCur (fun c => (c.setCk 0 0).setCk 1 0)).recordWait = none ∧
    (ready (.ckchk (F 3 3 0 0 0x34)) rowed = true ∧ rowed.cur.ckN 0 ≠ rowed.cur.ckN 1 ∧ rowed.NoReplay ∧
      (rowed.setCur (fun c => (c.setCk 0 0).setCk 1 0)).recordWait.isSome = true) ∧
    (ready (.pmclr (F 0 0 49 0)) opened = true ∧ VecReady { masks := [(1, 49)] } opened 0) := by
  intro rowed
  exact ⟨⟨by decide +kernel, vecReady_of (by decide +kernel)⟩, by decide +kernel, by decide +kernel, by decide +kernel,
    ⟨by decide +kernel, by decide +kernel, noReplay_of (by decide +kernel), by decide +kernel⟩,
    ⟨by decide +kernel, vecReady_of (by decide +kernel)⟩⟩

end Sys2Proof.Tests
end

section
/-! Bit counts, bit fields and the decode checks of their words (R78). -/

namespace Sys2Proof.Machine

/-! ### Bits of numbers and of registers -/

theorem bitAt_eq_testBit (v i : Nat) : bitAt v i = v.testBit i := by
  simp [bitAt, Nat.testBit_eq_decide_div_mod_eq, Nat.shiftRight_eq_div_pow]

/-- A subfield of a register, read as a number. -/
theorem fld_toNat {n : Nat} (v : BitVec n) (lo len : Nat) : fld v.toNat lo len = (v.extractLsb' lo len).toNat := by
  simp [fld]

theorem testBit_fld (v lo n i : Nat) : (fld v lo n).testBit i = (decide (i < n) && v.testBit (lo + i)) := by
  simp [fld, Nat.testBit_mod_two_pow, Nat.testBit_shiftRight]

/-- Sign extension of the low `n` bits is that of an `n`-bit value. -/
theorem toWord_sextN (v n : Nat) : toWord (sextN v n) = (BitVec.ofNat n v).signExtend 64 := by
  unfold toWord BitVec.signExtend sextN
  split
  · subst n; simp [BitVec.of_length_zero]
  · rename_i hn
    obtain ⟨k, rfl⟩ := Nat.exists_eq_succ_of_ne_zero hn
    have : v % 2 ^ (k + 1) < 2 ^ k ↔ 2 * (v % 2 ^ (k + 1)) < 2 ^ (k + 1) := by rw [Nat.pow_succ 2 k]; omega
    simp [BitVec.toInt_eq_toNat_cond, this]

/-! ### Counts (R78) -/

theorem leadingZeros_le (v n : Nat) : leadingZeros v n ≤ n := by
  induction n with
  | zero => simp [leadingZeros]
  | succ n ih => simp only [leadingZeros]; split <;> omega

/-- The bits that leadingZeros counts are 0. -/
theorem testBit_of_leadingZeros (v n i : Nat) (hi : i < n) (hz : n - leadingZeros v n ≤ i) : v.testBit i = false := by
  induction n with
  | zero => omega
  | succ n ih =>
    simp only [leadingZeros, bitAt_eq_testBit] at hz
    split at hz
    · omega
    · rename_i hb
      obtain rfl | hlt := Nat.eq_or_lt_of_le (Nat.le_of_lt_succ hi)
      · simpa using hb
      · exact ih hlt (by omega)

/-- The bit below those that leadingZeros counts is 1. -/
theorem testBit_below_leadingZeros (v n : Nat) (h : leadingZeros v n < n) : v.testBit (n - 1 - leadingZeros v n) = true := by
  induction n with
  | zero => omega
  | succ n ih =>
    simp only [leadingZeros, bitAt_eq_testBit] at h ⊢
    split
    · simpa
    · rename_i hb
      rw [if_neg hb] at h
      rw [show n + 1 - 1 - (1 + leadingZeros v n) = n - 1 - leadingZeros v n by omega]
      exact ih (by omega)

theorem trailingZeros_le (v i n : Nat) : trailingZeros v i n ≤ n := by
  induction n generalizing i with
  | zero => simp [trailingZeros]
  | succ n ih => have := ih (i + 1); simp only [trailingZeros]; split <;> omega

/-- The bits that trailingZeros counts are 0. -/
theorem testBit_of_trailingZeros (v i n j : Nat) (hj : j < trailingZeros v i n) : v.testBit (i + j) = false := by
  induction n generalizing i j with
  | zero => simp [trailingZeros] at hj
  | succ n ih =>
    simp only [trailingZeros, bitAt_eq_testBit] at hj
    split at hj
    · omega
    · rename_i hb
      cases j with
      | zero => simpa using hb
      | succ j => rw [show i + (j + 1) = i + 1 + j by omega]; exact ih (i + 1) j (by omega)

/-- The bit above those that trailingZeros counts is 1. -/
theorem testBit_above_trailingZeros (v i n : Nat) (h : trailingZeros v i n < n) : v.testBit (i + trailingZeros v i n) = true := by
  induction n generalizing i with
  | zero => omega
  | succ n ih =>
    simp only [trailingZeros, bitAt_eq_testBit] at h ⊢
    split
    · simpa
    · rename_i hb
      rw [if_neg hb] at h
      rw [← Nat.add_assoc]
      exact ih (i + 1) (by omega)

/-- popCount is the number of places that hold 1. -/
theorem popCount_eq_length_filter (v n : Nat) : popCount v n = ((List.range n).filter (fun i => v.testBit i)).length := by
  induction n with
  | zero => rfl
  | succ n ih =>
    rw [List.range_succ, List.filter_append, List.length_append, ← ih, popCount, bitAt_eq_testBit, Nat.add_comm]
    cases h : v.testBit n <;> simp [h]

/-! ### Bit fields (R78) -/

/-- The parameters of bext and bins as a 14-bit value. -/
def fieldParamBits (f : Fields) (s : State) : BitVec 14 := if f.form = 0 then (s.reg f.b).extractLsb' 0 14 else f.imm.extractLsb' 0 14

theorem fieldParams_eq_toNat (f : Fields) (s : State) : fieldParams f s = (fieldParamBits f s).toNat := by
  unfold fieldParams fieldParamBits Fields.sub
  split <;> exact fld_toNat _ 0 14

/-- Bit `i` of what bext gives: of the field below its length, above it its top bit under X. -/
theorem getLsbD_extractField (p i : Nat) (a : Word) (hi : i < 64) (hlen : 1 ≤ fld p 6 7) :
    (extractField p a).getLsbD i =
      if i < fld p 6 7 then a.getLsbD (fld p 0 6 + i) else p.testBit 13 && a.getLsbD (fld p 0 6 + fld p 6 7 - 1) := by
  have hbit (j : Nat) : (BitVec.ofNat (fld p 6 7) (fld a.toNat (fld p 0 6) (fld p 6 7))).getLsbD j =
      (decide (j < fld p 6 7) && a.getLsbD (fld p 0 6 + j)) := by
    rw [BitVec.getLsbD_ofNat, testBit_fld, BitVec.testBit_toNat, ← Bool.and_assoc, Bool.and_self]
  rw [extractField, bitAt_eq_testBit]
  split
  · rename_i hx
    rw [toWord_sextN, BitVec.getLsbD_signExtend, BitVec.msb_eq_getLsbD_last, hbit, hbit, hx]
    rw [show fld p 0 6 + (fld p 6 7 - 1) = fld p 0 6 + fld p 6 7 - 1 by omega]
    split <;> simp [*]; omega
  · rename_i hx
    rw [BitVec.getLsbD_ofNat, testBit_fld, BitVec.testBit_toNat]
    split <;> simp [*]

/-- Bit `i` of what bins gives: of sA inside the field, of sD outside. -/
theorem getLsbD_insertField (p i : Nat) (a d : Word) (hi : i < 64) :
    (insertField p a d).getLsbD i =
      if fld p 0 6 ≤ i ∧ i < fld p 0 6 + fld p 6 7 then a.getLsbD (i - fld p 0 6) else d.getLsbD i := by
  simp only [insertField, BitVec.getLsbD_or, BitVec.getLsbD_and, BitVec.getLsbD_not, BitVec.getLsbD_ofNat, Nat.testBit_mul_two_pow,
    Nat.testBit_two_pow_sub_one, Nat.testBit_mod_two_pow, BitVec.testBit_toNat, hi, decide_true, Bool.true_and]
  by_cases hlo : fld p 0 6 ≤ i
  · have hsub : i - fld p 0 6 < fld p 6 7 ↔ i < fld p 0 6 + fld p 6 7 := by omega
    by_cases hhi : i < fld p 0 6 + fld p 6 7 <;> simp [hlo, hhi, hsub]
  · simp [hlo]

/-! ### Issue of a class 0 word that names only scalars -/

/-- An instruction that is issued and may run at once ends as its body does. -/
theorem exec_of_ready {i : Instr} {s : State} {body : State → Res} (he : exec i s = issue i body s) (h : ready i s = true) :
    exec i s = finish (body s) :=
  he.trans (issue_of_ready h)

/-- An instruction that is issued and fails a decode check takes class 0 with its word. -/
theorem exec_of_fault {i : Instr} {s : State} {body : State → Res} {k : Nat} (he : exec i s = issue i body s) (h : issueFault i s = some k) :
    exec i s = .next (takeTrap k (wordOfInstr i) {} s) :=
  he.trans (issue_of_fault h)

/-- D, A and B are numbers of scalars, and M and MZ are 0. -/
def NamesScalars (f : Fields) : Prop := f.d.toNat < 32 ∧ f.a.toNat < 32 ∧ f.b.toNat < 32 ∧ f.m = 0 ∧ f.mz = false

/-- A rule finds no register that the hart lacks where only scalars are named. -/
theorem offHart_of_scalars (r : Rule) (k : HartKind) {f : Fields} (hf : NamesScalars f) : r.offHart k f = false := by
  obtain ⟨hd, ha, hb, -, -⟩ := hf
  simp [Rule.offHart, namesOffHart, Nat.not_le.2 hd, Nat.not_le.2 ha, Nat.not_le.2 hb]

/-- No hart and no feature excludes class 0 (R24, R25, R420): a class 0 word that names only scalars fails by its FORM or by its rule. -/
theorem issueFault_class0 {i : Instr} {o : Nat} {f : Fields} (s : State) (ho : opcodeOf i = some (0, o, f)) (hm : namesChunkMask i = false)
    (hf : NamesScalars f) : issueFault i s = (ruleOf i).elim (some 2) (fun r => ruleFault r f) := by
  have hc : classExcluded s.cur.kind 0 o = false := by cases s.cur.kind <;> rfl
  have hfeat : featureOf 0 o = none := by simp [featureOf]
  unfold issueFault decodeFault
  cases hr : ruleOf i <;> simp [ho, hc, hfeat, hm, offHart_of_scalars _ _ hf]

/-- The checks of a rule that names scalars in D and A and takes no mask. -/
theorem ruleFault_scalars {f : Fields} (bk : FieldKind) (imm : Bool) (hf : NamesScalars f) :
    ruleFault { d := .scalar, a := .scalar, b := bk, imm := imm } f = if bk.accepts f.b then (if imm then none else some 8) else some 5 := by
  obtain ⟨hd, ha, -, hm, hz⟩ := hf
  have hs {v : BitVec 6} (h : v.toNat < 32) : FieldKind.scalar.accepts v = true := decide_eq_true h
  cases hb : bk.accepts f.b <;> cases imm <;> simp [ruleFault, hs hd, hs ha, hm, hz, hb]

/-- The checks of clz, ctz and pop (R78): FORM 0b00 only, B and IMM28 0. -/
theorem issueFault_unary {i : Instr} {o : Nat} {f : Fields} (s : State) (ho : opcodeOf i = some (0, o, f)) (hm : namesChunkMask i = false)
    (hr : ruleOf i = ruleOne f 0 .scalar .scalar .zero f.immZero) (hf : NamesScalars f) :
    issueFault i s = if f.form = 0 then (if f.b = 0 then (if f.imm = 0 then none else some 8) else some 5) else some 2 := by
  have hform : f.form.toNat = 0 ↔ f.form = 0#2 := by bv_omega
  rw [issueFault_class0 s ho hm hf, hr]
  by_cases h : f.form = 0#2
  · simp [ruleOne, h, ruleFault_scalars _ _ hf, FieldKind.accepts, Fields.immZero]
  · simp [ruleOne, hform, h]

/-- The checks of bext and bins (R78): in FORM 0b00 the parameters stand in sB and IMM28 is 0, in FORM 0b10 they are the low bits of IMM28
and B is 0. -/
theorem issueFault_field {i : Instr} {o n : Nat} {f : Fields} (s : State) (ho : opcodeOf i = some (0, o, f)) (hm : namesChunkMask i = false)
    (hr : ruleOf i = if f.form.toNat = 2 then ruleOne f 2 .scalar .scalar .zero (f.immBelow n) else ruleOne f 0 .scalar .scalar .scalar f.immZero)
    (hf : NamesScalars f) :
    issueFault i s =
      if f.form = 0 then (if f.imm = 0 then none else some 8)
      else if f.form = 2 then (if f.b = 0 then (if f.immBelow n then none else some 8) else some 5) else some 2 := by
  have ⟨_, _, hb32, _, _⟩ := hf
  have hb : FieldKind.scalar.accepts f.b = true := decide_eq_true hb32
  have h0 : f.form.toNat = 0 ↔ f.form = 0#2 := by bv_omega
  have h2 : f.form.toNat = 2 ↔ f.form = 2#2 := by bv_omega
  rw [issueFault_class0 s ho hm hf, hr]
  by_cases hzero : f.form = 0#2
  · simp [ruleOne, hzero, ruleFault_scalars _ _ hf, hb, Fields.immZero]
  · by_cases htwo : f.form = 2#2
    · simp [ruleOne, htwo, ruleFault_scalars _ _ hf, FieldKind.accepts]
    · simp [ruleOne, h0, h2, hzero, htwo]

/-- IMM28 with a set bit in its reserved part is not below the bound of the part used. -/
theorem immBelow_of_getLsbD {f : Fields} {n k : Nat} (hk : n ≤ k) (h : f.imm.getLsbD k = true) : f.immBelow n = false := by
  have hge : 2 ^ k ≤ f.imm.toNat := Nat.ge_two_pow_of_testBit h
  have := Nat.pow_le_pow_right (n := 2) (by decide) hk
  exact decide_eq_false (by unfold Fields.immN; omega)

theorem immBelow_of_extractLsb' {f : Fields} {n lo len : Nat} (hk : n ≤ lo) (h : f.imm.extractLsb' lo len ≠ 0) : f.immBelow n = false := by
  obtain ⟨i, hi, hb⟩ : ∃ i < len, f.imm.getLsbD (lo + i) = true := by
    by_contra hno
    refine h (BitVec.eq_of_getLsbD_eq fun i hi => ?_)
    have : f.imm.getLsbD (lo + i) ≠ true := fun hb => hno ⟨i, hi, hb⟩
    simpa [BitVec.getLsbD_extractLsb', hi] using this
  exact immBelow_of_getLsbD (Nat.le_add_right_of_le hk) hb

/-! ### Words of class 0 (R41, R42, R54) -/

section
variable {w : Word} {o : Nat} (hw : w.extractLsb' 52 12 = BitVec.ofNat 12 o) (ho : o < 256)
include hw ho

/-- P, CLASS and OP of a word whose twelve bits from bit 52 are an OP of class 0. -/
theorem class0_head : w.getLsbD 63 = false ∧ w.extractLsb' 60 3 = 0 ∧ (w.extractLsb' 52 8).toNat = o := by
  have hbit {j : Nat} (hj : j < 12) : w.getLsbD (52 + j) = o.testBit j := by
    have := congrArg (fun v => v.getLsbD j) hw
    rwa [BitVec.getLsbD_extractLsb', BitVec.getLsbD_ofNat, decide_eq_true hj, Bool.true_and, Bool.true_and] at this
  have hhigh {j : Nat} (hj : 8 ≤ j) : o.testBit j = false :=
    Nat.testBit_lt_two_pow (lt_of_lt_of_le ho (Nat.pow_le_pow_right (n := 2) (by decide) hj))
  refine ⟨(hbit (j := 11) (by decide)).trans (hhigh (by decide)), BitVec.eq_of_getLsbD_eq fun i hi => ?_, ?_⟩
  · have hp : w.getLsbD (52 + (8 + i)) = false := (hbit (by omega)).trans (hhigh (by omega))
    rw [← Nat.add_assoc] at hp
    simpa [hi] using hp
  · apply Nat.eq_of_testBit_eq
    intro i
    rw [BitVec.testBit_toNat, BitVec.getLsbD_extractLsb']
    by_cases hi : i < 8
    · simp [hi, hbit (show i < 12 by omega)]
    · simp [hi, hhigh (show 8 ≤ i by omega)]

/-- A word of class 0 decodes by the class 0 list at its OP. -/
theorem decodeWord_class0 {mk : Fields → Instr} (hm : classList0[o]? = some mk) : decodeWord w = formOf (mk (Fields.ofWord w)) := by
  obtain ⟨hp, hc, hop⟩ := class0_head hw ho
  rw [decodeWord, hp, hc, hop]
  simp [classList, hm]

/-- A word of class 0 is the one built from its OP and fields. -/
theorem wordOf_class0 : wordOf 0 o (Fields.ofWord w) = w := by
  obtain ⟨hp, hc, hop⟩ := class0_head hw ho
  simpa [hc, hop] using wordOf_ofWord w hp

/-- A word of class 0 whose instruction fails a decode check takes class 0 with the word itself as TVAL (R55). -/
theorem exec_class0_fault {i : Instr} {s : State} {body : State → Res} {k : Nat} (hd : decodeWord w = i)
    (henc : wordOfInstr i = wordOf 0 o (Fields.ofWord w))
    (he : exec i s = issue i body s) (hk : issueFault i s = some k) : exec (decodeWord w) s = .next (takeTrap k w {} s) := by
  rw [hd, exec_of_fault he hk, henc, wordOf_class0 hw ho]

end

/-! ### clz, ctz, pop, bext and bins at execution (R78) -/

/-- An instruction with a one-operand body writes sD with its operation on sA and goes to the next word. -/
theorem exec_unary {i : Instr} {f : Fields} {op : Word → Word} {s : State} (he : exec i s = issue i (unaryBody f op) s) (h : ready i s = true) :
    exec i s = .next (s.setReg f.d (op (s.reg f.a))).advance :=
  exec_of_ready he h

theorem exec_clz {f : Fields} {s : State} (h : ready (.clz f) s = true) :
    exec (.clz f) s = .next (s.setReg f.d (BitVec.ofNat 64 (leadingZeros (s.reg f.a).toNat 64))).advance :=
  exec_unary (op := fun a => BitVec.ofNat 64 (leadingZeros a.toNat 64)) rfl h

theorem exec_ctz {f : Fields} {s : State} (h : ready (.ctz f) s = true) :
    exec (.ctz f) s = .next (s.setReg f.d (BitVec.ofNat 64 (trailingZeros (s.reg f.a).toNat 0 64))).advance :=
  exec_unary (op := fun a => BitVec.ofNat 64 (trailingZeros a.toNat 0 64)) rfl h

theorem exec_pop {f : Fields} {s : State} (h : ready (.pop f) s = true) :
    exec (.pop f) s = .next (s.setReg f.d (BitVec.ofNat 64 (popCount (s.reg f.a).toNat 64))).advance :=
  exec_unary (op := fun a => BitVec.ofNat 64 (popCount a.toNat 64)) rfl h

/-- The three bit fields of the parameters, as the body and as the statement read them. -/
theorem fieldParams_parts (f : Fields) (s : State) :
    fld (fieldParams f s) 0 6 = ((fieldParamBits f s).extractLsb' 0 6).toNat ∧
    fld (fieldParams f s) 6 7 = ((fieldParamBits f s).extractLsb' 6 7).toNat ∧
    (fieldParams f s).testBit 13 = (fieldParamBits f s).getLsbD 13 := by
  rw [fieldParams_eq_toNat]
  exact ⟨fld_toNat _ 0 6, fld_toNat _ 6 7, rfl⟩

/-- Which parameters are out of range (R78). -/
theorem badField_iff {p : Nat} {ins : Bool} :
    badField p ins = true ↔ fld p 6 7 = 0 ∨ 64 < fld p 0 6 + fld p 6 7 ∨ (ins = true ∧ p.testBit 13 = true) := by
  simp [badField, bitAt_eq_testBit, or_assoc]

theorem exec_bext {f : Fields} {s : State} (h : ready (.bext f) s = true) (hb : badField (fieldParams f s) false = false) :
    exec (.bext f) s = .next (s.setReg f.d (extractField (fieldParams f s) (s.reg f.a))).advance := by
  rw [exec_of_ready (body := bextBody f) rfl h]
  simp [bextBody, hb]

theorem exec_bins {f : Fields} {s : State} (h : ready (.bins f) s = true) (hb : badField (fieldParams f s) true = false) :
    exec (.bins f) s = .next (s.setReg f.d (insertField (fieldParams f s) (s.reg f.a) (s.reg f.d))).advance := by
  rw [exec_of_ready (body := binsBody f) rfl h]
  simp [binsBody, hb]

/-- The parameters as TVAL. -/
theorem fieldParams_tval (f : Fields) (s : State) : BitVec.ofNat 64 (fieldParams f s) = (fieldParamBits f s).zeroExtend 64 := by
  rw [fieldParams_eq_toNat, BitVec.ofNat_toNat]

theorem exec_bext_trap {f : Fields} {s : State} (h : ready (.bext f) s = true) (hb : badField (fieldParams f s) false = true) :
    exec (.bext f) s = .next (takeTrap 0x22 ((fieldParamBits f s).zeroExtend 64) {} s) := by
  rw [exec_of_ready (body := bextBody f) rfl h]
  simp [bextBody, hb, fieldParams_tval]

theorem exec_bins_trap {f : Fields} {s : State} (h : ready (.bins f) s = true) (hb : badField (fieldParams f s) true = true) :
    exec (.bins f) s = .next (takeTrap 0x22 ((fieldParamBits f s).zeroExtend 64) {} s) := by
  rw [exec_of_ready (body := binsBody f) rfl h]
  simp [binsBody, hb, fieldParams_tval]

/-! ### Words of clz, ctz, pop, bext and bins that fail a decode check (R78) -/

section
variable {w : Word} {o : Nat} {mk : Fields → Instr} {body : State → Res} {s : State}
  (hw : w.extractLsb' 52 12 = BitVec.ofNat 12 o) (ho : o < 256) (hdec : decodeWord w = mk (Fields.ofWord w))
  (hop : ∀ f, opcodeOf (mk f) = some (0, o, f)) (hm : ∀ f, namesChunkMask (mk f) = false)
  (henc : ∀ f, wordOfInstr (mk f) = wordOf 0 o f) (he : exec (mk (Fields.ofWord w)) s = issue (mk (Fields.ofWord w)) body s)
  (hs : NamesScalars (Fields.ofWord w))
include hw ho hdec hop hm henc he hs

/-- What a word of clz, ctz or pop that fails a decode check takes. -/
theorem exec_unary_faults (hr : ∀ f : Fields, ruleOf (mk f) = ruleOne f 0 .scalar .scalar .zero f.immZero) :
    ((Fields.ofWord w).form ≠ 0 → exec (decodeWord w) s = .next (takeTrap 2 w {} s)) ∧
    ((Fields.ofWord w).form = 0 → (Fields.ofWord w).b ≠ 0 → exec (decodeWord w) s = .next (takeTrap 5 w {} s)) ∧
    ((Fields.ofWord w).form = 0 → (Fields.ofWord w).b = 0 → (Fields.ofWord w).imm ≠ 0 → exec (decodeWord w) s = .next (takeTrap 8 w {} s)) := by
  have hfault := issueFault_unary s (hop _) (hm _) (hr _) hs
  have hexec {k : Nat} (hk : issueFault (mk (Fields.ofWord w)) s = some k) := exec_class0_fault hw ho hdec (henc _) he hk
  refine ⟨fun hf => hexec ?_, fun hf hb => hexec ?_, fun hf hb hi => hexec ?_⟩
  · rw [hfault, if_neg hf]
  · rw [hfault, if_pos hf, if_neg hb]
  · rw [hfault, if_pos hf, if_pos hb, if_neg hi]

/-- What a word of bext or bins that fails a decode check takes, where the immediate form uses the low `n` bits of IMM28 and `bad` says that
a bit above them is set. -/
theorem exec_field_faults {n : Nat} {bad : Prop} (hbad : bad → (Fields.ofWord w).immBelow n = false)
    (hr : ∀ f : Fields, ruleOf (mk f) =
      if f.form.toNat = 2 then ruleOne f 2 .scalar .scalar .zero (f.immBelow n) else ruleOne f 0 .scalar .scalar .scalar f.immZero) :
    ((Fields.ofWord w).form ≠ 0 → (Fields.ofWord w).form ≠ 2 → exec (decodeWord w) s = .next (takeTrap 2 w {} s)) ∧
    ((Fields.ofWord w).form = 0 → (Fields.ofWord w).imm ≠ 0 → exec (decodeWord w) s = .next (takeTrap 8 w {} s)) ∧
    ((Fields.ofWord w).form = 2 → (Fields.ofWord w).b ≠ 0 → exec (decodeWord w) s = .next (takeTrap 5 w {} s)) ∧
    ((Fields.ofWord w).form = 2 → (Fields.ofWord w).b = 0 → bad →
      exec (decodeWord w) s = .next (takeTrap 8 w {} s)) := by
  have hfault := issueFault_field s (hop _) (hm _) (hr _) hs
  have hexec {k : Nat} (hk : issueFault (mk (Fields.ofWord w)) s = some k) := exec_class0_fault hw ho hdec (henc _) he hk
  have h02 (hf : (Fields.ofWord w).form = 2) : ¬ (Fields.ofWord w).form = 0 := by rw [hf]; decide
  refine ⟨fun h0 h2 => hexec ?_, fun hf hi => hexec ?_, fun hf hb => hexec ?_, fun hf hb hx => hexec ?_⟩
  · rw [hfault, if_neg h0, if_neg h2]
  · rw [hfault, if_pos hf, if_neg hi]
  · rw [hfault, if_neg (h02 hf), if_pos hf, if_neg hb]
  · rw [hfault, if_neg (h02 hf), if_pos hf, if_pos hb, if_neg (by simp [hbad hx])]

end

/-- Settles O11: the counts by induction on the bits looked at, the fields bit by bit, the words by the rules of their entries. -/
theorem bitFields : Obligations.BitFields := by
  unfold Obligations.BitFields
  refine ⟨fun f s => ⟨fun h => ?clz, fun h => ?ctz, fun h => ?pop⟩, ?fields, fun w s => ⟨?decoded, ?unary, ?field⟩⟩
  case clz =>
    exact ⟨_, leadingZeros_le _ 64, exec_clz h, testBit_of_leadingZeros _ 64, testBit_below_leadingZeros _ 64⟩
  case ctz =>
    have hzeros := testBit_of_trailingZeros (s.reg f.a).toNat 0 64
    have hone := testBit_above_trailingZeros (s.reg f.a).toNat 0 64
    simp only [Nat.zero_add] at hzeros hone
    exact ⟨_, trailingZeros_le _ 0 64, exec_ctz h, hzeros, hone⟩
  case pop =>
    rw [exec_pop h, popCount_eq_length_filter]
    rfl
  case fields =>
    intro f s a p pos len x
    obtain ⟨hpos, hlen, hx⟩ : fld (fieldParams f s) 0 6 = pos ∧ fld (fieldParams f s) 6 7 = len ∧ (fieldParams f s).testBit 13 = x :=
      fieldParams_parts f s
    have hbad (ins : Bool) : badField (fieldParams f s) ins = true ↔ len = 0 ∨ 64 < pos + len ∨ (ins = true ∧ x = true) := by
      rw [badField_iff, hpos, hlen, hx]
    refine ⟨fun h h1 h64 => ⟨_, exec_bext h ?_, fun i hi => ?_⟩, fun h h1 h64 hx0 => ⟨_, exec_bins h ?_, fun i hi => ?_⟩,
      fun h hor => exec_bext_trap h ?_, fun h hor => exec_bins_trap h ?_⟩
    · rw [Bool.eq_false_iff, ne_eq, hbad]
      simp only [Bool.false_eq_true, false_and, or_false]
      omega
    · rw [getLsbD_extractField _ _ _ hi (hlen ▸ h1), hpos, hlen, hx]
    · rw [Bool.eq_false_iff, ne_eq, hbad, hx0]
      simp only [Bool.false_eq_true, and_false, or_false]
      omega
    · rw [getLsbD_insertField _ _ _ _ hi, hpos, hlen]
    · exact (hbad false).2 (by simpa using hor)
    · exact (hbad true).2 (by simpa using hor)
  case decoded =>
    intro p hp hw
    simp only [List.mem_cons, List.not_mem_nil, or_false] at hp
    rcases hp with rfl | rfl | rfl | rfl | rfl <;> exact decodeWord_class0 hw (by decide) rfl
  case unary =>
    intro o ho hw hs
    simp only [List.mem_cons, List.not_mem_nil, or_false] at ho
    rcases ho with rfl | rfl | rfl <;>
      exact exec_unary_faults hw (by decide) (decodeWord_class0 hw (by decide) rfl) (fun _ => rfl) (fun _ => rfl) (fun _ => rfl) rfl hs
        (fun _ => rfl)
  case field =>
    intro o ho hw hs
    simp only [List.mem_cons, List.not_mem_nil, or_false] at ho
    rcases ho with rfl | rfl
    · refine exec_field_faults (n := 14) hw (by decide) (decodeWord_class0 hw (by decide) rfl) (fun _ => rfl) (fun _ => rfl) (fun _ => rfl) rfl hs
        ?_ (fun _ => rfl)
      rintro (hres | ⟨hne, -⟩)
      · exact immBelow_of_extractLsb' (Nat.le_refl 14) hres
      · exact absurd hne (by decide)
    · refine exec_field_faults (n := 13) hw (by decide) (decodeWord_class0 hw (by decide) rfl) (fun _ => rfl) (fun _ => rfl) (fun _ => rfl) rfl hs
        ?_ (fun _ => rfl)
      rintro (hres | ⟨-, hx⟩)
      · exact immBelow_of_extractLsb' (Nat.le_succ 13) hres
      · exact immBelow_of_getLsbD (Nat.le_refl 13) hx

end Sys2Proof.Machine
end

section
/-! What an access, a wait or the hub does to the hart that has the turn, and what a trap leaves of it and writes (R329, R394). Every operation
is shown once to keep the hart, or its core. -/

namespace Sys2Proof.Machine

/-! ### What memory accesses, waits and the hub leave of the current hart -/

/-- A context without what device time, other agents and the hub change of it: PDEADLN, UNTRACKED, pending traps, its wait, its
publication list, its unperformed stores, and its place among the ready. -/
def Ctx.core (c : Ctx) : Ctx :=
  { c with pdeadln := 0, pdeadFrac := 0, untracked := 0, pend := [], wait := none, blocked := false, pubs := [], unfenced := [],
           readySince := 0, readyOrder := 0 }

/-- A fold keeps what each of its steps keeps. -/
theorem foldl_keeps {α β : Type} (φ : State → β) {g : State → α → State} (hg : ∀ s a, φ (g s a) = φ s) (l : List α) (s : State) :
    φ (l.foldl g s) = φ s := by
  induction l generalizing s with
  | nil => rfl
  | cons a l ih => exact (ih (g s a)).trans (hg s a)

/-- A change of one context that keeps every core keeps the current hart's. -/
theorem mapCtx_core (s : State) (id : Nat) {f : Ctx → Ctx} (hf : ∀ c, (f c).core = c.core := by intro c; rfl) :
    (s.mapCtx id f).cur.core = s.cur.core := by
  unfold State.mapCtx
  split
  · exact hf s.cur
  · rfl

theorem readied_core (c : Ctx) (now order : Nat) : (c.readied now order).core = c.core := by
  unfold Ctx.readied
  split <;> rfl

theorem alarm_core (c : Ctx) (p : Pending) (now order : Nat) : (c.alarm p now order).core = c.core := by
  unfold Ctx.alarm
  split
  · exact readied_core _ _ _
  · rfl

theorem tick_core (c : Ctx) (ps f : Nat) : (c.tick ps f).core = c.core := by
  unfold Ctx.tick
  split
  · dsimp only
    split <;> rfl
  · rfl

@[simp] theorem wake_core (s : State) (id : Nat) : (s.wake id).cur.core = s.cur.core := by
  refine mapCtx_core s id (fun c => ?_)
  exact readied_core _ _ _

@[simp] theorem pendFor_core (s : State) (id : Nat) (p : Pending) : (s.pendFor id p).cur.core = s.cur.core :=
  mapCtx_core s id (fun c => alarm_core c p _ _)

@[simp] theorem waitTo_core (s : State) (t : Nat) : (s.waitTo t).cur.core = s.cur.core := by
  unfold State.waitTo
  split
  · exact tick_core _ _ _
  · rfl

@[simp] theorem tellReceivers_core (s : State) (job : Nat) : (s.tellReceivers job).cur.core = s.cur.core := by
  refine foldl_keeps (fun u => u.cur.core) (fun u _ => ?_) _ s
  dsimp only
  split
  · exact wake_core _ _
  · rfl

/-! ### Translation leaves the hart -/

@[simp] theorem noteUse_cur (s : State) (pa mt : Nat) : (s.noteUse pa mt).cur = s.cur := by
  simp only [State.noteUse, apply_ite State.cur, ite_self]

@[simp] theorem noteWalk_cur (s : State) (units : List Nat) (root va : Word) : (s.noteWalk units root va).cur = s.cur := by
  unfold State.noteWalk
  dsimp only
  split
  · rfl
  · exact foldl_keeps (fun u => u.cur) (fun u a => noteUse_cur u a mtCached) _ s

@[simp] theorem noteFault_cur (s : State) (code : Nat) (va : Word) : (s.noteFault code va).cur = s.cur := by
  unfold State.noteFault
  split
  · exact noteWalk_cur _ _ _ _
  · rfl

@[simp] theorem pokeBumped_cur (s : State) (a : Nat) (bs : List Byte) : (s.pokeBumped a bs).cur = s.cur := by
  unfold State.pokeBumped State.bumpRegion
  split <;> rfl

@[simp] theorem fillTlb_cur (s : State) (units : List Nat) (ent : TlbEntry) (seen : List WalkEntry) :
    (s.fillTlb units ent seen).cur = s.cur := by
  refine foldl_keeps (fun u => u.cur) (fun u n => ?_) units s
  dsimp only
  split <;> rfl

/-- A check that has let a result through. -/
theorem ok_of_ite {ε α : Type} {c : Prop} [Decidable c] {e : ε} {x : Except ε α} {y : α}
    (h : (if c then .error e else x) = .ok y) : x = .ok y := by
  split at h
  · cases h
  · exact h

/-- A translation that succeeds leaves the current hart. -/
theorem translateAt_cur {s t : State} {units : List Nat} {root va : Word} {acc : AccKindT} {leaf : Leaf}
    (h : s.translateAt units root va acc = .ok (leaf, t)) : t.cur = s.cur := by
  unfold State.translateAt at h
  dsimp only at h
  replace h := ok_of_ite h
  split at h
  · split at h
    · cases h
    · cases h; rfl
  · replace h := ok_of_ite h
    split at h
    · cases h
    · split at h
      · cases h
      · replace h := ok_of_ite (ok_of_ite h)
        split at h
        · cases h
        · cases h
          rw [fillTlb_cur, apply_ite State.cur, pokeBumped_cur, noteWalk_cur, ite_self]

theorem translate_cur {s t : State} {va : Word} {acc : AccKindT} {leaf : Leaf} (h : s.translate va acc = .ok (leaf, t)) : t.cur = s.cur := by
  unfold State.translate at h
  split at h
  · split at h
    · cases h
    · split at h
      · cases h
      · cases h; rfl
  · exact translateAt_cur h

/-! ### Service of rows -/

@[simp] theorem activate_core (s : State) (k : Nat) : (s.activate k).cur.core = s.cur.core := waitTo_core s _

@[simp] theorem mcClose_core (s : State) (k : Nat) : (s.mcClose k).cur.core = s.cur.core := by
  unfold State.mcClose
  split
  · rfl
  · exact waitTo_core s _

@[simp] theorem mcOpen_core (s : State) (k row : Nat) : (s.mcOpen k row).cur.core = s.cur.core := by
  simp [State.mcOpen]

@[simp] theorem refreshGroup_core (s : State) (k : Nat) : (s.refreshGroup k).cur.core = s.cur.core := by
  simp [State.refreshGroup]

@[simp] theorem refreshAll_core (s : State) (k : Nat) : (s.refreshAll k).cur.core = s.cur.core :=
  foldl_keeps (fun u => u.cur.core) (fun u _ => refreshGroup_core u k) _ s

@[simp] theorem pendRefresh_core (s : State) (k sub : Nat) : (s.pendRefresh k sub).cur.core = s.cur.core := by
  unfold State.pendRefresh
  split
  · rfl
  · exact pendFor_core _ _ _

@[simp] theorem settleForced_core (s : State) (k : Nat) : (s.settleForced k).cur.core = s.cur.core := by
  unfold State.settleForced
  split
  · simp [State.forcedRefresh, State.forcedEnd]
  · rfl

@[simp] theorem rowLeave_cur (s : State) (who : Nat) : (s.rowLeave who).cur = s.cur := by
  unfold State.rowLeave
  split <;> rfl

/-- The service of a row access keeps the hart's core. -/
theorem rowServeFor_core {s t : State} {who pa : Nat} {w : Bool} (h : s.rowServeFor who pa w = some t) : t.cur.core = s.cur.core := by
  unfold State.rowServeFor at h
  dsimp only at h
  split at h
  · split at h
    · cases h
      split <;> simp
    · cases h
  · split at h
    · cases h
      split <;> split <;> simp
    · cases h

/-! ### Writes -/

@[simp] theorem publish_core (s : State) (id : Nat) (p : Nat × Nat → Bool) : (s.publish id p).cur.core = s.cur.core :=
  mapCtx_core s id

@[simp] theorem forcePublish_core (s : State) (id : Nat) : (s.forcePublish id).cur.core = s.cur.core := by
  have h : ((s.mapCtx id (fun c => { c with unfenced := [] })).publish id (fun _ => true)).cur.core = s.cur.core := by
    rw [publish_core]; exact mapCtx_core s id
  unfold State.forcePublish
  dsimp only
  split <;> exact h

@[simp] theorem markUnpublished_core (s : State) (id line tag : Nat) : (s.markUnpublished id line tag).cur.core = s.cur.core := by
  have hmap (t : State) : (t.mapCtx id (fun c => { c with pubs := c.pubs ++ [(line, tag)] })).cur.core = t.cur.core := mapCtx_core t id
  simp only [State.markUnpublished, apply_ite State.cur, apply_ite Ctx.core, State.setHub_cur, hmap, forcePublish_core, ite_self]

@[simp] theorem addHold_cur (s : State) (o : ObjKey) (id : Nat) : (s.addHold o id).cur = s.cur := by
  unfold State.addHold
  split
  · rfl
  · split <;> rfl

@[simp] theorem endHold_cur (s : State) (o : ObjKey) (id : Nat) : (s.endHold o id).cur = s.cur := by
  unfold State.endHold
  split <;> rfl

@[simp] theorem adoptHolder_core (s : State) (pa w : Nat) : (s.adoptHolder pa w).cur.core = s.cur.core := by
  unfold State.adoptHolder State.giveHold
  split
  · split
    · rfl
    · split
      · simp
      · exact mapCtx_core s _
  · rfl

@[simp] theorem watchBy_core (s : State) (hit : Nat → Nat → Bool) : (s.watchBy hit).cur.core = s.cur.core := by
  refine (foldl_keeps (fun u => u.cur.core) (fun u (c : Ctx) => wake_core u c.reqid) _ _).trans
    (foldl_keeps (fun u => u.cur.core) (fun u o => ?_) _ s)
  have hend (l : List Nat) : (l.foldl (fun u id => State.endHold u o id) u).cur = u.cur :=
    foldl_keeps (fun u => u.cur) (fun u id => endHold_cur u o id) l u
  dsimp only
  split
  · exact adoptHolder_core _ _ _
  · split
    · rw [wake_core, hend]
    · rw [hend]

@[simp] theorem orderStores_core (s : State) (a n : Nat) : (s.orderStores a n).cur.core = s.cur.core := by
  unfold State.orderStores
  split <;> rfl

@[simp] theorem settleOthers_cur (s : State) (hit : Nat → Nat → Bool) : (s.settleOthers hit).cur = s.cur := by
  unfold State.settleOthers
  split <;> rfl

@[simp] theorem settleStores_core (s : State) (own : Bool) (a n : Nat) : (s.settleStores own a n).cur.core = s.cur.core := by
  unfold State.settleStores
  rw [settleOthers_cur]
  split
  · exact orderStores_core _ _ _
  · rfl

@[simp] theorem dramPoke_cur (s : State) (a : Nat) (bs : List Byte) : (s.dramPoke a bs).cur = s.cur := by
  unfold State.dramPoke
  dsimp only
  split <;> rfl

/-- The writes of one access keep the hart's core. -/
@[simp] theorem writePhys_core (s : State) (id : Option Nat) (tag : Nat) (leaf : Leaf) (bs : List Byte) :
    (s.writePhys id tag leaf bs).cur.core = s.cur.core := by
  have hmark (i : Nat) (t : State) : ((linesOf leaf.pa bs.length).foldl (fun t l => State.markUnpublished t i l tag) t).cur.core = t.cur.core :=
    foldl_keeps (fun u => u.cur.core) (fun u l => markUnpublished_core u i l tag) _ t
  unfold State.writePhys State.watch
  cases id <;>
    simp only [watchBy_core, apply_ite State.cur, apply_ite Ctx.core, hmark, dramPoke_cur, settleStores_core, noteUse_cur, ite_self]

/-! ### Taking a trap (R329) -/

/-- A trap record that has been written keeps the hart's core. -/
theorem writeRecord_core {s t : State} {bs : List Byte} (h : s.writeRecord bs = some t) : t.cur.core = s.cur.core := by
  unfold State.writeRecord at h
  split at h
  · cases h
  · next l u hu =>
    have hserve : ((u.rowServe l.pa true).getD u).cur.core = u.cur.core := by
      cases hr : u.rowServe l.pa true with
      | none => rfl
      | some v => exact rowServeFor_core hr
    split at h
    · cases h
    · cases h
      rw [rowLeave_cur, writePhys_core, apply_ite State.cur, apply_ite Ctx.core, hserve, ite_self, translate_cur hu]

theorem recordJoin_cur (s : State) : s.recordJoin.cur = s.cur := by
  unfold State.recordJoin State.rowJoin
  split
  · rfl
  · split <;> rfl

/-- A hart `d` that has taken a trap where it was `c`: its scalars and TVEC stand, TCAUSE and TVAL are the trap's. -/
structure Ctx.Entered (c : Ctx) (code : Nat) (tval : Word) (d : Ctx) : Prop where
  regs : d.regs = c.regs
  tvec : d.tvec = c.tvec
  tcause : d.tcause = BitVec.ofNat 64 code
  tval : d.tval = tval

/-- What an entry has written stands in the core. -/
theorem Ctx.Entered.of_core {c d e : Ctx} {code : Nat} {tval : Word} (h : c.Entered code tval d) (hc : e.core = d.core) :
    c.Entered code tval e where
  regs := (congrArg Ctx.regs hc).trans h.regs
  tvec := (congrArg Ctx.tvec hc).trans h.tvec
  tcause := (congrArg Ctx.tcause hc).trans h.tcause
  tval := (congrArg Ctx.tval hc).trans h.tval

/-- The end of a context leaves what an entry has written. -/
theorem Ctx.Entered.end_ {c d : Ctx} {code : Nat} {tval : Word} (h : c.Entered code tval d) (e : Ending) :
    c.Entered code tval (d.end_ e) := by
  unfold Ctx.end_
  split
  · exact h
  · exact { h with }

theorem trapRegs_entered (code : Nat) (tval : Word) (info : TrapInfo) (s : State) :
    s.cur.Entered code tval (s.trapRegs code tval info).cur := by
  unfold State.trapRegs
  dsimp only
  split
  · refine Ctx.Entered.of_core ?_ (tellReceivers_core _ _)
    exact ⟨rfl, rfl, rfl, rfl⟩
  · exact ⟨rfl, rfl, rfl, rfl⟩

/-- One entry writes TCAUSE and TVAL and leaves the scalars, whether its record can be written or the context ends. -/
theorem enterTrap_entered (code : Nat) (tval : Word) (info : TrapInfo) (dies : Bool) (s : State) :
    s.cur.Entered code tval (s.enterTrap code tval info dies).cur := by
  have hregs := trapRegs_entered code tval info (s.noteFault code tval)
  rw [noteFault_cur] at hregs
  unfold State.enterTrap
  dsimp only
  split
  · exact Ctx.Entered.end_ (hregs.of_core (congrArg Ctx.core (rowLeave_cur _ _))) _
  · next u hu =>
    have hrecord := hregs.of_core (writeRecord_core hu)
    split
    · exact hrecord.end_ _
    · split
      · exact hrecord.end_ _
      · exact { hrecord with }

/-- A trap of a hart that is not Cairn leaves its scalars (R329). -/
theorem takeTrap_regs {s : State} (code : Nat) (tval : Word) (info : TrapInfo) (hk : s.cur.kind ≠ .cairn) :
    (takeTrap code tval info s).cur.regs = s.cur.regs := by
  unfold takeTrap
  rw [if_neg hk]
  split
  · unfold State.replayLaunch State.mapAll State.setCur Ctx.end_
    dsimp only
    split <;> split <;> rfl
  · split
    · exact congrArg Ctx.regs (recordJoin_cur s)
    · have first := enterTrap_entered code tval info (code / 16 = 21 && 2 ≤ code % 16) s
      dsimp only
      split
      · exact (enterTrap_entered _ _ _ _ _).regs.trans first.regs
      · exact first.regs

/-- A synchronous trap whose record need not wait, to an aligned handler, is taken with its code and TVAL (R31, R90, R329). -/
theorem takeTrap_entered {s : State} {code : Nat} (tval : Word) (info : TrapInfo) (hk : s.cur.kind ≠ .cairn) (hc : code / 16 ≠ 21)
    (hw : s.recordWait = none) (hv : s.cur.tvec.toNat % 8 = 0) : s.cur.Entered code tval (takeTrap code tval info s).cur := by
  have first := enterTrap_entered code tval info (code / 16 = 21 && 2 ≤ code % 16) s
  have hwait : s.trapWaits code = false := by simp [State.trapWaits, hw]
  unfold takeTrap
  rw [if_neg hk, if_neg (by simp [hc]), if_neg (by simp [hwait])]
  dsimp only
  rw [if_neg (by simp [first.tvec, hv])]
  exact first

/-- Cairn's entry off trap level leaves its scalars and writes the cause and TVAL to MCAUSE (R394). -/
theorem takeTrap_cairn {s : State} (code : Nat) (tval : Word) (info : TrapInfo) (hk : s.cur.kind = .cairn) (hm : s.mgmt.ml = false) :
    (takeTrap code tval info s).cur.regs = s.cur.regs ∧
    (takeTrap code tval info s).mgmt.mcause = BitVec.ofNat 64 code ||| tval <<< 16 := by
  simp [takeTrap, hk, State.cairnEnter, hm, boolWord]

end Sys2Proof.Machine
end

section
/-! Division (R77). -/

namespace Sys2Proof.Machine

/-! ### Divisions (R77) -/

section
variable {i : Instr} {f : Fields} {ovf : Word → Word → Bool} {op : Word → Word → Word} {s : State}
  (he : exec i s = issue i (divideBody f ovf op) s) (h : ready i s = true)
include he h

/-- A zero divisor traps class 2, subcode 0. -/
theorem exec_divide_zero (hb : operandB f s = 0) : exec i s = .next (takeTrap 0x20 (s.reg f.a) {} s) := by
  rw [exec_of_ready he h]
  simp [divideBody, hb]

/-- An overflow traps class 2, subcode 1. -/
theorem exec_divide_overflow (hb : operandB f s ≠ 0) (ho : ovf (s.reg f.a) (operandB f s) = true) :
    exec i s = .next (takeTrap 0x21 (s.reg f.a) {} s) := by
  rw [exec_of_ready he h]
  simp only [divideBody, if_neg hb, if_pos ho, finish_trap]

/-- Every other division writes sD. -/
theorem exec_divide_done (hb : operandB f s ≠ 0) (ho : ovf (s.reg f.a) (operandB f s) = false) :
    exec i s = .next (s.setReg f.d (op (s.reg f.a) (operandB f s))).advance := by
  rw [exec_of_ready he h]
  simp only [divideBody, if_neg hb, ho, Bool.false_eq_true, if_false, finish_done]

end

/-- The overflow test of div says that the operands are -2^63 and -1. -/
theorem divOverflow_iff (a b : Word) : (a = BitVec.intMin 64 && b = BitVec.allOnes 64 : Bool) = true ↔ a.toInt = -2 ^ 63 ∧ b.toInt = -1 := by
  rw [Bool.and_eq_true, decide_eq_true_eq, decide_eq_true_eq, ← BitVec.toInt_inj, ← BitVec.toInt_inj]
  rfl

theorem ne_zero_of_toInt_eq_neg_one {b : Word} (h : b.toInt = -1) : b ≠ 0 := by
  rintro rfl
  cases h

/-- Settles O9: the cases of the division's body, and the entry of a trap followed through the writing of its record. -/
theorem scalarDivision : Obligations.ScalarDivision := by
  unfold Obligations.ScalarDivision
  intro f s a b
  refine ⟨?results, fun h ha hb => ?divOverflow, fun h ha hb => ?remOverflow, ?traps⟩
  case results =>
    intro p hp h
    simp only [List.mem_cons, List.not_mem_nil, or_false] at hp
    rcases hp with rfl | rfl | rfl | rfl
    · refine ⟨fun hb => exec_divide_zero rfl h hb, fun hb hno => exec_divide_done (op := divSigned) rfl h hb ?_⟩
      rw [Bool.eq_false_iff, ne_eq, divOverflow_iff]
      exact fun hov => hno ⟨rfl, hov⟩
    · refine ⟨fun hb => exec_divide_zero rfl h hb, fun hb _ => (exec_divide_done (op := fun a b => a / b) rfl h hb rfl).trans ?_⟩
      rw [show BitVec.ofNat 64 (a.toNat / b.toNat) = a / b by rw [← BitVec.toNat_udiv, BitVec.ofNat_toNat, BitVec.setWidth_eq]]
      rfl
    · exact ⟨fun hb => exec_divide_zero rfl h hb, fun hb _ => exec_divide_done (op := remSigned) rfl h hb rfl⟩
    · refine ⟨fun hb => exec_divide_zero rfl h hb, fun hb _ => (exec_divide_done (op := fun a b => a % b) rfl h hb rfl).trans ?_⟩
      rw [show BitVec.ofNat 64 (a.toNat % b.toNat) = a % b by rw [← BitVec.toNat_umod, BitVec.ofNat_toNat, BitVec.setWidth_eq]]
      rfl
  case divOverflow =>
    exact exec_divide_overflow (ovf := fun a b => a = BitVec.intMin 64 && b = BitVec.allOnes 64) rfl h (ne_zero_of_toInt_eq_neg_one hb)
      ((divOverflow_iff a b).2 ⟨ha, hb⟩)
  case remOverflow =>
    have hrem : remSigned a b = 0 := by rw [remSigned, ha, hb]; rfl
    rw [← hrem]
    exact exec_divide_done (op := remSigned) rfl h (ne_zero_of_toInt_eq_neg_one hb) rfl
  case traps =>
    intro code hcode t
    have hclass : code / 16 ≠ 21 := by
      simp only [List.mem_cons, List.not_mem_nil, or_false] at hcode
      omega
    refine ⟨fun hk => ⟨takeTrap_regs code a {} hk, fun hw hv => ?_⟩, fun hk hm => takeTrap_cairn code a {} hk hm⟩
    have hent := takeTrap_entered a {} hk hclass hw hv
    exact ⟨hent.tcause, hent.tval⟩

end Sys2Proof.Machine
end
